-- ==== Sys2Proof/Word.lean ====
section
/-! DEFINITION. Sys2Proof/Word.lean: the machine's words and bytes (R3, R18). -/

namespace Sys2Proof

/-- A 64-bit register, register value or doubleword. -/
abbrev Word := BitVec 64

/-- One byte of memory (R3: byte 0 of a field is at the lowest address and holds bits [7:0]). -/
abbrev Byte := BitVec 8

end Sys2Proof
end

