-- ==== Sys2Proof/Syntax.lean ====
section
/-! DEFINITION. Sys2Proof/Syntax.lean: the commands and steps of the OCF-4008, one constructor for every row of the
opcode table, with the operands each carries. An operand that the environment decides (host data returned, a measured
value, the outcome of a check on a wire) is part of the command: it is what the outside world, or physics, gives the
block at that step. -/

namespace Sys2Proof

/-- R9: a cluster, 0 to 39. -/
abbrev Cl := Fin 40
/-- R9: a port, 0 to 7. -/
abbrev Port := Fin 8
/-- R9: a context, 0 to 15. -/
abbrev Ctx := Fin 16
/-- R592: a PCI Express function, 0 to 15. -/
abbrev Fn := Fin 16
/-- R288: a shared-cache slice. -/
abbrev Sl := Fin 16
/-- R9: an HBM stack, 0 to 7. -/
abbrev Stk := Fin 8

/-- Who writes a register: a control core, the firmware, or the debug path (R16, R218, R734). -/
inductive Writer
  | core (c : Cl) | firmware | debugPath
  deriving DecidableEq, Repr

/-- What the check bits of a word read in this step show, and which word (R162 to R165, R266, R293, R629). -/
inductive Ecc
  | clean | corrected (word : Nat) | uncorrectable (word : Nat)
  deriving DecidableEq, Repr

/-- R228: the five units that take instructions from the core. -/
inductive EngUnit
  | tile | array | vector | stream | sync
  deriving DecidableEq, Repr

/-- R122: a single wrong product of one dot-product unit: its value differs by 2^exp, downward if neg. -/
structure Slip where
  unit : Fin 1024
  lane : Fin 64
  exp  : Int
  neg  : Bool
  deriving DecidableEq, Repr

/-- R289, R290: a request that reaches a shared-cache slice. -/
structure ShcReq where
  addr     : Nat
  write    : Bool
  whole    : Bool
  cls      : Fin 4
  hint     : Fin 3
  ctx      : Ctx
  prefetch : Bool
  deriving DecidableEq, Repr

/-- R603, R604: how a transfer to or from host memory, or over a link, came out. -/
inductive XferFault
  | ok | hostError
  deriving DecidableEq, Repr

/-- R458, R465, R478: what the receiver finds in a frame's raw bits: good, damaged, stomped, or a CRC that passes with a
tag that fails. -/
inductive FrameCheck
  | good | damaged | stomped | authFail
  deriving DecidableEq, Repr

/-- R594, R609: a configuration request: offset, and the data of a write. -/
structure CfgReq where
  offset : Nat
  write  : Option (BitVec 32)
  deriving DecidableEq, Repr

/-- R611: the device power states. -/
inductive DState
  | d0 | d3hot | d3cold
  deriving DecidableEq, Repr

/-- R604: a device read of host memory whose completion can be lost: a stream transfer, a core load, or a command. -/
inductive HostRead
  | stream (c : Cl) (slot : Fin 8) | core (c : Cl) | command (x : Ctx) (seq : BitVec 32)
  deriving DecidableEq, Repr

/-- R603: the rows of the table of errors but for the completion timeout: a correctable error, named by its status bit; a poisoned
write to BAR2, or to n bytes of BAR4; a poisoned completion of a device read, or one that refuses it (Completer Abort if ca);
an error of the link protocol, named by its status bit; and an uncorrectable internal error. -/
inductive PcieError
  | correctable (bit : Fin 16) | poisonedBar2 | poisonedBar4 (off bytes : Nat) | poisonedRead (victim : HostRead)
  | refusedRead (victim : HostRead) (ca : Bool) | protocol (bit : Fin 32) | internal
  deriving DecidableEq, Repr

/-- R627 to R629: how an HBM access ends. -/
inductive HbmOutcome
  | ok | corrected | retried (times : Fin 3) | failed | uncorrectable (word : Nat) | pathParity (word : Nat)
  deriving DecidableEq, Repr

/-- R669 to R673: which image verifies at boot. -/
inductive BootPick
  | slotA | slotB
  deriving DecidableEq, Repr

/-- R722: a packet at a cluster's stop: the oldest arrival that waits there, or the oldest transfer of a stream slot. -/
inductive NetPacket
  | arrival | transfer (slot : Fin 8)
  deriving DecidableEq, Repr

/-- R722: the parity of an on-die network packet: good, an error in the bytes of a word, or in the header. -/
inductive NetParity
  | ok | payload (pk : NetPacket) (word : Nat) | header (pk : NetPacket)
  deriving DecidableEq, Repr


/-- The commands and steps of the device: one constructor for every row of the opcode table. -/
inductive Instr
  /-- R11. A write to a register field that has no behaviour of its own takes effect under the field's access code, including W1C clearing of captures. -/
  | registerWrite (who : Writer) (addr : Nat) (val : Word)
  /-- R215. The control core executes one standard RV64IMAC instruction, including loads and stores to the scratchpad, the cluster registers and global addresses. -/
  | coreInstruction (c : Cl) (ecc : Ecc)
  /-- R489. A core access stalled on a non-resident page is made once the page is brought in, or faults. -/
  | corePageInResume (c : Cl) (broughtIn : Bool)
  /-- R285. A cluster-cache miss returns its line, which is allocated with its class and hint. -/
  | clusterCacheMissFill (c : Cl) (line : Nat) (ecc : Ecc)
  /-- R250. EXIT performs fence.kern, stores the exit code, sets EXITED and stops the core. -/
  | ecallExit (c : Cl)
  /-- R249. The HANDLER call registers or removes the program's handler and its forwarded causes. -/
  | ecallHandler (c : Cl)
  /-- R245. HRET restores pc and registers from the save area and returns from the handler. -/
  | ecallHret (c : Cl)
  /-- R249. The EVENT call places a user event with a0 and a1 on the context's event ring. -/
  | ecallEvent (c : Cl)
  /-- R249. An unknown environment call writes all ones to a0 with no other effect. -/
  | ecallUnknown (c : Cl)
  /-- R245. A pending local interrupt is taken, forwarded to the program's handler or handled by the runtime. -/
  | interruptEntry (c : Cl) (cause : Fin 5)
  /-- R228. The core issues tile.cfg into the tile unit's queue. -/
  | tileCfg (c : Cl)
  /-- R228. The core issues tile.ld into the tile unit's queue. -/
  | tileLd (c : Cl)
  /-- R228. The core issues tile.rel into the tile unit's queue. -/
  | tileRel (c : Cl)
  /-- R228. The core issues mx.load into the array's queue. -/
  | mxLoad (c : Cl)
  /-- R228. The core issues mx.run into the array's queue. -/
  | mxRun (c : Cl)
  /-- R228. The core issues mx.gauge into the array's queue. -/
  | mxGauge (c : Cl)
  /-- R228. The core issues vx.chain into the vector engine's queue. -/
  | vxChain (c : Cl)
  /-- R224. The core issues st.post into the stream queue. -/
  | stPost (c : Cl)
  /-- R224. The core issues st.resume into the stream queue. -/
  | stResume (c : Cl)
  /-- R228. The core issues sy.sig into the synchronisation block's queue. -/
  | sySig (c : Cl)
  /-- R232. The core issues sy.wait and stalls until the cue word is written to rd. -/
  | syWait (c : Cl)
  /-- R228. The core issues sy.watch into the synchronisation block's queue. -/
  | syWatchInstruction (c : Cl)
  /-- R232. The core issues sy.waitinv and stalls until the cue word is written. -/
  | syWaitinv (c : Cl)
  /-- R252. fence.eng stalls the core until earlier work of the masked units has ended. -/
  | fenceEng (c : Cl)
  /-- R253. fence.kern stalls the core until all units have ended and writes are visible. -/
  | fenceKern (c : Cl)
  /-- R254. cache.inv starts invalidating the cluster-cache lines of a range, writing dirty ones back. -/
  | cacheInv (c : Cl)
  /-- R252. The masked units have ended their earlier work and fence.eng completes. -/
  | fenceEngComplete (c : Cl)
  /-- R253. All units have ended and every write is visible, so fence.kern completes. -/
  | fenceKernComplete (c : Cl)
  /-- R254. The invalidation of the range and its write-backs finish and cache.inv completes. -/
  | cacheInvComplete (c : Cl)
  /-- R241. A unit with its PEND bit set takes an instruction from its queue and discards it, writing all ones to rd. -/
  | instructionDiscard (c : Cl) (u : EngUnit)
  /-- R142. The tile unit checks tile.cfg after its scoreboard wait and shapes or faults the register. -/
  | tileCfgAccept (c : Cl)
  /-- R148. The tile unit checks tile.ld after its scoreboard wait and starts issuing row reads. -/
  | tileLdAccept (c : Cl)
  /-- R146. The tile unit releases a register after its scoreboard wait. -/
  | tileRelAccept (c : Cl)
  /-- R149. A tile.ld row read returns its data and the row is written and made valid. -/
  | tileLdRowArrive (c : Cl) (row : Nat)
  /-- R768. The array takes mx.load from its queue, checks it under R125 and accepts it. -/
  | mxLoadAccept (c : Cl)
  /-- R126. The array takes mx.run from its queue, checks it and accepts it with a run number. -/
  | mxRunAccept (c : Cl) (parityError : Bool)
  /-- R133. The array takes mx.gauge and sets the cluster's gauge state, returning the previous one. -/
  | mxGaugeAccept (c : Cl)
  /-- R111. An accepted mx.load starts moving its tile into the shadow store once no row in flight reads it. -/
  | mxLoadTransferStart (c : Cl) (ecc : Ecc)
  /-- R111. The load has moved its tile and formed its checksums, readying the shadow store. -/
  | mxLoadComplete (c : Cl)
  /-- R98. The array admits up to P stream rows into its sub-arrays in one step. -/
  | arrayRowAdmit (c : Cl) (ecc : Ecc)
  /-- R108. In one non-frozen step every row in flight advances a group and forms products, sums, accumulator reads and writes. -/
  | arrayPipelineStep (c : Cl) (slip : Option Slip) (ecc : Ecc)
  /-- R95. The array pushes a consumed buffer handle or a result handle once the queue has room. -/
  | arrayHandlePush (c : Cl)
  /-- R110. A run completes when every row is written and checked, and updates CL_MX_PEAK. -/
  | runComplete (c : Cl)
  /-- R134. A write of PEAKCLR to CL_MX_CTRL clears CL_MX_PEAK. -/
  | peakclr (c : Cl)
  /-- R204. The vector engine checks the head chain once its tiles and queue handles are ready, then accepts it and pops handles. -/
  | vxChainAccept (c : Cl)
  /-- R208. A beat of up to 256 elements enters the lanes and flows through readout, stages, sink and tree. -/
  | vxBeat (c : Cl) (ecc : Ecc)
  /-- R210. A chain ends when its last sink write, tree result and queue pushes are done. -/
  | vxChainComplete (c : Cl)
  /-- R237. A core write to CL_Q_PUSHn pushes a handle, or is discarded and sets OVF when the queue is full. -/
  | clQPush (c : Cl) (n : Fin 8) (val : Word)
  /-- R237. A core read of CL_Q_POPn removes and returns the head entry, or returns VALID 0. -/
  | clQPop (c : Cl) (n : Fin 8)
  /-- R233. A core read of CL_Q_RESPOP removes and returns the head result entry. -/
  | clQRespop (c : Cl)
  /-- R235. A write to CL_Q_ROUTE rebinds ports, or is ignored whole and sets ROUTEERR. -/
  | clQRouteWrite (c : Cl) (val : Word)
  /-- R247. Setting RUN in CL_CORE_CTRL launches the program with the entry state of R248. -/
  | coreRunSet (c : Cl)
  /-- R256. Clearing RUN stops the core at the next instruction boundary. -/
  | coreRunClear (c : Cl)
  /-- R738. Setting HALT halts the core at the next instruction boundary. -/
  | debugHalt (c : Cl)
  /-- R739. Clearing HALT resumes the core at its saved pc. -/
  | debugResume (c : Cl)
  /-- R739. STEP executes one instruction or trap entry on a halted core. -/
  | debugStep (c : Cl)
  /-- R222. A write of BPCLR clears the branch predictor. -/
  | bpclr (c : Cl)
  /-- R257. A write of RATECLR resets MIN, MAX and VALID of CL_STEP_RATE. -/
  | rateclr (c : Cl)
  /-- R257. A 4,096-tick window ends and CL_STEP_RATE takes its step count. -/
  | stepRateWindowEnd (c : Cl)
  /-- R242. Clearing a PEND bit in CL_FLT_INFO makes the unit accept instructions again. -/
  | pendClear (c : Cl) (val : Word)
  /-- R269. The scrubber reads and checks the scratchpad word at its pointer in an idle turn. -/
  | scrubWordCheck (c : Cl) (ecc : Ecc)
  /-- R266. A corrected scratchpad word is written back in the next idle turn of its group. -/
  | correctedWordWriteback (c : Cl)
  /-- R271. GO in CL_SP_OPCTRL checks and starts a scratchpad fill or copy. -/
  | fillCopyGo (c : Cl) (val : Word)
  /-- R272. A fill or copy has written every word; OPSTAT and OPDONE are set and CTR signalled. -/
  | fillCopyComplete (c : Cl)
  /-- R274. A write to CL_PROPh sets the entry, or is ignored and sets PROPERR when out of range. -/
  | propTableWrite (c : Cl) (h : Fin 64) (val : Word)
  /-- R283. A write to CL_SP_WINn sets the window, or is ignored and sets WINERR. -/
  | windowWrite (c : Cl) (n : Fin 8) (val : Word)
  /-- R280. An arrival's first word is checked against the enabled windows and source filters. -/
  | arrivalCheck (c : Cl)
  /-- R281. Every word of an admitted arrival is written and the window's counter is incremented. -/
  | arrivalComplete (c : Cl)
  /-- R279. At a point where no kernel of an over-quota context runs, the firmware reclaims retained buffers. -/
  | scratchpadReclaim (x : Ctx) (c : Cl)
  /-- R289. A request reaches the home slice of its HBM address and hits or misses. -/
  | sharedCacheAccess (sl : Sl) (req : ShcReq)
  /-- R289. A shared-cache miss returns its line from HBM and the line is filled with victim choice. -/
  | sharedCacheMissFill (sl : Sl) (line : Nat) (ecc : Ecc)
  /-- R294. GO in HM_SHC_MAINT starts a maintenance pass on all slices. -/
  | shcMaintGo (val : Word)
  /-- R294. A shared-cache maintenance pass completes and sets DONE. -/
  | shcMaintDone
  /-- R329. An st.post is checked at its engine once a slot is free and accepted with a stream number. -/
  | streamAccept (c : Cl)
  /-- R338. An st.resume checks its state block and continues the stream from BYTEPOS. -/
  | streamResumeAccept (c : Cl)
  /-- R308. A stream pops a handle for its next fill once the queue and lookahead allow it. -/
  | streamFillBegin (c : Cl) (slot : Fin 8)
  /-- R317. A stream issues its next transfer when a transfer slot is given to it. -/
  | streamTransferIssue (c : Cl) (slot : Fin 8)
  /-- R318. A fetch transfer's last byte is written into the cluster, or a store transfer is performed. -/
  | streamTransferComplete (c : Cl) (slot : Fin 8) (hostData : List Byte) (fault : XferFault)
  /-- R308. A completed fill's handle is pushed onto its queue once the queue has room. -/
  | streamFillPush (c : Cl) (slot : Fin 8)
  /-- R334. A halted stream resumes in its slot once the firmware has made its page resident. -/
  | streamPageResume (c : Cl) (slot : Fin 8)
  /-- R332. A stream ends, writes its state block and signals CTR. -/
  | streamEnd (c : Cl) (slot : Fin 8)
  /-- R325. A multicast stream waiting STALLT × 1,024 steps on one member raises the stall alarm. -/
  | streamStallAlarm (c : Cl) (slot : Fin 8)
  /-- R342. A remote store transfer unanswered after XTMO stops its stream with TIMEOUT. -/
  | storeTransferTimeout (c : Cl) (xslot : Fin 8)
  /-- R336. A write of a stream number with GO to ST_CANCEL cancels that stream. -/
  | stCancelWrite (c : Cl) (val : Word)
  /-- R375. The synchronisation block checks sy.sig and, after its release waits, sends the increment. -/
  | sySigAccept (c : Cl)
  /-- R379. The synchronisation block checks sy.wait and registers its watch. -/
  | syWaitAccept (c : Cl)
  /-- R379. The synchronisation block checks sy.waitinv and registers its watch. -/
  | syWaitinvAccept (c : Cl)
  /-- R379. The synchronisation block checks sy.watch and arms the lowest free slot. -/
  | syWatchAccept (c : Cl)
  /-- R374. A change reaches its counter and is applied, then the counter's watches are evaluated. -/
  | counterChange (i : Nat)
  /-- R380. A watch arrives at its counter, is registered and evaluated. -/
  | watchRegister (i : Nat)
  /-- R382. A watch's timer expires and the watch is evaluated with EXPIRED. -/
  | watchTimerExpiry (id : Nat)
  /-- R381. A cue word reaches the wait entry, a watch slot or the event ring. -/
  | cueDelivery (i : Nat)
  /-- R385. A write of GO to CL_SY_WCANCEL cancels an armed watch slot. -/
  | clSyWcancelWrite (c : Cl) (val : Word)
  /-- R381. A read of CL_SY_CUEn in state CUED returns the cue and frees the slot. -/
  | clSyCueRead (c : Cl) (n : Fin 16)
  /-- R399. A hand setting of a local counter through CL_SY_SETV when debug access is open. -/
  | clSySetvWrite (who : Writer) (c : Cl) (val : Word)
  /-- R399. A hand setting of a physical device counter through SY_SETV. -/
  | sySetvWrite (who : Writer) (val : Word)
  /-- R390. A write to a local pair entry enables it, or is ignored with PAIRERR on underflow. -/
  | clSyPairWrite (c : Cl) (n : Fin 8) (val : Word)
  /-- R390. A write to a device pair entry enables it, or is ignored with PAIRERR. -/
  | syPairWrite (k : Fin 256) (val : Word)
  /-- R392. A translation entry write is applied, or refused with MAPERR on a duplicate mapping. -/
  | syVmapWrite (x : Ctx) (v : Fin 4096) (val : Word)
  /-- R403. A write to SY_CURk_CFG configures a curtain entry; EN with EXPECT 0 is ignored. -/
  | syCurCfgWrite (k : Fin 16) (val : Word)
  /-- R411. A member at stage 2 with an accepted description enables its ports and starts forming the ring. -/
  | ringFormation
  /-- R41. A device whose layer frames are delivered and forwarded sends its curtain arrival. -/
  | layerCurtainArrival
  /-- R42. A fully drained device sends its interval arrival. -/
  | layerIntervalArrival
  /-- R423. The link interfaces inject a piece of the own slice clockwise and anticlockwise. -/
  | weightInjection
  /-- R424. A weight frame is taken, delivered locally and forwarded while REMAIN is above 1. -/
  | weightFrameReceive (p : Port)
  /-- R426. A piece's payload is cut into fills and pushed to its ring-feed stream once it can accept. -/
  | feedDelivery (f : Fin 16) (pos : Nat)
  /-- R429. A weight end mark is taken, forwarded and checked against what was received. -/
  | endMarkReceive (p : Port)
  /-- R464. A frame in transit leaves on its output port once the port is free and holds credit. -/
  | frameForward (p : Port)
  /-- R466. After a stomp the good copy of the frame is sent under a new SEQ. -/
  | forwardGoodCopy (p : Port)
  /-- R454. A routed WRITE frame is checked under R417 and delivered as an arrival. -/
  | writeReceive (p : Port)
  /-- R453. A routed ATOMIC frame is delivered as a one-word posted arrival. -/
  | atomicReceive (p : Port)
  /-- R377. A routed SIGNAL frame is translated and increments a virtual counter, or is dropped. -/
  | signalReceive (p : Port)
  /-- R436. A routed MGMT frame of slice 0 is delivered to the firmware, e.g. a relayed packet or its reply. -/
  | mgmtReceive (p : Port)
  /-- R396. An ARRIVE frame is added to the curtain's central counter, or dropped. -/
  | arriveReceive (p : Port)
  /-- R689. The manager counts a member's JOIN once its session completed and its firmware matches. -/
  | joinReceive (p : Port)
  /-- R454. A REJECT answer is matched to the outstanding transfer, stopping its stream with DENIED. -/
  | rejectReceive (p : Port)
  /-- R454. A COMPLETE answer is matched to its outstanding store transfer. -/
  | completeReceive (p : Port)
  /-- R502. A REPAIR frame's piece bytes are delivered to fills not already pushed. -/
  | repairReceive (p : Port)
  /-- R411. A member receives the ready message, applies and forwards it, and reaches stage 3. -/
  | readyReceive (p : Port)
  /-- R396. A member receives a curtain release, raises REL and forwards it. -/
  | releaseReceive (p : Port)
  /-- R398. A member receives an abandonment and cues every watch on REL with ABANDONED. -/
  | abandonReceive (p : Port)
  /-- R587. A relayed packet gets no reply within RELAYTMO and the manager replies TIMEOUT. -/
  | relayTimeout (id : Nat)
  /-- R439. A rising sync edge loads MG_TB_LOAD when ARM is set, or records MG_TB_OFFSET. -/
  | rackSyncEdge
  /-- R445. Setting EN brings a port out of OFF into TRAIN. -/
  | portEnSet (p : Port)
  /-- R445. Clearing EN takes the port to OFF. -/
  | portEnClear (p : Port)
  /-- R448. A port's lanes lock and deskew and it enters OPEN. -/
  | portTrainComplete (p : Port)
  /-- R446. A lane loses signal, lock or alignment and the port goes to TRAIN or HELD. -/
  | laneLoss (p : Port) (lane : Fin 64)
  /-- R687. A HANDSHAKE control frame is taken and advances the mutual-attestation handshake. -/
  | handshakeReceive (p : Port) (payload : List Byte)
  /-- R687. A handshake message does not arrive within 10 ms of the previous one. -/
  | handshakeMsgTimeout (k : Fin 4)
  /-- R688. 100 ms after a failed handshake the handshake restarts. -/
  | handshakeRestart (k : Fin 4)
  /-- R459. A data frame is taken and checked on its raw bits, then accepted, NACKed or discarded. -/
  | dataFrameReceive (p : Port) (frame : List Byte) (check : FrameCheck)
  /-- R458. A frame is checked again on its FEC-corrected bits once its codewords are decoded. -/
  | frameFecCheck (p : Port) (frame : List Byte) (check : FrameCheck) (corrected uncorrectable : Nat)
  /-- R457. An IDLE link control frame is taken. -/
  | idleReceive (p : Port) (frame : List Byte) (check : FrameCheck)
  /-- R460. A NACK makes the sender resend from the named SEQ (go-back-N). -/
  | nackReceive (p : Port) (frame : List Byte) (check : FrameCheck)
  /-- R456. A CREDIT frame returns cumulative credit per channel. -/
  | creditReceive (p : Port) (frame : List Byte) (check : FrameCheck)
  /-- R476. A KEYSWITCH frame makes the receiving end switch to the named key slot. -/
  | keyswitchReceive (p : Port) (frame : List Byte) (check : FrameCheck)
  /-- R463. A PORTSTATE frame drops acknowledged frames of a lost port and releases resends. -/
  | portstateReceive (p : Port) (frame : List Byte) (check : FrameCheck)
  /-- R456. A port begins a data frame when it holds credit for its channel and replay room. -/
  | dataFrameTransmit (p : Port)
  /-- R449. A port with no frame to send sends an IDLE frame. -/
  | idleTransmit (p : Port)
  /-- R460. ACK does not advance for RTO and the sender resends from the oldest frame. -/
  | resendTimeout (p : Port)
  /-- R459. A waiting receiver repeats its NACK once per RTO. -/
  | nackRepeat (p : Port)
  /-- R456. 100 ns after a place is freed the receiver sends a CREDIT frame. -/
  | creditTimer (p : Port)
  /-- R477. 10 µs after KEYSWITCH is sent and received on every port, the old slot is erased. -/
  | oldKeyErase (k : Fin 4)
  /-- R690. A link key from the manager is installed into the unused slot and the switch begins. -/
  | linkKeyInstall (k : Fin 4) (key : BitVec 256) (salt : BitVec 32)
  /-- R481. A write to LK_PORT_VCBUF is staged for the next OPEN, or ignored with CFGERR. -/
  | vcbufWrite (p : Port) (val : Word)
  /-- R494. A loaded shard is decrypted, digest-checked, stamped and marked resident. -/
  | wtLoadComplete (x : Ctx) (shard : BitVec 32) (image : List Byte)
  /-- R504. The firmware takes a halt's page request and starts bringing in the whole shard. -/
  | pageInRequest (i : Nat)
  /-- R504. A page-in passes its digest, the pages become resident and halted streams resume. -/
  | pageInComplete (x : Ctx) (shard : BitVec 32) (image : List Byte)
  /-- R498. A shard check completes; a failure starts a re-fetch. -/
  | shardCheckComplete
  /-- R498. The idle scrub starts checking the resident shard with the oldest check. -/
  | idleScrubCheck
  /-- R499. A re-fetched shard is checked; after 3 failures it becomes BAD. -/
  | refetchComplete (x : Ctx) (shard : BitVec 32) (image : List Byte)
  /-- R503. The manager takes a shard report and completes the pass's command with SHARD. -/
  | shardReportReceive (report : BitVec 128)
  /-- R502. REPAIRWAIT or ENDWAIT passes and a repair request is sent. -/
  | repairWaitExpiry (pos : Nat)
  /-- R502. The injector's firmware resends the whole slice as REPAIR frames. -/
  | repairRequestReceive (chip : BitVec 12) (slice : Byte) (pass : BitVec 16)
  /-- R503. After SHARDTMO the receiver gives up on the pass and reports it. -/
  | shardGiveUp (pos : Nat)
  /-- R507. After the release of pass AT − 1 the old shard's pages are switched to the staged shard. -/
  | replacementSwap (x : Ctx) (shard : BitVec 32)
  /-- R509. With no launch of the context running, a standalone replacement is swapped in. -/
  | standaloneSwap (x : Ctx) (shard : BitVec 32)
  /-- R505. At a point with no kernel running, the firmware reclaims an over-quota context's resources. -/
  | quotaReclaim (x : Ctx)
  /-- R529. A partner's pairing message arrives; agreement enters COMPARING, disagreement ENDED. -/
  | usPairingReceive (prog : BitVec 96) (l : BitVec 32)
  /-- R532. A partner's chain record is matched by cluster and ORD and compared. -/
  | usChainRecordReceive (c : Cl) (record : BitVec 128)
  /-- R536. Beat digests of a diverging chain arrive and the first differing beat is captured. -/
  | usBeatDigestReceive (c : Cl) (ord : BitVec 32) (digests : Option (List (BitVec 32)))
  /-- R534. The partner's per-cluster record counts at launch end reveal MISSING records. -/
  | usRecordCountsReceive (counts : List Nat)
  /-- R539. The partner's end message sends the mode to ENDED with ABANDONED. -/
  | usEndReceive
  /-- R538. A partner is reset, pre-empted or unreachable and the mode enters ENDED. -/
  | usPartnerLost
  /-- R539. A write of 0 to MG_US_CTRL EN ends understudy mode. -/
  | usEnClear
  /-- R544. The intake takes the next sealed packet of a command window and checks it. -/
  | packetIntake (x : Ctx)
  /-- R546. RESTART in MG_CX_INTAKE resets OFFSET and NEXT and clears WEDGED. -/
  | intakeRestart (x : Ctx)
  /-- R590. Setting EN validates the rings and starts the intake from sequence 1. -/
  | mgCxEnSet (x : Ctx) (val : Word)
  /-- R590. Clearing EN stops the intake and discards later replies and events. -/
  | mgCxEnClear (x : Ctx) (val : Word)
  /-- R560. The COAL interval passes and withheld messages are sent as one. -/
  | msixCoalesceExpiry (x : Ctx) (vec : Fin 64)
  /-- R566. CTX_QUERY returns a context's state and use. -/
  | ctxQuery (x : Ctx)
  /-- R568. CTX_ENABLE enables a context with a quota. -/
  | ctxEnable (x : Ctx)
  /-- R571. CTX_DISABLE abandons commands, wipes and frees the context and disables it. -/
  | ctxDisable (x : Ctx)
  /-- R570. QUOTA_SET sets a context's quota, marking it over-quota if cut below use. -/
  | quotaSet (x : Ctx)
  /-- R572. CTX_PREEMPT starts saving the context's state and suspending its commands. -/
  | ctxPreempt (x : Ctx)
  /-- R167. Every wait of the pre-empted clusters has ended and the save is done, so CTX_PREEMPT replies. -/
  | ctxPreemptComplete (x : Ctx)
  /-- R572. CTX_RESUME restores the context and continues its suspended commands. -/
  | ctxResume (x : Ctx)
  /-- R707. POWER_CAP writes PW_CAP and returns the previous cap. -/
  | powerCap (x : Ctx)
  /-- R29. A new effective cap takes effect in the governor within 10 ms. -/
  | capTakesEffect
  /-- R573. MEM_MAP maps and zeroes fresh frames for a range of pages. -/
  | memMap (x : Ctx)
  /-- R573. MEM_UNMAP unmaps, zeroes and frees pages. -/
  | memUnmap (x : Ctx)
  /-- R574. MEM_COPY starts copying bytes between global addresses. -/
  | memCopy (x : Ctx)
  /-- R574. A copy ends and replies OK, PARTIAL or ABANDONED. -/
  | memCopyComplete (x : Ctx) (seq : BitVec 32) (hostData : List Byte) (stoppedAt : Option Nat)
  /-- R574. MEM_FILL starts filling a range with a pattern. -/
  | memFill (x : Ctx)
  /-- R574. A fill ends and replies OK, PARTIAL or ABANDONED. -/
  | memFillComplete (x : Ctx) (seq : BitVec 32) (stoppedAt : Option Nat)
  /-- R575. HOSTWIN_GRANT replaces a host window of the context. -/
  | hostwinGrant (x : Ctx)
  /-- R575. HOSTWIN_REVOKE revokes a host window. -/
  | hostwinRevoke (x : Ctx)
  /-- R575. Every transfer through the revoked window has ended and the command replies. -/
  | hostwinRevokeComplete (x : Ctx) (seq : BitVec 32)
  /-- R601. BAR4_MAP maps BAR4 aperture pages to context pages. -/
  | bar4Map (x : Ctx)
  /-- R576. PROG_LOAD maps, copies and seals a program and computes PROG. -/
  | progLoad (x : Ctx) (hostData : List Byte)
  /-- R576. PROG_UNLOAD removes a program not used by a running launch. -/
  | progUnload (x : Ctx)
  /-- R578. LAUNCH is checked and waits for earlier launches on its clusters. -/
  | launch (x : Ctx)
  /-- R578. Earlier launches have completed; the run block is written and the clusters launched. -/
  | launchStart (x : Ctx) (seq : BitVec 32)
  /-- R579. Every cluster has exited or ended and the launch replies. -/
  | launchComplete (x : Ctx) (seq : BitVec 32)
  /-- R579. A launch's TIMEOUT passes, every cluster is stopped and it replies TIMEOUT. -/
  | launchTimeout (x : Ctx) (seq : BitVec 32)
  /-- R580. LAUNCH_CANCEL stops a launch's clusters and cancels its streams. -/
  | launchCancel (x : Ctx)
  /-- R566. LAUNCH_QUERY returns a launch's state. -/
  | launchQuery (x : Ctx)
  /-- R581. REVOLVE lets the manager release COUNT passes from FIRST. -/
  | revolve (x : Ctx)
  /-- R582. WT_LOAD checks a shard descriptor and starts loading the shard. -/
  | wtLoad (x : Ctx)
  /-- R583. WT_UNLOAD waits for no stream reading the shard. -/
  | wtUnload (x : Ctx)
  /-- R583. No stream reads the shard; its frames are zeroed and freed. -/
  | wtUnloadComplete (x : Ctx) (seq : BitVec 32)
  /-- R583. WT_RESIDE brings a shard in and optionally pins it. -/
  | wtReside (x : Ctx)
  /-- R583. WT_DEMOTE demotes a shard with a backing copy. -/
  | wtDemote (x : Ctx)
  /-- R583. WT_DIGEST returns or recomputes a shard digest. -/
  | wtDigest (x : Ctx)
  /-- R566. WT_QUERY returns a shard's state. -/
  | wtQuery (x : Ctx)
  /-- R584. FLY_DELETE deletes an unused flies image. -/
  | flyDelete (x : Ctx)
  /-- R585. SY_MAP maps virtual counters to zeroed physical counters. -/
  | syMap (x : Ctx)
  /-- R585. SY_UNMAP unmaps counters and abandons their watches. -/
  | syUnmap (x : Ctx)
  /-- R586. SY_SIGNAL increments a virtual counter at device scope. -/
  | sySignal (x : Ctx)
  /-- R586. SY_WATCH registers a host watch whose cue goes to the event ring. -/
  | syWatch (x : Ctx)
  /-- R586. SY_WCANCEL cancels a host watch. -/
  | syWcancel (x : Ctx)
  /-- R566. SY_READ returns a counter's value. -/
  | syRead (x : Ctx)
  /-- R586. SY_PAIR writes a device pair entry of the context. -/
  | syPair (x : Ctx)
  /-- R586. SY_CURTAIN configures a curtain entry. -/
  | syCurtain (x : Ctx)
  /-- R410. RING_DESC accepts or refuses a ring description. -/
  | ringDesc (x : Ctx)
  /-- R420. RT_WRITE writes routing-table entries. -/
  | rtWrite (x : Ctx)
  /-- R419. SLICE_BIND binds or unbinds a slice to a context. -/
  | sliceBind (x : Ctx)
  /-- R587. RELAY sends an inner packet to a worker as management traffic. -/
  | relay (x : Ctx)
  /-- R566. RING_STATUS returns the ring's size, position, pass and joins. -/
  | ringStatus (x : Ctx)
  /-- R566. DEV_STATUS returns stage, role, life-cycle state, temperature, power and capacities. -/
  | devStatus (x : Ctx)
  /-- R588. REG_READ returns a device register value. -/
  | regRead (x : Ctx)
  /-- R588. REG_WRITE writes a device register. -/
  | regWrite (x : Ctx)
  /-- R529. US_PAIR writes MG_US_CTRL and starts or ends understudy pairing. -/
  | usPair (x : Ctx)
  /-- R676. IDENTITY writes the identity and attestation certificates to host memory. -/
  | identity (x : Ctx)
  /-- R678. ATTEST writes a signed attestation report. -/
  | attest (x : Ctx)
  /-- R682. WKEY_INSTALL unwraps and installs a weight key. -/
  | wkeyInstall (x : Ctx) (hostData : List Byte)
  /-- R674. FW_UPDATE verifies an image, writes it to the inactive slot, reads it back and sets PENDING. -/
  | fwUpdate (x : Ctx) (hostData : List Byte)
  /-- R656. LC_QUERY returns the life-cycle state. -/
  | lcQuery (x : Ctx)
  /-- R658. LC_CHANGE verifies its authorisation, commits the new state, replaces the flash key and resets. -/
  | lcChange (x : Ctx) (hostData : List Byte)
  /-- R589. RESET kind 1 replies and then performs a warm reset. -/
  | resetWarm (x : Ctx)
  /-- R650. RESET kind 2 stops a cluster, drains it and starts its wipe. -/
  | resetCluster (x : Ctx)
  /-- R650. A cluster's reset wipe ends and the RESET replies OK. -/
  | clusterWipeComplete (c : Cl)
  /-- R651. RESET kind 3 takes a port to OFF with its laser off. -/
  | resetLink (x : Ctx)
  /-- R651. After at least 1 ms in OFF the reset port retrains if EN is set. -/
  | linkResetOffExpiry (p : Port)
  /-- R593. The PCI Express link trains, retrains or goes down and raises a link event. -/
  | pcieLinkChange (rate : Fin 7) (width : Fin 9) (flit : Bool)
  /-- R609. A configuration request is answered RRS or completed according to the stage. -/
  | configRequest (fn : Fn) (req : CfgReq)
  /-- R599. A host access to BAR0 reaches the MG_CX page, MSI-X table, PC_ registers or read-only view. -/
  | bar0Access (fn : Fn) (off : Nat) (bytes : Nat) (wr : Option Word)
  /-- R600. A host access to BAR2 writes or reads the live command window or a dead region. -/
  | bar2Access (fn : Fn) (off : Nat) (bytes : Nat) (wr : Option (List Byte)) (ide : Bool)
  /-- R601. A host access through BAR4 reaches the home of its mapped page. -/
  | bar4Access (fn : Fn) (off : Nat) (bytes : Nat) (wr : Option (List Byte)) (ide : Bool)
  /-- R596. A write of VF Enable creates or removes the virtual functions. -/
  | vfEnableWrite (val : Bool)
  /-- R596. A write of NumVFs takes effect only while VF Enable is clear. -/
  | numvfsWrite (n : BitVec 16)
  /-- R610. A Function Level Reset resets the function and its context. -/
  | pcieFlr (fn : Fn)
  /-- R649. The context's frames are zeroed and freed after a function-level reset. -/
  | flrZeroingComplete (x : Ctx)
  /-- R611. A function moves between D0 and D3hot, or to D3cold. -/
  | powerStateChange (fn : Fn) (dst : DState)
  /-- R603. A PCI Express error is logged in AER and handled by its class. -/
  | pcieError (fn : Option Fn) (e : PcieError) (header : BitVec 32)
  /-- R604. A device read of host memory gets no completion in time. -/
  | completionTimeout (fn : Fn) (victim : HostRead)
  /-- R608. An IDE integrity failure makes the stream insecure and clears EN of the context. -/
  | ideCheckFailure (fn : Fn)
  /-- R602. Lifting an MSI-X mask sends the pending message. -/
  | msixUnmask (fn : Fn) (vec : Fin 64)
  /-- R605. Setting Bus Master Enable lets the function's held requests proceed. -/
  | busMasterEnable (fn : Fn)
  /-- R679. An SPDM GET_VERSION on the DOE mailbox is answered with version 1.3. -/
  | getVersion (fn : Fn)
  /-- R679. An SPDM GET_CAPABILITIES is answered with the device's capabilities. -/
  | getCapabilities (fn : Fn)
  /-- R679. An SPDM NEGOTIATE_ALGORITHMS is answered with the supported algorithms. -/
  | negotiateAlgorithms (fn : Fn)
  /-- R680. An SPDM CHALLENGE is answered with a signed CHALLENGE_AUTH. -/
  | challenge (fn : Fn) (nonce : BitVec 256)
  /-- R680. An SPDM GET_MEASUREMENTS is answered with signed measurement blocks. -/
  | getMeasurements (fn : Fn) (index : Fin 256) (nonce : BitVec 256)
  /-- R680. An SPDM KEY_EXCHANGE opens a session with a signed response. -/
  | keyExchange (fn : Fn) (reqSession : BitVec 16) (pub : BitVec 776) (hbeat : Bool)
  /-- R679. An SPDM FINISH completes a session. -/
  | finish (fn : Fn) (session : BitVec 32) (mac : BitVec 256)
  /-- R679. An SPDM KEY_UPDATE updates a session's keys. -/
  | keyUpdate (fn : Fn) (session : BitVec 32) (both : Bool)
  /-- R679. An SPDM HEARTBEAT keeps a session alive. -/
  | heartbeat (fn : Fn) (session : BitVec 32)
  /-- R679. An SPDM END_SESSION ends a session. -/
  | endSession (fn : Fn) (session : BitVec 32)
  /-- R607. An SPDM VENDOR_DEFINED_REQUEST carries IDE_KM to install IDE keys. -/
  | vendorDefinedRequest (fn : Fn) (session : BitVec 32) (key : BitVec 256)
  /-- R679. An unsupported SPDM request is answered with ERROR UnsupportedRequest. -/
  | spdmUnsupportedRequest (fn : Fn) (code : Byte)
  /-- R621. A slice issues a request to its controller once it holds a tracker entry. -/
  | hbmRequest (sl : Sl)
  /-- R621. A controller delivers read data or writes the stack, and the tracker entry frees. -/
  | hbmRequestComplete (st : Stk) (i : Nat) (outcome : HbmOutcome)
  /-- R632. The patrol reads the next stack line and writes back a corrected one. -/
  | hbmPatrolRead (st : Stk) (ecc : Ecc)
  /-- R631. A controller refreshes banks at the normal or doubled rate. -/
  | hbmRefresh (st : Stk)
  /-- R633. A stack finishes training, or fails after two retries. -/
  | hbmTrainingComplete (st : Stk) (ok : Bool)
  /-- R634. The zeroing of every stack ends. -/
  | hbmWipeComplete
  /-- R635. A single frame's zeroing ends and it may be mapped. -/
  | frameZeroComplete (frame : Nat)
  /-- R696. Both inputs come into range, straps are sampled and stage 0 begins. -/
  | powerGood (straps : BitVec 5) (fwVerifies : Option BootPick)
  /-- R696. Loss of the 48 V or standby input stops everything outside the standby domain. -/
  | inputLoss (standbyLost : Bool)
  /-- R700. The PLLs lock to the reference and the timebase starts counting from 0. -/
  | pllLock
  /-- R640. Firmware verified and started, clusters and shared cache wiped, stage 1 is entered. -/
  | stage1Enter
  /-- R640. The flies are mounted and the flash key loaded, or the mount fails. -/
  | fliesMountComplete (ok : Bool)
  /-- R641. A stage deadline passes and a start-up event and error record are written. -/
  | stageDeadlineExpiry (n : Fin 4)
  /-- R646. A write of KICK restarts the watchdog period. -/
  | wdogKick (val : Word)
  /-- R646. Two periods pass without a KICK and a warm reset is raised. -/
  | watchdogExpiry
  /-- R644. A falling PERST# edge resets every context in ring roles, or warm-resets a standalone device. -/
  | perstFall
  /-- R758. A rising PERST# edge lets PCI Express link training begin. -/
  | perstRise
  /-- R666. A random-source health test fails, RNGFAIL is set and random consumers wait. -/
  | rngHealthFail
  /-- R666. The health tests pass again and waiting operations proceed. -/
  | rngHealthRecover
  /-- R733. A presented debug token finishes verification; access opens or the token is refused. -/
  | debugTokenVerified
  /-- R735. A write of CLOSE closes debug access and clears halts, breakpoints and ATTACH. -/
  | debugClose
  /-- R730. Setting or clearing FREEZE stops or restarts every counter. -/
  | freezeWrite (on : Bool)
  /-- R742. A read or write of MG_DBG_CDATA accesses a halted core's register. -/
  | mgDbgCdataAccess (wr : Option Word)
  /-- R743. A read or write of MG_DBG_MDATA makes a load or store as the halted core. -/
  | mgDbgMdataAccess (wr : Option Word)
  /-- R729. CLR empties the error log and clears TOTAL and FATAL. -/
  | mgElClr
  /-- R727. The 1 ms merge window ends and one record reports the merged events. -/
  | errorMergeExpiry (i : Nat)
  /-- R747. A cluster makes no progress for HANGT ms and a hang record is written. -/
  | hangDetect (c : Cl)
  /-- R722. An on-die network packet arrives at its stop and is checked for parity. -/
  | networkPacketReceive (i : Nat) (parity : NetParity)
  /-- R761. TRST# low holds the test access port in Test-Logic-Reset. -/
  | jtagTrst
  /-- R736. The EXTEST instruction drives the boundary register when permitted. -/
  | extest (drive : BitVec 64)
  /-- R736. The SAMPLE/PRELOAD instruction samples or preloads the boundary register. -/
  | samplePreload (pins : BitVec 64) (preload : BitVec 64)
  /-- R736. The IDCODE instruction returns 0x1400_813D. -/
  | idcode
  /-- R736. The DBG_STAT instruction returns MG_DBG_STATUS. -/
  | dbgStat
  /-- R736. The DBG_NONCE instruction returns the debug nonce. -/
  | dbgNonce
  /-- R733. The DBG_AUTH instruction presents a debug token for verification at Update-DR. -/
  | dbgAuth (token : List Byte)
  /-- R737. The DBG_REG instruction starts a register access at Update-DR. -/
  | dbgReg (dr : BitVec 96)
  /-- R737. A DBG_REG access completes and STATUS leaves BUSY. -/
  | dbgRegAccessDone
  /-- R736. The BYPASS instruction, or an unlisted one, selects the 1-bit register. -/
  | bypass (bit : Bool)
  /-- R707. Package power is measured every 1 µs and averaged over 100 µs. -/
  | powerSample (vin : Byte) (watts : BitVec 16) (milliamps : BitVec 16)
  /-- R708. Every 10 µs the governor adjusts the core voltage or HBMLIM against the cap. -/
  | governorTick
  /-- R712. Input current above 36 A for 2 µs clamps the core and HBMLIM in hardware. -/
  | overcurrentClamp
  /-- R712. 1 ms after the current falls below 32 A the clamp releases. -/
  | clampRelease
  /-- R713. Current above 36 A for 1 ms despite the clamp opens the 48 V switch. -/
  | inputSwitchOpen
  /-- R713. 1 s after an opening the standby domain closes the switch again. -/
  | inputSwitchClose
  /-- R714. Every 50 µs the sensors are read and thermal rules applied. -/
  | sensorReading (junction : Vector Int 64) (hbmTemps : Vector Int 8) (optics : Vector Int 8)
  /-- R718. Every sensor at 70 °C or below restarts the device with a power-on reset. -/
  | thermalRestart (junction : Vector Int 64) (hbmTemps : Vector Int 8) (optics : Vector Int 8)
  /-- R703. The reference loses edges for 1 µs and the PLLs go to hold-over. -/
  | referenceLoss
  /-- R703. After 100 µs of returned reference the PLLs return to it. -/
  | referenceReturn
  /-- R704. A synthesised domain loses lock and its block stops issuing. -/
  | domainLockLoss (d : Fin 60)
  /-- R704. The domain's PLL relocks and its block continues. -/
  | domainRelock (d : Fin 60)
  /-- R704. A domain not relocked after 10 ms writes a FAULT record. -/
  | relockTimeout (d : Fin 60)
  /-- R763. The management-bus IDENT command returns serial, identity digest, state and stage. -/
  | ident
  /-- R763. The TELEM command returns telemetry and clears the alert. -/
  | telem
  /-- R764. The RACKCAP command writes PW_RACKCAP. -/
  | rackcap (watts : BitVec 16) (pecOk : Bool)
  /-- R764. The RINGDESC command offers a ring description as RING_DESC does. -/
  | ringdesc (desc : BitVec 256) (pecOk : Bool)
  /-- R764. The WARMRST command raises a warm reset. -/
  | warmrst (data : Byte) (pecOk : Bool)
  /-- R763. The REGRD process call returns a permitted register value. -/
  | regrd (addr8 : BitVec 32)
  /-- R763. The NONCE command returns the debug nonce. -/
  | nonce
  /-- R764. BULKBEGIN starts transfer of a recovery image or debug token. -/
  | bulkbegin (obj : Byte) (len : BitVec 32) (pecOk : Bool)
  /-- R764. BULKDATA places bytes of the object at an offset. -/
  | bulkdata (off : BitVec 32) (data : List Byte) (pecOk : Bool)
  /-- R764. BULKEND starts the check of the bulk object. -/
  | bulkend (data : Byte) (pecOk : Bool)
  /-- R673. The bulk object's check ends: a recovery image boots or a token opens access. -/
  | bulkCheckDone
  /-- R763. The STATUS command returns the last write command's status and BUSY. -/
  | status
  /-- R762. The I3C SETDASA command assigns a dynamic address. -/
  | setdasa (addr : BitVec 7)
  /-- R762. The I3C SETAASA command assigns the static address as dynamic. -/
  | setaasa
  /-- R762. The I3C ENTDAA procedure assigns a dynamic address. -/
  | entdaa (addr : BitVec 7)
  /-- R762. GETPID returns the 48-bit provisional ID. -/
  | getpid
  /-- R762. GETBCR returns the bus characteristics register. -/
  | getbcr
  /-- R762. GETDCR returns the device characteristics register. -/
  | getdcr
  /-- R762. GETSTATUS returns the I3C status. -/
  | getstatus
  /-- R762. RSTACT resets the bus target, returning it to SMBus mode. -/
  | rstact
  /-- R765. An Alert Response Address read returns the address and the merged alert cause. -/
  | alertResponse
  /-- R544. A packet whose seal names the expected sequence but whose CRC still fails 100 µs after the seal was seen is answered MALFORMED and skipped. -/
  | intakeSealTimeout (x : Ctx)
  /-- R606. A DOE Discovery request to a function's mailbox is answered with the supported object types. -/
  | doeDiscovery (fn : Fn) (index : Byte)
  /-- R767. The completion of an uncached control-core load from host memory returns its data to the core. -/
  | hostReadCompletion (c : Cl) (data : Word) (fault : Bool)
  /-- R679. An SPDM session with the HBEAT capability whose heartbeat period passes without a message is terminated. -/
  | spdmHeartbeatTimeout (fn : Fn) (session : BitVec 32)
  deriving DecidableEq, Repr

end Sys2Proof
end

