-- ==== Sys2Proof/Decode.lean ====
section
/-! DEFINITION. Sys2Proof/Decode.lean: the command that a word of the opcode table spells. The table of this block gives
no row any bits, so no word spells a command; the byte encodings the spec does give (Ibzar packets, frames, descriptors,
core instructions) are decoded where they are taken in. -/

namespace Sys2Proof

/-- The command a word spells by the table's bits: the table gives none. -/
def decodeTableWord (_nbits _w : Nat) : Option Instr := none

end Sys2Proof
end

