-- ==== Sys2Proof/Config.lean ====
section
/-! DEFINITION. Sys2Proof/Config.lean: what the spec leaves open, or takes from a published algorithm that the model
does not compute: constants without a body, so that nothing proved can rest on their values. -/

namespace Sys2Proof

/-- Free value n: a value that the spec leaves open (assumption 5). -/
opaque Config.freeValue : Nat → BitVec 64

/-- R666: draw n of the random source (assumption 5). -/
opaque Config.random : Nat → BitVec 256

/-- R20: SHA3-256 of a byte string (assumption 16). -/
opaque Config.sha3 : List Byte → BitVec 256

/-- R663, R664: whether a signature pair over the first bytes verifies under a root or owner key (assumption 16). -/
opaque Config.verify : List Byte → List Byte → Bool

/-- R675 to R680: the signature pair of the device's key pair n over the given bytes; for the attestation pair they begin with
what it is derived from (assumption 16). -/
opaque Config.sign : Nat → List Byte → List Byte

/-- R476, R494, R682: authenticated decryption of bytes under a key and nonce: none if the tag fails
(assumption 16). -/
opaque Config.open_ : BitVec 256 → List Byte → List Byte → Option (List Byte)

/-- R476: authenticated encryption of bytes under a key and nonce (assumption 16). -/
opaque Config.seal : BitVec 256 → List Byte → List Byte → List Byte

/-- R675, R679, R682: a key derived from a number naming its use and from bytes (assumption 16). -/
opaque Config.derive : Nat → List Byte → BitVec 256

/-- R664, R665: the public keys of the device's key pair n derived for the given bytes (assumption 16). -/
opaque Config.pub : Nat → List Byte → List Byte

/-- R668: bytes 0 to 63 of the firmware image shipped in slot A (0) or B (1) (assumption 14). -/
opaque Config.shipped : Nat → List Byte

/-- R662, R677: fused values by index: root digests 0 to 3, owner digest 4, serial 5, unique secret 6; and the digest of the
Gorvas ROM, 7; the PCI Express Subsystem ID, 8; the I3C device characteristics, 9 (assumption 14). -/
opaque Config.fuse : Nat → BitVec 256

end Sys2Proof
end

