-- ==== Sys2Proof/Machine/Bits.lean ====
section
/-! DEFINITION. Sys2Proof/Machine/Bits.lean: bit fields, byte order and the ordered association lists in which every
sparse store of the model is held. -/

namespace Sys2Proof.Machine

/-- Bits [hi:lo] of a natural number (R4). -/
def bits (w hi lo : Nat) : Nat := (w / 2 ^ lo) % 2 ^ (hi + 1 - lo)

/-- Bit n of a natural number. -/
def bit (w n : Nat) : Bool := w / 2 ^ n % 2 == 1

/-- 1 or 0. -/
def b2n (b : Bool) : Nat := if b then 1 else 0

/-- v placed at bits [hi:lo], cut to the field. -/
def place (hi lo v : Nat) : Nat := (v % 2 ^ (hi + 1 - lo)) * 2 ^ lo

/-- w with bits [hi:lo] replaced by v. -/
def setBits (w hi lo v : Nat) : Nat := w - bits w hi lo * 2 ^ lo + place hi lo v

/-- A number as a 64-bit word. -/
def word (n : Nat) : Word := BitVec.ofNat 64 n

/-- The signed value of the low n bits. -/
def sgn (n v : Nat) : Int :=
  let u := v % 2 ^ n
  if n ≠ 0 ∧ u ≥ 2 ^ (n - 1) then (u : Int) - 2 ^ n else u

/-- An integer as n bits of two's complement. -/
def wrapInt (n : Nat) (i : Int) : Nat := (i % (2 ^ n : Nat)).toNat

/-- Little-endian value of bytes (R3). -/
def leNat : List Byte → Nat
  | [] => 0
  | b :: bs => b.toNat + 256 * leNat bs

/-- n little-endian bytes of a value (R3). -/
def leBytes : Nat → Nat → List Byte
  | 0, _ => []
  | n + 1, v => BitVec.ofNat 8 v :: leBytes n (v / 256)

/-- k bytes from offset off of a byte list; bytes past its end read zero. -/
def sliceB (bs : List Byte) (off k : Nat) : List Byte :=
  let t := (bs.drop off).take k
  t ++ List.replicate (k - t.length) 0

/-- The little-endian field of k bytes at offset off. -/
def fieldB (bs : List Byte) (off k : Nat) : Nat := leNat (sliceB bs off k)

/-- The numbers lo, lo + 1, …, n of them. -/
def upFrom : Nat → Nat → List Nat
  | _, 0 => []
  | lo, n + 1 => lo :: upFrom (lo + 1) n

/-! ### Ordered association lists
Keys strictly rise and no entry holds the default, so equal stores are equal lists. -/

/-- The value stored at key k, or d. -/
def amGet {α : Type} (d : α) : List (Nat × α) → Nat → α
  | [], _ => d
  | (j, v) :: t, k => if j = k then v else amGet d t k

/-- Remove key k. -/
def amDel {α : Type} : List (Nat × α) → Nat → List (Nat × α)
  | [], _ => []
  | (j, v) :: t, k => if j = k then amDel t k else (j, v) :: amDel t k

/-- Insert (k, v) in key order, replacing an entry at k. -/
def amIns {α : Type} : List (Nat × α) → Nat → α → List (Nat × α)
  | [], k, v => [(k, v)]
  | (j, u) :: t, k, v =>
    if k < j then (k, v) :: (j, u) :: t
    else if k = j then (k, v) :: t
    else (j, u) :: amIns t k v

/-- Store v at key k; storing the default removes the entry. -/
def amSet {α : Type} [DecidableEq α] (d : α) (m : List (Nat × α)) (k : Nat) (v : α) : List (Nat × α) :=
  if v = d then amDel m k else amIns m k v

/-- Remove every key of [lo, hi). -/
def amErase {α : Type} (m : List (Nat × α)) (lo hi : Nat) : List (Nat × α) :=
  m.filter (fun p => decide (p.1 < lo) || decide (hi ≤ p.1))

/-- The keys strictly rise. -/
def amSorted {α : Type} : List (Nat × α) → Bool
  | [] => true
  | [_] => true
  | (j, _) :: (k, v) :: t => decide (j < k) && amSorted ((k, v) :: t)

/-- Canonical form: the keys strictly rise and no entry holds the default. -/
def amWf {α : Type} [DecidableEq α] (d : α) (m : List (Nat × α)) : Bool :=
  amSorted m && m.all (fun p => decide (p.2 ≠ d))

/-- Store a list of values at consecutive keys. -/
def amSetMany {α : Type} [DecidableEq α] (d : α) (m : List (Nat × α)) : Nat → List α → List (Nat × α)
  | _, [] => m
  | k, v :: vs => amSetMany d (amSet d m k v) (k + 1) vs

/-- n consecutive values from key k. -/
def amGetMany {α : Type} (d : α) (m : List (Nat × α)) (k n : Nat) : List α :=
  (upFrom k n).map (amGet d m)

/-! ### Sets of numbers, rising without repeats -/

/-- Insert k. -/
def nsIns : List Nat → Nat → List Nat
  | [], k => [k]
  | j :: t, k => if k < j then k :: j :: t else if k = j then j :: t else j :: nsIns t k

/-- Remove k. -/
def nsDel (m : List Nat) (k : Nat) : List Nat := m.filter (· ≠ k)

/-- Keep the first n elements that satisfy p removed; answer what is left. -/
def dropFirst {α : Type} (p : α → Bool) : List α → List α
  | [] => []
  | a :: t => if p a then t else a :: dropFirst p t

/-- Replace the first element that satisfies p. -/
def updFirst {α : Type} (p : α → Bool) (f : α → α) : List α → List α
  | [] => []
  | a :: t => if p a then f a :: t else a :: updFirst p f t

/-- Ceiling of log2 for alignment checks and the like: n is a multiple of k (every n is a multiple of 0 only if 0). -/
def multipleOf (n k : Nat) : Bool := n % k == 0

end Sys2Proof.Machine
end

