-- ==== Sys2Proof/Machine/RegMap.lean ====
section
/-! DEFINITION. Sys2Proof/Machine/RegMap.lean: every register's address, and the field map its rule gives it: bits,
access code (R11), reset value (R15) and the encodings that are not reserved (R14). -/

namespace Sys2Proof.Machine

/-- R11: the access codes (no register of this device uses RL). -/
inductive Acc
  | ro | rw | wo | w1c
  deriving DecidableEq, Repr

/-- A field of a register: bits [hi:lo], access, reset value, and the least and greatest value it accepts (R14). -/
structure RField where
  hi   : Nat
  lo   : Nat
  acc  : Acc
  rst  : Nat
  okLo : Nat
  okHi : Nat
  deriving DecidableEq, Repr

/-- A register, or a row of like registers: first address, how many, how far apart, and the field map. -/
structure RegRow where
  addr   : Nat
  count  : Nat
  stride : Nat
  fields : List RField
  deriving DecidableEq, Repr

/-- R135: the field map of every counter register. -/
def counterFields : List RField := [⟨47, 0, .rw, 0, 0, 0xFFFFFFFFFFFF⟩]

def CL_CORE_CTRL : Nat := 0x0
def CL_CORE_STATUS : Nat := 0x8
def CL_CORE_ENTRY : Nat := 0x10
def CL_CORE_ARG : Nat := 0x18
def CL_CORE_LAUNCH : Nat := 0x20
def CL_CORE_STACK : Nat := 0x28
def CL_CORE_CNT_INSTR : Nat := 0x80
def CL_CORE_CNT_MISPRED : Nat := 0x88
def CL_CORE_CNT_QSTALL : Nat := 0x90
def CL_CORE_CNT_RDSTALL : Nat := 0x98
def CL_CORE_CNT_WAIT : Nat := 0xa0
def CL_CORE_CNT_ICMISS : Nat := 0xa8
def CL_Q_ROUTE : Nat := 0x100
def CL_Q_SIG : Nat := 0x108
def CL_Q_STATUS : Nat := 0x110
def CL_Q_ERR : Nat := 0x118
def CL_Q_PUSH : Nat := 0x120
def CL_Q_POP : Nat := 0x160
def CL_Q_RESPOP : Nat := 0x1a0
def CL_EI_INVBASE : Nat := 0x1c0
def CL_EI_INVLEN : Nat := 0x1c8
def CL_FLT_INFO : Nat := 0x200
def CL_FLT_INSN : Nat := 0x208
def CL_FLT_RS1 : Nat := 0x210
def CL_FLT_RS2 : Nat := 0x218
def CL_STEP_RATE : Nat := 0x300
def CL_SY_CTRL : Nat := 0x400
def CL_SY_STATUS : Nat := 0x408
def CL_SY_SEL : Nat := 0x410
def CL_SY_VAL : Nat := 0x418
def CL_SY_SETV : Nat := 0x420
def CL_SY_ERR : Nat := 0x428
def CL_SY_WCANCEL : Nat := 0x430
def CL_SY_PAIR : Nat := 0x440
def CL_SY_CUE : Nat := 0x480
def CL_SY_CNT_SIG : Nat := 0x500
def CL_SY_CNT_CUE : Nat := 0x508
def CL_SY_CNT_WAIT : Nat := 0x510
def CL_SY_CNT_REFUSED : Nat := 0x518
def ST_CTRL : Nat := 0x600
def ST_STATUS : Nat := 0x608
def ST_CANCEL : Nat := 0x610
def ST_STALL : Nat := 0x618
def ST_SLOT : Nat := 0x620
def ST_CNT_FBYTES : Nat := 0x680
def ST_CNT_SBYTES : Nat := 0x688
def ST_CNT_XFER : Nat := 0x690
def ST_CNT_XWAIT : Nat := 0x698
def ST_CNT_HALT : Nat := 0x6a0
def ST_CNT_LAG : Nat := 0x6a8
def ST_CNT_STALL : Nat := 0x6b0
def ST_CNT_POISON : Nat := 0x6b8
def ST_CNT_XTMO : Nat := 0x6c0
def CL_SP_CTRL : Nat := 0x700
def CL_SP_STATUS : Nat := 0x708
def CL_SP_ERR : Nat := 0x710
def CL_SP_SCRUB : Nat := 0x718
def CL_SP_OPDST : Nat := 0x720
def CL_SP_OPSRC : Nat := 0x728
def CL_SP_OPVAL : Nat := 0x730
def CL_SP_OPCTRL : Nat := 0x738
def CL_SP_WIN : Nat := 0x740
def CL_CC_CTRL : Nat := 0x780
def CL_SP_WINREJ : Nat := 0x788
def CL_SP_CNT_CE : Nat := 0x7a0
def CL_SP_CNT_UE : Nat := 0x7a8
def CL_SP_CNT_ARRIVE : Nat := 0x7b0
def CL_SP_CNT_WINREJ : Nat := 0x7b8
def CL_CC_CNT_HIT : Nat := 0x7c0
def CL_CC_CNT_MISS : Nat := 0x7c8
def CL_CC_CNT_WB : Nat := 0x7d0
def CL_CC_CNT_PFISS : Nat := 0x7d8
def CL_CC_CNT_PFUSED : Nat := 0x7e0
def CL_CC_CNT_PFLATE : Nat := 0x7e8
def CL_CC_CNT_PFUNUSED : Nat := 0x7f0
def CL_CC_CNT_INV : Nat := 0x7f8
def CL_MX_CTRL : Nat := 0x800
def CL_MX_STATUS : Nat := 0x808
def CL_MX_CKINFO : Nat := 0x810
def CL_MX_PEAK : Nat := 0x818
def CL_MX_GAUGE : Nat := 0x820
def CL_MX_CNT_ROWS : Nat := 0x840
def CL_MX_CNT_BUSY : Nat := 0x848
def CL_MX_CNT_STARVE : Nat := 0x850
def CL_MX_CNT_BP : Nat := 0x858
def CL_MX_CNT_HOLD : Nat := 0x860
def CL_MX_CNT_HAZARD : Nat := 0x868
def CL_MX_CNT_CKERR : Nat := 0x870
def CL_MX_CNT_UNCHK : Nat := 0x878
def CL_TILE_CFG : Nat := 0x900
def CL_TILE_LDERR : Nat := 0x940
def CL_TILE_CTRL : Nat := 0x948
def CL_ACC_ERR : Nat := 0x950
def CL_TILE_CNT_LDROWS : Nat := 0x960
def CL_TILE_CNT_LDFAULT : Nat := 0x968
def CL_TILE_CNT_WAIT : Nat := 0x970
def CL_TILE_CNT_CE : Nat := 0x978
def CL_TILE_CNT_UE : Nat := 0x980
def CL_ACC_CNT_CE : Nat := 0x988
def CL_ACC_CNT_UE : Nat := 0x990
def CL_VX_CTRL : Nat := 0xa00
def CL_VX_STATUS : Nat := 0xa08
def CL_VX_SEED : Nat := 0xa10
def CL_VX_CNT_CHAINS : Nat := 0xa40
def CL_VX_CNT_BEATS : Nat := 0xa48
def CL_VX_CNT_HOLD : Nat := 0xa50
def CL_VX_CNT_WAIT : Nat := 0xa58
def CL_VX_CNT_FLAGGED : Nat := 0xa60
def CL_VX_CNT_REFUSED : Nat := 0xa68
def CL_VX_CNT_UE : Nat := 0xa70
def CL_PROP : Nat := 0x1000

/-- The registers of a cluster block by offset (R134, R171, R211, R256, R299, R344, R401), part 0. -/
def clRegRows0 : List RegRow := [
  ⟨CL_CORE_CTRL, 1, 0x8, [⟨0, 0, .rw, 0, 0, 1⟩, ⟨1, 1, .rw, 0, 0, 1⟩, ⟨2, 2, .wo, 0, 0, 1⟩, ⟨3, 3, .wo, 0, 0, 1⟩, ⟨4, 4, .wo, 0, 0, 1⟩]⟩,
  ⟨CL_CORE_STATUS, 1, 0x8, [⟨1, 0, .ro, 0, 0, 3⟩, ⟨2, 2, .ro, 0, 0, 1⟩, ⟨3, 3, .ro, 1, 0, 1⟩, ⟨7, 4, .ro, 0, 0, 15⟩, ⟨63, 32, .ro, 0, 0, 4294967295⟩]⟩,
  ⟨CL_CORE_ENTRY, 1, 0x8, [⟨63, 0, .rw, 0, 0, 18446744073709551615⟩]⟩,
  ⟨CL_CORE_ARG, 1, 0x8, [⟨63, 0, .rw, 0, 0, 18446744073709551615⟩]⟩,
  ⟨CL_CORE_LAUNCH, 1, 0x8, [⟨15, 0, .rw, 0, 0, 65535⟩, ⟨31, 16, .rw, 0, 0, 65535⟩]⟩,
  ⟨CL_CORE_STACK, 1, 0x8, [⟨63, 0, .rw, 0, 0, 18446744073709551615⟩]⟩,
  ⟨CL_CORE_CNT_INSTR, 1, 0x8, counterFields⟩,
  ⟨CL_CORE_CNT_MISPRED, 1, 0x8, counterFields⟩,
  ⟨CL_CORE_CNT_QSTALL, 1, 0x8, counterFields⟩,
  ⟨CL_CORE_CNT_RDSTALL, 1, 0x8, counterFields⟩,
  ⟨CL_CORE_CNT_WAIT, 1, 0x8, counterFields⟩,
  ⟨CL_CORE_CNT_ICMISS, 1, 0x8, counterFields⟩,
  ⟨CL_Q_ROUTE, 1, 0x8, [⟨2, 0, .rw, 0, 0, 7⟩, ⟨6, 4, .rw, 1, 0, 7⟩, ⟨10, 8, .rw, 2, 0, 7⟩, ⟨14, 12, .rw, 3, 0, 7⟩, ⟨18, 16, .rw, 4, 0, 7⟩, ⟨22, 20, .rw, 5, 0, 7⟩]⟩,
  ⟨CL_Q_SIG, 1, 0x8, [⟨5, 0, .rw, 0, 0, 63⟩, ⟨13, 8, .rw, 0, 0, 63⟩, ⟨21, 16, .rw, 0, 0, 63⟩, ⟨29, 24, .rw, 0, 0, 63⟩, ⟨37, 32, .rw, 0, 0, 63⟩, ⟨45, 40, .rw, 0, 0, 63⟩, ⟨53, 48, .rw, 0, 0, 63⟩, ⟨61, 56, .rw, 0, 0, 63⟩, ⟨6, 6, .rw, 0, 0, 1⟩, ⟨14, 14, .rw, 0, 0, 1⟩, ⟨22, 22, .rw, 0, 0, 1⟩, ⟨30, 30, .rw, 0, 0, 1⟩, ⟨38, 38, .rw, 0, 0, 1⟩, ⟨46, 46, .rw, 0, 0, 1⟩, ⟨54, 54, .rw, 0, 0, 1⟩, ⟨62, 62, .rw, 0, 0, 1⟩]⟩,
  ⟨CL_Q_STATUS, 1, 0x8, [⟨4, 0, .ro, 0, 0, 31⟩, ⟨9, 5, .ro, 0, 0, 31⟩, ⟨14, 10, .ro, 0, 0, 31⟩, ⟨19, 15, .ro, 0, 0, 31⟩, ⟨24, 20, .ro, 0, 0, 31⟩, ⟨29, 25, .ro, 0, 0, 31⟩, ⟨34, 30, .ro, 0, 0, 31⟩, ⟨39, 35, .ro, 0, 0, 31⟩, ⟨43, 40, .ro, 0, 0, 15⟩]⟩,
  ⟨CL_Q_ERR, 1, 0x8, [⟨7, 0, .w1c, 0, 0, 255⟩, ⟨8, 8, .w1c, 0, 0, 1⟩]⟩,
  ⟨CL_Q_PUSH, 8, 0x8, [⟨5, 0, .wo, 0, 0, 63⟩, ⟨31, 8, .wo, 0, 0, 16777215⟩]⟩,
  ⟨CL_Q_POP, 8, 0x8, [⟨31, 0, .ro, 0, 0, 4294967295⟩, ⟨32, 32, .ro, 0, 0, 1⟩]⟩,
  ⟨CL_Q_RESPOP, 1, 0x8, [⟨31, 0, .ro, 0, 0, 4294967295⟩, ⟨32, 32, .ro, 0, 0, 1⟩]⟩,
  ⟨CL_EI_INVBASE, 1, 0x8, [⟨63, 0, .rw, 0, 0, 18446744073709551615⟩]⟩,
  ⟨CL_EI_INVLEN, 1, 0x8, [⟨63, 0, .rw, 0, 0, 18446744073709551615⟩]⟩,
  ⟨CL_FLT_INFO, 1, 0x8, [⟨2, 0, .ro, 0, 0, 7⟩, ⟨3, 3, .w1c, 0, 0, 1⟩, ⟨8, 4, .w1c, 0, 0, 31⟩, ⟨31, 16, .ro, 0, 0, 65535⟩, ⟨47, 32, .ro, 0, 0, 65535⟩, ⟨63, 48, .ro, 0, 0, 65535⟩]⟩,
  ⟨CL_FLT_INSN, 1, 0x8, [⟨63, 0, .ro, 0, 0, 18446744073709551615⟩]⟩,
  ⟨CL_FLT_RS1, 1, 0x8, [⟨63, 0, .ro, 0, 0, 18446744073709551615⟩]⟩,
  ⟨CL_FLT_RS2, 1, 0x8, [⟨63, 0, .ro, 0, 0, 18446744073709551615⟩]⟩,
  ⟨CL_STEP_RATE, 1, 0x8, [⟨15, 0, .ro, 0, 0, 65535⟩, ⟨31, 16, .ro, 0xffff, 0, 65535⟩, ⟨47, 32, .ro, 0, 0, 65535⟩, ⟨48, 48, .ro, 0, 0, 1⟩]⟩,
  ⟨CL_SY_CTRL, 1, 0x8, [⟨15, 0, .rw, 0, 0, 65535⟩]⟩,
  ⟨CL_SY_STATUS, 1, 0x8, [⟨31, 0, .ro, 0, 0, 4294967295⟩, ⟨32, 32, .ro, 0, 0, 1⟩, ⟨33, 33, .w1c, 0, 0, 1⟩]⟩,
  ⟨CL_SY_SEL, 1, 0x8, [⟨5, 0, .rw, 0, 0, 63⟩]⟩,
  ⟨CL_SY_VAL, 1, 0x8, [⟨47, 0, .ro, 0, 0, 281474976710655⟩]⟩,
  ⟨CL_SY_SETV, 1, 0x8, [⟨47, 0, .wo, 0, 0, 281474976710655⟩, ⟨48, 48, .wo, 0, 0, 1⟩]⟩,
  ⟨CL_SY_ERR, 1, 0x8, [⟨5, 0, .ro, 0, 0, 63⟩, ⟨7, 6, .ro, 0, 0, 3⟩, ⟨13, 8, .ro, 0, 0, 63⟩, ⟨14, 14, .w1c, 0, 0, 1⟩, ⟨15, 15, .w1c, 0, 0, 1⟩]⟩,
  ⟨CL_SY_WCANCEL, 1, 0x8, [⟨3, 0, .wo, 0, 0, 15⟩, ⟨4, 4, .wo, 0, 0, 1⟩]⟩,
  ⟨CL_SY_PAIR, 8, 0x8, [⟨5, 0, .rw, 0, 0, 63⟩, ⟨11, 6, .rw, 0, 0, 63⟩, ⟨12, 12, .rw, 0, 0, 1⟩]⟩,
  ⟨CL_SY_CUE, 16, 0x8, [⟨50, 0, .ro, 0, 0, 2251799813685247⟩]⟩,
  ⟨CL_SY_CNT_SIG, 1, 0x8, counterFields⟩,
  ⟨CL_SY_CNT_CUE, 1, 0x8, counterFields⟩,
  ⟨CL_SY_CNT_WAIT, 1, 0x8, counterFields⟩,
  ⟨CL_SY_CNT_REFUSED, 1, 0x8, counterFields⟩,
  ⟨ST_CTRL, 1, 0x8, [⟨15, 0, .rw, 64, 0, 65535⟩, ⟨31, 16, .rw, 0x1388, 1, 65535⟩]⟩]

/-- The registers of a cluster block by offset (R134, R171, R211, R256, R299, R344, R401), part 1. -/
def clRegRows1 : List RegRow := [
  ⟨ST_STATUS, 1, 0x8, [⟨3, 0, .ro, 0, 0, 15⟩, ⟨7, 4, .ro, 0, 0, 15⟩, ⟨15, 8, .ro, 0, 0, 255⟩, ⟨31, 16, .ro, 0, 0, 65535⟩, ⟨47, 32, .ro, 0, 0, 65535⟩]⟩,
  ⟨ST_CANCEL, 1, 0x8, [⟨15, 0, .wo, 0, 0, 65535⟩, ⟨16, 16, .wo, 0, 0, 1⟩]⟩,
  ⟨ST_STALL, 1, 0x8, [⟨15, 0, .ro, 0, 0, 65535⟩, ⟨21, 16, .ro, 0, 0, 63⟩, ⟨22, 22, .w1c, 0, 0, 1⟩, ⟨23, 23, .w1c, 0, 0, 1⟩]⟩,
  ⟨ST_SLOT, 8, 0x8, [⟨15, 0, .ro, 0, 0, 65535⟩, ⟨18, 16, .ro, 0, 0, 7⟩, ⟨31, 19, .ro, 0, 0, 8191⟩]⟩,
  ⟨ST_CNT_FBYTES, 1, 0x8, counterFields⟩,
  ⟨ST_CNT_SBYTES, 1, 0x8, counterFields⟩,
  ⟨ST_CNT_XFER, 1, 0x8, counterFields⟩,
  ⟨ST_CNT_XWAIT, 1, 0x8, counterFields⟩,
  ⟨ST_CNT_HALT, 1, 0x8, counterFields⟩,
  ⟨ST_CNT_LAG, 1, 0x8, counterFields⟩,
  ⟨ST_CNT_STALL, 1, 0x8, counterFields⟩,
  ⟨ST_CNT_POISON, 1, 0x8, counterFields⟩,
  ⟨ST_CNT_XTMO, 1, 0x8, counterFields⟩,
  ⟨CL_SP_CTRL, 1, 0x8, [⟨0, 0, .rw, 1, 0, 1⟩]⟩,
  ⟨CL_SP_STATUS, 1, 0x8, [⟨0, 0, .ro, 0, 0, 1⟩, ⟨1, 1, .ro, 0, 0, 1⟩, ⟨3, 3, .w1c, 0, 0, 1⟩, ⟨4, 4, .w1c, 0, 0, 1⟩, ⟨5, 5, .w1c, 0, 0, 1⟩, ⟨31, 16, .ro, 0, 0, 65535⟩]⟩,
  ⟨CL_SP_ERR, 1, 0x8, [⟨15, 0, .ro, 0, 0, 65535⟩, ⟨17, 16, .ro, 0, 0, 3⟩, ⟨18, 18, .w1c, 0, 0, 1⟩, ⟨19, 19, .w1c, 0, 0, 1⟩]⟩,
  ⟨CL_SP_SCRUB, 1, 0x8, [⟨15, 0, .ro, 0, 0, 65535⟩, ⟨47, 16, .ro, 0, 0, 4294967295⟩]⟩,
  ⟨CL_SP_OPDST, 1, 0x8, [⟨18, 3, .rw, 0, 0, 65535⟩]⟩,
  ⟨CL_SP_OPSRC, 1, 0x8, [⟨18, 3, .rw, 0, 0, 65535⟩]⟩,
  ⟨CL_SP_OPVAL, 1, 0x8, [⟨63, 0, .rw, 0, 0, 18446744073709551615⟩]⟩,
  ⟨CL_SP_OPCTRL, 1, 0x8, [⟨19, 3, .rw, 0, 0, 131071⟩, ⟨20, 20, .rw, 0, 0, 1⟩, ⟨26, 21, .rw, 0, 0, 63⟩, ⟨27, 27, .rw, 0, 0, 1⟩, ⟨28, 28, .wo, 0, 0, 1⟩]⟩,
  ⟨CL_SP_WIN, 8, 0x8, [⟨12, 0, .rw, 0, 0, 8191⟩, ⟨26, 13, .rw, 0, 0, 16383⟩, ⟨32, 27, .rw, 0, 0, 63⟩, ⟨33, 33, .rw, 0, 0, 1⟩, ⟨34, 34, .rw, 0, 0, 1⟩, ⟨46, 35, .rw, 0, 0, 4095⟩, ⟨47, 47, .rw, 0, 0, 1⟩]⟩,
  ⟨CL_CC_CTRL, 1, 0x8, [⟨3, 0, .rw, 4, 0, 15⟩]⟩,
  ⟨CL_SP_WINREJ, 1, 0x8, [⟨11, 0, .ro, 0, 0, 4095⟩, ⟨30, 12, .ro, 0, 0, 524287⟩, ⟨31, 31, .ro, 0, 0, 1⟩, ⟨32, 32, .w1c, 0, 0, 1⟩, ⟨33, 33, .w1c, 0, 0, 1⟩]⟩,
  ⟨CL_SP_CNT_CE, 1, 0x8, counterFields⟩,
  ⟨CL_SP_CNT_UE, 1, 0x8, counterFields⟩,
  ⟨CL_SP_CNT_ARRIVE, 1, 0x8, counterFields⟩,
  ⟨CL_SP_CNT_WINREJ, 1, 0x8, counterFields⟩,
  ⟨CL_CC_CNT_HIT, 1, 0x8, counterFields⟩,
  ⟨CL_CC_CNT_MISS, 1, 0x8, counterFields⟩,
  ⟨CL_CC_CNT_WB, 1, 0x8, counterFields⟩,
  ⟨CL_CC_CNT_PFISS, 1, 0x8, counterFields⟩,
  ⟨CL_CC_CNT_PFUSED, 1, 0x8, counterFields⟩,
  ⟨CL_CC_CNT_PFLATE, 1, 0x8, counterFields⟩,
  ⟨CL_CC_CNT_PFUNUSED, 1, 0x8, counterFields⟩,
  ⟨CL_CC_CNT_INV, 1, 0x8, counterFields⟩,
  ⟨CL_MX_CTRL, 1, 0x8, [⟨0, 0, .rw, 0, 0, 1⟩, ⟨1, 1, .wo, 0, 0, 1⟩]⟩,
  ⟨CL_MX_STATUS, 1, 0x8, [⟨0, 0, .ro, 0, 0, 1⟩, ⟨1, 1, .ro, 0, 0, 1⟩, ⟨2, 2, .ro, 0, 0, 1⟩, ⟨3, 3, .ro, 0, 0, 1⟩, ⟨4, 4, .w1c, 0, 0, 1⟩, ⟨5, 5, .w1c, 0, 0, 1⟩, ⟨6, 6, .ro, 0, 0, 1⟩, ⟨7, 7, .ro, 0, 0, 1⟩, ⟨9, 8, .ro, 0, 0, 3⟩, ⟨10, 10, .ro, 0, 0, 1⟩, ⟨31, 16, .ro, 0, 0, 65535⟩, ⟨47, 32, .ro, 0, 0, 65535⟩]⟩,
  ⟨CL_MX_CKINFO, 1, 0x8, [⟨15, 0, .ro, 0, 0, 65535⟩, ⟨26, 16, .ro, 0, 0, 2047⟩, ⟨33, 27, .ro, 0, 0, 127⟩, ⟨36, 34, .ro, 0, 0, 7⟩, ⟨37, 37, .ro, 0, 0, 1⟩, ⟨38, 38, .ro, 0, 0, 1⟩]⟩,
  ⟨CL_MX_PEAK, 1, 0x8, [⟨15, 0, .ro, 0, 0, 65535⟩, ⟨31, 16, .ro, 0, 0, 65535⟩, ⟨32, 32, .ro, 0, 0, 1⟩, ⟨33, 33, .ro, 0, 0, 1⟩, ⟨34, 34, .ro, 0, 0, 1⟩, ⟨63, 48, .ro, 0, 0, 65535⟩]⟩]

/-- The registers of a cluster block by offset (R134, R171, R211, R256, R299, R344, R401), part 2. -/
def clRegRows2 : List RegRow := [
  ⟨CL_MX_GAUGE, 1, 0x8, [⟨9, 0, .ro, 0, 0, 1023⟩, ⟨14, 10, .ro, 0, 0, 31⟩, ⟨15, 15, .ro, 0, 0, 1⟩]⟩,
  ⟨CL_MX_CNT_ROWS, 1, 0x8, counterFields⟩,
  ⟨CL_MX_CNT_BUSY, 1, 0x8, counterFields⟩,
  ⟨CL_MX_CNT_STARVE, 1, 0x8, counterFields⟩,
  ⟨CL_MX_CNT_BP, 1, 0x8, counterFields⟩,
  ⟨CL_MX_CNT_HOLD, 1, 0x8, counterFields⟩,
  ⟨CL_MX_CNT_HAZARD, 1, 0x8, counterFields⟩,
  ⟨CL_MX_CNT_CKERR, 1, 0x8, counterFields⟩,
  ⟨CL_MX_CNT_UNCHK, 1, 0x8, counterFields⟩,
  ⟨CL_TILE_CFG, 8, 0x8, [⟨2, 0, .ro, 0, 0, 7⟩, ⟨6, 3, .ro, 0, 0, 15⟩, ⟨7, 7, .ro, 0, 0, 1⟩, ⟨8, 8, .ro, 0, 0, 1⟩, ⟨19, 9, .ro, 0, 0, 2047⟩, ⟨30, 20, .ro, 0, 0, 2047⟩, ⟨31, 31, .ro, 0, 0, 1⟩, ⟨32, 32, .ro, 0, 0, 1⟩, ⟨33, 33, .w1c, 0, 0, 1⟩]⟩,
  ⟨CL_TILE_LDERR, 1, 0x8, [⟨2, 0, .ro, 0, 0, 7⟩, ⟨12, 3, .ro, 0, 0, 1023⟩, ⟨14, 13, .ro, 0, 0, 3⟩, ⟨15, 15, .w1c, 0, 0, 1⟩, ⟨16, 16, .w1c, 0, 0, 1⟩]⟩,
  ⟨CL_TILE_CTRL, 1, 0x8, [⟨0, 0, .rw, 0, 0, 1⟩, ⟨1, 1, .rw, 0, 0, 1⟩]⟩,
  ⟨CL_ACC_ERR, 1, 0x8, [⟨6, 0, .ro, 0, 0, 127⟩, ⟨16, 7, .ro, 0, 0, 1023⟩, ⟨17, 17, .ro, 0, 0, 1⟩, ⟨18, 18, .w1c, 0, 0, 1⟩, ⟨19, 19, .w1c, 0, 0, 1⟩]⟩,
  ⟨CL_TILE_CNT_LDROWS, 1, 0x8, counterFields⟩,
  ⟨CL_TILE_CNT_LDFAULT, 1, 0x8, counterFields⟩,
  ⟨CL_TILE_CNT_WAIT, 1, 0x8, counterFields⟩,
  ⟨CL_TILE_CNT_CE, 1, 0x8, counterFields⟩,
  ⟨CL_TILE_CNT_UE, 1, 0x8, counterFields⟩,
  ⟨CL_ACC_CNT_CE, 1, 0x8, counterFields⟩,
  ⟨CL_ACC_CNT_UE, 1, 0x8, counterFields⟩,
  ⟨CL_VX_CTRL, 1, 0x8, [⟨0, 0, .rw, 0, 0, 1⟩, ⟨1, 1, .rw, 0, 0, 1⟩]⟩,
  ⟨CL_VX_STATUS, 1, 0x8, [⟨0, 0, .ro, 0, 0, 1⟩, ⟨1, 1, .ro, 0, 0, 1⟩, ⟨5, 2, .ro, 0, 0, 15⟩, ⟨31, 16, .ro, 0, 0, 65535⟩, ⟨47, 32, .ro, 0, 0, 65535⟩]⟩,
  ⟨CL_VX_SEED, 1, 0x8, [⟨63, 0, .rw, 0, 0, 18446744073709551615⟩]⟩,
  ⟨CL_VX_CNT_CHAINS, 1, 0x8, counterFields⟩,
  ⟨CL_VX_CNT_BEATS, 1, 0x8, counterFields⟩,
  ⟨CL_VX_CNT_HOLD, 1, 0x8, counterFields⟩,
  ⟨CL_VX_CNT_WAIT, 1, 0x8, counterFields⟩,
  ⟨CL_VX_CNT_FLAGGED, 1, 0x8, counterFields⟩,
  ⟨CL_VX_CNT_REFUSED, 1, 0x8, counterFields⟩,
  ⟨CL_VX_CNT_UE, 1, 0x8, counterFields⟩,
  ⟨CL_PROP, 64, 0x8, [⟨12, 0, .rw, 0, 0, 8191⟩, ⟨26, 13, .rw, 0, 0, 16383⟩, ⟨27, 27, .rw, 0, 0, 1⟩, ⟨28, 28, .rw, 0, 0, 1⟩]⟩]

/-- The registers of a cluster block by offset (R134, R171, R211, R256, R299, R344, R401). -/
def clRegRows : List RegRow := clRegRows0 ++ clRegRows1 ++ clRegRows2

def HM_SHC_CTRL : Nat := 0x3000000
def HM_SHC_MAINT : Nat := 0x3000008
def HM_SHC_MSTATUS : Nat := 0x3000010
def HM_SHC_CNT_HIT : Nat := 0x3001000
def HM_SHC_CNT_MISS : Nat := 0x3001008
def HM_SHC_CNT_WB : Nat := 0x3001010
def HM_SHC_CNT_PFISS : Nat := 0x3001018
def HM_SHC_CNT_PFUSED : Nat := 0x3001020
def HM_SHC_CNT_PFLATE : Nat := 0x3001028
def HM_SHC_CNT_PFUNUSED : Nat := 0x3001030
def HM_SHC_CNT_CE : Nat := 0x3001038
def HM_SHC_CNT_UE : Nat := 0x3001040
def SY_ERR : Nat := 0x4000000
def SY_SETSEL : Nat := 0x4000008
def SY_SETV : Nat := 0x4000010
def SY_CUR_CFG : Nat := 0x4000100
def SY_CUR_RING : Nat := 0x4000108
def SY_CUR_STAT : Nat := 0x4000110
def SY_CNT_SIG : Nat := 0x4000800
def SY_CNT_CUE : Nat := 0x4000808
def SY_CNT_EXPIRED : Nat := 0x4000810
def SY_CNT_ABANDON : Nat := 0x4000818
def SY_CNT_SCOPEMIS : Nat := 0x4000820
def SY_CNT_REFUSED : Nat := 0x4000828
def SY_CNT_REMDROP : Nat := 0x4000830
def SY_CNT_HANDSET : Nat := 0x4000838
def SY_CNT_ARRIVE : Nat := 0x4000840
def SY_CNT_RELEASE : Nat := 0x4000848
def SY_PAIR : Nat := 0x4001000
def SY_VMAP : Nat := 0x4100000
def SY_CTR : Nat := 0x4200000
def LK_RV_DESC : Nat := 0x5000000
def LK_RV_STATUS : Nat := 0x5000020
def LK_RV_CTRL : Nat := 0x5000028
def LK_RV_REPAIR : Nat := 0x5000030
def LK_RV_SHFAIL : Nat := 0x5000038
def LK_RV_FEED : Nat := 0x5000040
def LK_RV_CNT_INJ : Nat := 0x5000100
def LK_RV_CNT_FWD : Nat := 0x5000108
def LK_RV_CNT_FILL : Nat := 0x5000110
def LK_RV_CNT_FEEDDROP : Nat := 0x5000118
def LK_RV_CNT_STALE : Nat := 0x5000120
def LK_RV_CNT_ENDERR : Nat := 0x5000128
def LK_RV_CNT_SLICEDROP : Nat := 0x5000130
def LK_RV_CNT_NOROUTE : Nat := 0x5000138
def LK_RV_CNT_HOPDROP : Nat := 0x5000140
def LK_RV_CNT_REPAIR : Nat := 0x5000148
def LK_RV_CNT_REPAIRSRV : Nat := 0x5000150
def MG_TB_LOAD : Nat := 0x5000200
def MG_TB_CTRL : Nat := 0x5000208
def MG_TB_OFFSET : Nat := 0x5000210
def LK_SLICE_BIND : Nat := 0x5001000
def LK_RT_ENT : Nat := 0x5010000
def LK_PORT_CTRL : Nat := 0x6000000
def LK_PORT_STATUS : Nat := 0x6000008
def LK_PORT_VCBUF : Nat := 0x6000010
def LK_PORT_RETRY : Nat := 0x6000018
def LK_CNT_TXFRAME : Nat := 0x6000100
def LK_CNT_RXFRAME : Nat := 0x6000108
def LK_CNT_FECCORR : Nat := 0x6000110
def LK_CNT_FECUNC : Nat := 0x6000118
def LK_CNT_DAMAGED : Nat := 0x6000120
def LK_CNT_STOMPTX : Nat := 0x6000128
def LK_CNT_STOMPRX : Nat := 0x6000130
def LK_CNT_NACKTX : Nat := 0x6000138
def LK_CNT_RESEND : Nat := 0x6000140
def LK_CNT_AUTHFAIL : Nat := 0x6000148
def LK_CNT_MALFORMED : Nat := 0x6000150
def LK_CNT_CREDWAIT : Nat := 0x6000158
def LK_CNT_CMPIN : Nat := 0x6000160
def LK_CNT_CMPOUT : Nat := 0x6000168
def LK_CNT_PORTLOSS : Nat := 0x6000170
def LK_LINK_STATUS : Nat := 0x6008000
def LK_CMP_CTRL : Nat := 0x6009000
def LK_ERR : Nat := 0x6009008
def HM_WT_CTRL : Nat := 0x8000000
def HM_WT_STATUS : Nat := 0x8000008
def HM_WT_ERR : Nat := 0x8000010
def HM_WT_CNT_CHECK : Nat := 0x8000100
def HM_WT_CNT_CHKFAIL : Nat := 0x8000108
def HM_WT_CNT_REFETCH : Nat := 0x8000110
def HM_WT_CNT_BAD : Nat := 0x8000118
def HM_WT_CNT_PGFLY : Nat := 0x8000120
def HM_WT_CNT_PGHOST : Nat := 0x8000128
def HM_WT_CNT_DEMOTE : Nat := 0x8000130
def HM_WT_CNT_STAMP : Nat := 0x8000138
def HM_WT_CNT_SWAP : Nat := 0x8000140
def MG_US_CTRL : Nat := 0x9000000
def MG_US_STATUS : Nat := 0x9000008
def MG_US_DIV0 : Nat := 0x9000010
def MG_US_DIV1 : Nat := 0x9000018
def MG_US_DIV2 : Nat := 0x9000020
def MG_DT_CNT_TCC : Nat := 0x9000100
def MG_DT_CNT_TCXFER : Nat := 0x9000108
def MG_DT_CNT_TCMEM : Nat := 0x9000110
def MG_DT_CNT_TCNET : Nat := 0x9000118
def MG_DT_CNT_TCCUE : Nat := 0x9000120
def MG_DT_CNT_TCQUEUE : Nat := 0x9000128
def MG_DT_CNT_TCLINK : Nat := 0x9000130
def MG_US_CNT_COMPARED : Nat := 0x9000138
def MG_US_CNT_DIV : Nat := 0x9000140
def MG_US_CNT_HOLD : Nat := 0x9000148
def MG_DT_CNT_PLAYBILL : Nat := 0x9000150
def MG_CX_CTRL : Nat := 0xa000000
def MG_CX_RRING : Nat := 0xa000008
def MG_CX_RRHEAD : Nat := 0xa000010
def MG_CX_ERING : Nat := 0xa000018
def MG_CX_ERHEAD : Nat := 0xa000020
def MG_CX_INTAKE : Nat := 0xa000028
def MG_CX_STATUS : Nat := 0xa000030
def MG_CX_CNT_TAKEN : Nat := 0xa000100
def MG_CX_CNT_MALFORMED : Nat := 0xa000108
def MG_CX_CNT_REPLIES : Nat := 0xa000110
def MG_CX_CNT_EVENTS : Nat := 0xa000118
def MG_CX_CNT_EVLOST : Nat := 0xa000120
def PC_CTRL : Nat := 0xb000000
def PC_LINK_STATUS : Nat := 0xb000008
def PC_CNT_CORR : Nat := 0xb000100
def PC_CNT_UNCORR : Nat := 0xb000108
def PC_CNT_RSVD : Nat := 0xb000110
def PC_CNT_RETRAIN : Nat := 0xb000118
def HM_CTRL : Nat := 0xc000000
def HM_STK_STATUS : Nat := 0xc010000
def HM_STK_ERR : Nat := 0xc010008
def HM_STK_SCRUB : Nat := 0xc010010
def HM_CNT_RD : Nat := 0xc010100
def HM_CNT_WR : Nat := 0xc010108
def HM_CNT_CE : Nat := 0xc010110
def HM_CNT_UE : Nat := 0xc010118
def HM_CNT_PATHPAR : Nat := 0xc010120
def HM_CNT_IFRETRY : Nat := 0xc010128
def HM_CNT_PLOSS : Nat := 0xc010130
def HM_CNT_TRKWAIT : Nat := 0xc010138
def MG_SU_STATUS : Nat := 0xd000000
def MG_SU_STRAP : Nat := 0xd000008
def MG_SU_WDOG : Nat := 0xd000010
def MG_SU_STAGETIME : Nat := 0xd000020
def MG_SU_CNT_WARM : Nat := 0xd000100
def MG_SU_CNT_FLR : Nat := 0xd000108
def MG_SU_CNT_CLRST : Nat := 0xd000110
def MG_SU_CNT_LKRST : Nat := 0xd000118
def MG_SU_CNT_ABSORBED : Nat := 0xd000120
def SC_STATUS : Nat := 0xe000000
def SC_BOOT : Nat := 0xe000008
def SC_ERR : Nat := 0xe000010
def SC_LINKPOL : Nat := 0xe000018
def SC_IDDIG : Nat := 0xe000020
def SC_CNT_SIGFAIL : Nat := 0xe000100
def SC_CNT_ATTEST : Nat := 0xe000108
def SC_CNT_HSOK : Nat := 0xe000110
def SC_CNT_HSFAIL : Nat := 0xe000118
def SC_CNT_WKEY : Nat := 0xe000120
def SC_CNT_RNGFAIL : Nat := 0xe000128
def PW_STATUS : Nat := 0xf000000
def PW_CAP : Nat := 0xf000008
def PW_RACKCAP : Nat := 0xf000010
def PW_VCTRL : Nat := 0xf000018
def PW_GOV_STATUS : Nat := 0xf000020
def PW_THERM : Nat := 0xf000028
def PW_CLK_STATUS : Nat := 0xf000030
def PW_CLK_LOST : Nat := 0xf000038
def PW_CNT_ENERGY : Nat := 0xf000100
def PW_CNT_CAPUS : Nat := 0xf000108
def PW_CNT_THERMUS : Nat := 0xf000110
def PW_CNT_OCCLAMP : Nat := 0xf000118
def PW_CNT_REFLOSS : Nat := 0xf000120
def PW_CNT_RELOCK : Nat := 0xf000128
def PW_CNT_THERMSHUT : Nat := 0xf000130
def PW_TSENS : Nat := 0xf001000
def MG_EL_CTRL : Nat := 0x10000000
def MG_EL_STATUS : Nat := 0x10000008
def MG_DBG_CTRL : Nat := 0x10000100
def MG_DBG_STATUS : Nat := 0x10000108
def MG_DBG_HANG : Nat := 0x10000110
def MG_DBG_ATTACH : Nat := 0x10000118
def MG_DBG_CSEL : Nat := 0x10000120
def MG_DBG_CDATA : Nat := 0x10000128
def MG_DBG_MADDR : Nat := 0x10000130
def MG_DBG_MDATA : Nat := 0x10000138
def MG_DBG_NONCE : Nat := 0x10000140
def MG_DBG_CNT_HANG : Nat := 0x10000180
def MG_DBG_CNT_DENIED : Nat := 0x10000188
def MG_EL_CNT : Nat := 0x10000200
def MG_DBG_BP : Nat := 0x10000400
def MG_EL_LOG : Nat := 0x10010000

/-- The device registers outside the cluster blocks, part 0. -/
def devRegRows0 : List RegRow := [
  ⟨HM_SHC_CTRL, 1, 0x8, [⟨4, 0, .rw, 4, 1, 16⟩]⟩,
  ⟨HM_SHC_MAINT, 1, 0x8, [⟨0, 0, .wo, 0, 0, 1⟩, ⟨1, 1, .rw, 0, 0, 1⟩, ⟨5, 2, .rw, 0, 0, 15⟩, ⟨6, 6, .rw, 0, 0, 1⟩, ⟨10, 7, .rw, 0, 0, 15⟩]⟩,
  ⟨HM_SHC_MSTATUS, 1, 0x8, [⟨0, 0, .ro, 0, 0, 1⟩, ⟨1, 1, .w1c, 0, 0, 1⟩]⟩,
  ⟨HM_SHC_CNT_HIT, 16, 0x80, counterFields⟩,
  ⟨HM_SHC_CNT_MISS, 16, 0x80, counterFields⟩,
  ⟨HM_SHC_CNT_WB, 16, 0x80, counterFields⟩,
  ⟨HM_SHC_CNT_PFISS, 16, 0x80, counterFields⟩,
  ⟨HM_SHC_CNT_PFUSED, 16, 0x80, counterFields⟩,
  ⟨HM_SHC_CNT_PFLATE, 16, 0x80, counterFields⟩,
  ⟨HM_SHC_CNT_PFUNUSED, 16, 0x80, counterFields⟩,
  ⟨HM_SHC_CNT_CE, 16, 0x80, counterFields⟩,
  ⟨HM_SHC_CNT_UE, 16, 0x80, counterFields⟩,
  ⟨SY_ERR, 1, 0x8, [⟨15, 0, .ro, 0, 0, 65535⟩, ⟨17, 16, .ro, 0, 0, 3⟩, ⟨29, 18, .ro, 0, 0, 4095⟩, ⟨35, 30, .ro, 0, 0, 63⟩, ⟨36, 36, .w1c, 0, 0, 1⟩, ⟨37, 37, .w1c, 0, 0, 1⟩, ⟨38, 38, .w1c, 0, 0, 1⟩, ⟨39, 39, .w1c, 0, 0, 1⟩]⟩,
  ⟨SY_SETSEL, 1, 0x8, [⟨15, 0, .rw, 0, 0, 65535⟩]⟩,
  ⟨SY_SETV, 1, 0x8, [⟨47, 0, .wo, 0, 0, 281474976710655⟩, ⟨48, 48, .wo, 0, 0, 1⟩]⟩,
  ⟨SY_CUR_CFG, 16, 0x20, [⟨15, 0, .rw, 0, 0, 65535⟩, ⟨31, 16, .rw, 0, 0, 65535⟩, ⟨47, 32, .rw, 0, 0, 65535⟩, ⟨51, 48, .rw, 0, 0, 15⟩, ⟨52, 52, .rw, 0, 0, 1⟩, ⟨53, 53, .rw, 0, 0, 1⟩, ⟨54, 54, .rw, 0, 0, 1⟩]⟩,
  ⟨SY_CUR_RING, 16, 0x20, [⟨15, 0, .rw, 0, 0, 65535⟩, ⟨27, 16, .rw, 0, 0, 4095⟩, ⟨40, 28, .rw, 0, 0, 8191⟩]⟩,
  ⟨SY_CUR_STAT, 16, 0x20, [⟨31, 0, .ro, 0, 0, 4294967295⟩, ⟨32, 32, .w1c, 0, 0, 1⟩]⟩,
  ⟨SY_CNT_SIG, 1, 0x8, counterFields⟩,
  ⟨SY_CNT_CUE, 1, 0x8, counterFields⟩,
  ⟨SY_CNT_EXPIRED, 1, 0x8, counterFields⟩,
  ⟨SY_CNT_ABANDON, 1, 0x8, counterFields⟩,
  ⟨SY_CNT_SCOPEMIS, 1, 0x8, counterFields⟩,
  ⟨SY_CNT_REFUSED, 1, 0x8, counterFields⟩,
  ⟨SY_CNT_REMDROP, 1, 0x8, counterFields⟩,
  ⟨SY_CNT_HANDSET, 1, 0x8, counterFields⟩,
  ⟨SY_CNT_ARRIVE, 1, 0x8, counterFields⟩,
  ⟨SY_CNT_RELEASE, 1, 0x8, counterFields⟩,
  ⟨SY_PAIR, 256, 0x8, [⟨15, 0, .rw, 0, 0, 65535⟩, ⟨31, 16, .rw, 0, 0, 65535⟩, ⟨32, 32, .rw, 0, 0, 1⟩]⟩,
  ⟨SY_VMAP, 65536, 0x8, [⟨15, 0, .rw, 0, 0, 65535⟩, ⟨16, 16, .rw, 0, 0, 1⟩]⟩,
  ⟨SY_CTR, 65536, 0x8, [⟨47, 0, .ro, 0, 0, 281474976710655⟩]⟩,
  ⟨LK_RV_DESC, 4, 0x8, [⟨63, 0, .ro, 0, 0, 0xFFFFFFFFFFFFFFFF⟩]⟩,
  ⟨LK_RV_STATUS, 1, 0x8, [⟨1, 0, .ro, 0, 0, 3⟩, ⟨2, 2, .ro, 0, 0, 1⟩, ⟨3, 3, .ro, 0, 0, 1⟩, ⟨4, 4, .w1c, 0, 0, 1⟩, ⟨31, 16, .ro, 0, 0, 65535⟩]⟩,
  ⟨LK_RV_CTRL, 1, 0x8, [⟨11, 0, .rw, 4095, 1, 4095⟩]⟩,
  ⟨LK_RV_REPAIR, 1, 0x8, [⟨15, 0, .rw, 50, 1, 65535⟩, ⟨31, 16, .rw, 0x1388, 1, 65535⟩, ⟨47, 32, .rw, 20, 1, 65535⟩]⟩,
  ⟨LK_RV_SHFAIL, 1, 0x8, [⟨15, 0, .ro, 0, 0, 65535⟩, ⟨27, 16, .ro, 0, 0, 4095⟩, ⟨39, 28, .ro, 0, 0, 4095⟩, ⟨55, 40, .ro, 0, 0, 65535⟩, ⟨56, 56, .ro, 0, 0, 1⟩, ⟨57, 57, .w1c, 0, 0, 1⟩, ⟨58, 58, .w1c, 0, 0, 1⟩]⟩,
  ⟨LK_RV_FEED, 16, 0x8, [⟨0, 0, .rw, 0, 0, 1⟩, ⟨47, 16, .ro, 0, 0, 4294967295⟩]⟩,
  ⟨LK_RV_CNT_INJ, 1, 0x8, counterFields⟩,
  ⟨LK_RV_CNT_FWD, 1, 0x8, counterFields⟩,
  ⟨LK_RV_CNT_FILL, 1, 0x8, counterFields⟩]

/-- The device registers outside the cluster blocks, part 1. -/
def devRegRows1 : List RegRow := [
  ⟨LK_RV_CNT_FEEDDROP, 1, 0x8, counterFields⟩,
  ⟨LK_RV_CNT_STALE, 1, 0x8, counterFields⟩,
  ⟨LK_RV_CNT_ENDERR, 1, 0x8, counterFields⟩,
  ⟨LK_RV_CNT_SLICEDROP, 1, 0x8, counterFields⟩,
  ⟨LK_RV_CNT_NOROUTE, 1, 0x8, counterFields⟩,
  ⟨LK_RV_CNT_HOPDROP, 1, 0x8, counterFields⟩,
  ⟨LK_RV_CNT_REPAIR, 1, 0x8, counterFields⟩,
  ⟨LK_RV_CNT_REPAIRSRV, 1, 0x8, counterFields⟩,
  ⟨MG_TB_LOAD, 1, 0x8, [⟨63, 0, .rw, 0, 0, 18446744073709551615⟩]⟩,
  ⟨MG_TB_CTRL, 1, 0x8, [⟨0, 0, .rw, 0, 0, 1⟩, ⟨63, 32, .rw, 0xf4240, 1, 4294967295⟩]⟩,
  ⟨MG_TB_OFFSET, 1, 0x8, [⟨31, 0, .ro, 0, 0, 4294967295⟩, ⟨32, 32, .ro, 0, 0, 1⟩]⟩,
  ⟨LK_SLICE_BIND, 256, 0x8, [⟨3, 0, .rw, 0, 0, 15⟩, ⟨4, 4, .rw, 0, 0, 1⟩]⟩,
  ⟨LK_RT_ENT, 4096, 0x8, [⟨7, 0, .rw, 0, 0, 255⟩, ⟨11, 8, .rw, 0, 0, 15⟩, ⟨19, 12, .rw, 0, 0, 255⟩, ⟨20, 20, .rw, 0, 0, 1⟩]⟩,
  ⟨LK_PORT_CTRL, 8, 0x1000, [⟨0, 0, .rw, 0, 0, 1⟩, ⟨1, 1, .rw, 1, 0, 1⟩]⟩,
  ⟨LK_PORT_STATUS, 8, 0x1000, [⟨2, 0, .ro, 0, 0, 7⟩, ⟨3, 3, .ro, 0, 0, 1⟩, ⟨9, 4, .ro, 0, 0, 63⟩, ⟨10, 10, .w1c, 0, 0, 1⟩]⟩,
  ⟨LK_PORT_VCBUF, 8, 0x1000, [⟨11, 0, .rw, 1536, 0, 4095⟩, ⟨23, 12, .rw, 1536, 0, 4095⟩, ⟨35, 24, .rw, 512, 0, 4095⟩, ⟨47, 36, .rw, 512, 0, 4095⟩]⟩,
  ⟨LK_PORT_RETRY, 8, 0x1000, [⟨15, 0, .rw, 125, 1, 65535⟩, ⟨19, 16, .rw, 8, 1, 15⟩, ⟨27, 20, .rw, 8, 1, 255⟩]⟩,
  ⟨LK_CNT_TXFRAME, 8, 0x1000, counterFields⟩,
  ⟨LK_CNT_RXFRAME, 8, 0x1000, counterFields⟩,
  ⟨LK_CNT_FECCORR, 8, 0x1000, counterFields⟩,
  ⟨LK_CNT_FECUNC, 8, 0x1000, counterFields⟩,
  ⟨LK_CNT_DAMAGED, 8, 0x1000, counterFields⟩,
  ⟨LK_CNT_STOMPTX, 8, 0x1000, counterFields⟩,
  ⟨LK_CNT_STOMPRX, 8, 0x1000, counterFields⟩,
  ⟨LK_CNT_NACKTX, 8, 0x1000, counterFields⟩,
  ⟨LK_CNT_RESEND, 8, 0x1000, counterFields⟩,
  ⟨LK_CNT_AUTHFAIL, 8, 0x1000, counterFields⟩,
  ⟨LK_CNT_MALFORMED, 8, 0x1000, counterFields⟩,
  ⟨LK_CNT_CREDWAIT, 8, 0x1000, counterFields⟩,
  ⟨LK_CNT_CMPIN, 8, 0x1000, counterFields⟩,
  ⟨LK_CNT_CMPOUT, 8, 0x1000, counterFields⟩,
  ⟨LK_CNT_PORTLOSS, 8, 0x1000, counterFields⟩,
  ⟨LK_LINK_STATUS, 4, 0x100, [⟨1, 0, .ro, 0, 0, 3⟩, ⟨2, 2, .ro, 0, 0, 1⟩, ⟨4, 3, .ro, 0, 0, 3⟩, ⟨5, 5, .w1c, 0, 0, 1⟩, ⟨27, 16, .ro, 0, 0, 4095⟩, ⟨28, 28, .ro, 0, 0, 1⟩]⟩,
  ⟨LK_CMP_CTRL, 1, 0x8, [⟨0, 0, .rw, 0, 0, 1⟩, ⟨2, 1, .rw, 0, 0, 3⟩, ⟨5, 3, .rw, 0, 0, 7⟩, ⟨8, 8, .rw, 0, 0, 1⟩, ⟨10, 9, .rw, 0, 0, 3⟩, ⟨13, 11, .rw, 0, 0, 7⟩]⟩,
  ⟨LK_ERR, 1, 0x8, [⟨2, 0, .ro, 0, 0, 7⟩, ⟨6, 3, .ro, 0, 0, 15⟩, ⟨15, 7, .ro, 0, 0, 511⟩, ⟨16, 16, .w1c, 0, 0, 1⟩, ⟨17, 17, .w1c, 0, 0, 1⟩, ⟨18, 18, .w1c, 0, 0, 1⟩]⟩,
  ⟨HM_WT_CTRL, 1, 0x8, [⟨15, 0, .rw, 1024, 0, 65535⟩, ⟨23, 16, .rw, 64, 0, 255⟩, ⟨24, 24, .rw, 1, 0, 1⟩]⟩,
  ⟨HM_WT_STATUS, 1, 0x8, [⟨0, 0, .ro, 0, 0, 1⟩, ⟨12, 1, .ro, 0, 0, 4095⟩, ⟨17, 13, .ro, 0, 0, 31⟩]⟩,
  ⟨HM_WT_ERR, 1, 0x8, [⟨31, 0, .ro, 0, 0, 4294967295⟩, ⟨34, 32, .ro, 0, 0, 7⟩, ⟨36, 35, .ro, 0, 0, 3⟩, ⟨40, 37, .ro, 0, 0, 15⟩, ⟨41, 41, .w1c, 0, 0, 1⟩, ⟨42, 42, .w1c, 0, 0, 1⟩]⟩,
  ⟨HM_WT_CNT_CHECK, 1, 0x8, counterFields⟩,
  ⟨HM_WT_CNT_CHKFAIL, 1, 0x8, counterFields⟩]

/-- The device registers outside the cluster blocks, part 2. -/
def devRegRows2 : List RegRow := [
  ⟨HM_WT_CNT_REFETCH, 1, 0x8, counterFields⟩,
  ⟨HM_WT_CNT_BAD, 1, 0x8, counterFields⟩,
  ⟨HM_WT_CNT_PGFLY, 1, 0x8, counterFields⟩,
  ⟨HM_WT_CNT_PGHOST, 1, 0x8, counterFields⟩,
  ⟨HM_WT_CNT_DEMOTE, 1, 0x8, counterFields⟩,
  ⟨HM_WT_CNT_STAMP, 1, 0x8, counterFields⟩,
  ⟨HM_WT_CNT_SWAP, 1, 0x8, counterFields⟩,
  ⟨MG_US_CTRL, 1, 0x8, [⟨0, 0, .rw, 0, 0, 1⟩, ⟨1, 1, .rw, 0, 0, 1⟩, ⟨13, 2, .rw, 0, 0, 4095⟩, ⟨17, 14, .rw, 0, 0, 15⟩]⟩,
  ⟨MG_US_STATUS, 1, 0x8, [⟨1, 0, .ro, 0, 0, 3⟩, ⟨2, 2, .ro, 0, 0, 1⟩, ⟨3, 3, .ro, 0, 0, 1⟩, ⟨4, 4, .ro, 0, 0, 1⟩, ⟨21, 5, .ro, 0, 0, 131071⟩]⟩,
  ⟨MG_US_DIV0, 1, 0x8, [⟨15, 0, .ro, 0, 0, 65535⟩, ⟨21, 16, .ro, 0, 0, 63⟩, ⟨23, 22, .ro, 0, 0, 3⟩, ⟨24, 24, .ro, 0, 0, 1⟩, ⟨25, 25, .w1c, 0, 0, 1⟩, ⟨26, 26, .w1c, 0, 0, 1⟩, ⟨63, 32, .ro, 0, 0, 4294967295⟩]⟩,
  ⟨MG_US_DIV1, 1, 0x8, [⟨15, 0, .ro, 0, 0, 65535⟩, ⟨31, 16, .ro, 0, 0, 65535⟩, ⟨47, 32, .ro, 0, 0, 65535⟩, ⟨63, 48, .ro, 0, 0, 65535⟩]⟩,
  ⟨MG_US_DIV2, 1, 0x8, [⟨7, 0, .ro, 0, 0, 255⟩]⟩,
  ⟨MG_DT_CNT_TCC, 1, 0x8, counterFields⟩,
  ⟨MG_DT_CNT_TCXFER, 1, 0x8, counterFields⟩,
  ⟨MG_DT_CNT_TCMEM, 1, 0x8, counterFields⟩,
  ⟨MG_DT_CNT_TCNET, 1, 0x8, counterFields⟩,
  ⟨MG_DT_CNT_TCCUE, 1, 0x8, counterFields⟩,
  ⟨MG_DT_CNT_TCQUEUE, 1, 0x8, counterFields⟩,
  ⟨MG_DT_CNT_TCLINK, 1, 0x8, counterFields⟩,
  ⟨MG_US_CNT_COMPARED, 1, 0x8, counterFields⟩,
  ⟨MG_US_CNT_DIV, 1, 0x8, counterFields⟩,
  ⟨MG_US_CNT_HOLD, 1, 0x8, counterFields⟩,
  ⟨MG_DT_CNT_PLAYBILL, 1, 0x8, counterFields⟩,
  ⟨MG_CX_CTRL, 16, 0x1000, [⟨0, 0, .rw, 0, 0, 1⟩, ⟨6, 1, .rw, 0, 0, 63⟩, ⟨12, 7, .rw, 1, 0, 63⟩, ⟨20, 13, .rw, 0, 0, 255⟩, ⟨36, 21, .rw, 1000, 1, 65535⟩]⟩,
  ⟨MG_CX_RRING, 16, 0x1000, [⟨4, 0, .rw, 6, 6, 16⟩, ⟨63, 12, .rw, 0, 0, 4503599627370495⟩]⟩,
  ⟨MG_CX_RRHEAD, 16, 0x1000, [⟨31, 0, .rw, 0, 0, 4294967295⟩, ⟨63, 32, .ro, 0, 0, 4294967295⟩]⟩,
  ⟨MG_CX_ERING, 16, 0x1000, [⟨4, 0, .rw, 6, 6, 16⟩, ⟨63, 12, .rw, 0, 0, 4503599627370495⟩]⟩,
  ⟨MG_CX_ERHEAD, 16, 0x1000, [⟨31, 0, .rw, 0, 0, 4294967295⟩, ⟨63, 32, .ro, 0, 0, 4294967295⟩]⟩,
  ⟨MG_CX_INTAKE, 16, 0x1000, [⟨19, 0, .ro, 0, 0, 1048575⟩, ⟨51, 20, .ro, 1, 0, 4294967295⟩, ⟨52, 52, .ro, 0, 0, 1⟩, ⟨53, 53, .wo, 0, 0, 1⟩]⟩,
  ⟨MG_CX_STATUS, 16, 0x1000, [⟨1, 0, .ro, 0, 0, 3⟩, ⟨2, 2, .ro, 0, 0, 1⟩, ⟨11, 3, .ro, 0, 0, 511⟩]⟩,
  ⟨MG_CX_CNT_TAKEN, 16, 0x1000, counterFields⟩,
  ⟨MG_CX_CNT_MALFORMED, 16, 0x1000, counterFields⟩,
  ⟨MG_CX_CNT_REPLIES, 16, 0x1000, counterFields⟩,
  ⟨MG_CX_CNT_EVENTS, 16, 0x1000, counterFields⟩,
  ⟨MG_CX_CNT_EVLOST, 16, 0x1000, counterFields⟩,
  ⟨PC_CTRL, 1, 0x8, [⟨0, 0, .rw, 0, 0, 1⟩]⟩,
  ⟨PC_LINK_STATUS, 1, 0x8, [⟨2, 0, .ro, 0, 0, 7⟩, ⟨6, 3, .ro, 0, 0, 15⟩, ⟨7, 7, .ro, 0, 0, 1⟩, ⟨8, 8, .w1c, 0, 0, 1⟩, ⟨9, 9, .ro, 1, 0, 1⟩, ⟨25, 10, .ro, 0, 0, 65535⟩]⟩,
  ⟨PC_CNT_CORR, 1, 0x8, counterFields⟩,
  ⟨PC_CNT_UNCORR, 1, 0x8, counterFields⟩,
  ⟨PC_CNT_RSVD, 1, 0x8, counterFields⟩]

/-- The device registers outside the cluster blocks, part 3. -/
def devRegRows3 : List RegRow := [
  ⟨PC_CNT_RETRAIN, 1, 0x8, counterFields⟩,
  ⟨HM_CTRL, 1, 0x8, [⟨7, 0, .rw, 24, 0, 255⟩]⟩,
  ⟨HM_STK_STATUS, 8, 0x1000, [⟨1, 0, .ro, 0, 0, 3⟩, ⟨9, 2, .ro, 0, 0, 255⟩, ⟨10, 10, .ro, 0, 0, 1⟩, ⟨11, 11, .ro, 0, 0, 1⟩, ⟨25, 12, .ro, 0, 0, 16383⟩]⟩,
  ⟨HM_STK_ERR, 8, 0x1000, [⟨39, 0, .ro, 0, 0, 1099511627775⟩, ⟨42, 40, .ro, 0, 0, 7⟩, ⟨43, 43, .w1c, 0, 0, 1⟩, ⟨44, 44, .w1c, 0, 0, 1⟩]⟩,
  ⟨HM_STK_SCRUB, 8, 0x1000, [⟨31, 0, .ro, 0, 0, 4294967295⟩, ⟨47, 32, .ro, 0, 0, 65535⟩]⟩,
  ⟨HM_CNT_RD, 8, 0x1000, counterFields⟩,
  ⟨HM_CNT_WR, 8, 0x1000, counterFields⟩,
  ⟨HM_CNT_CE, 8, 0x1000, counterFields⟩,
  ⟨HM_CNT_UE, 8, 0x1000, counterFields⟩,
  ⟨HM_CNT_PATHPAR, 8, 0x1000, counterFields⟩,
  ⟨HM_CNT_IFRETRY, 8, 0x1000, counterFields⟩,
  ⟨HM_CNT_PLOSS, 8, 0x1000, counterFields⟩,
  ⟨HM_CNT_TRKWAIT, 8, 0x1000, counterFields⟩,
  ⟨MG_SU_STATUS, 1, 0x8, [⟨2, 0, .ro, 0, 0, 7⟩, ⟨3, 3, .ro, 0, 0, 1⟩, ⟨4, 4, .ro, 0, 0, 1⟩, ⟨6, 5, .ro, 0, 0, 3⟩, ⟨10, 8, .ro, 0, 0, 7⟩, ⟨13, 11, .ro, 0, 0, 7⟩]⟩,
  ⟨MG_SU_STRAP, 1, 0x8, [⟨0, 0, .ro, 0, 0, 1⟩, ⟨1, 1, .ro, 0, 0, 1⟩, ⟨4, 2, .ro, 0, 0, 7⟩]⟩,
  ⟨MG_SU_WDOG, 1, 0x8, [⟨0, 0, .wo, 0, 0, 1⟩, ⟨31, 16, .rw, 1000, 0, 65535⟩]⟩,
  ⟨MG_SU_STAGETIME, 4, 0x8, [⟨63, 0, .ro, 0, 0, 18446744073709551615⟩]⟩,
  ⟨MG_SU_CNT_WARM, 1, 0x8, counterFields⟩,
  ⟨MG_SU_CNT_FLR, 1, 0x8, counterFields⟩,
  ⟨MG_SU_CNT_CLRST, 1, 0x8, counterFields⟩,
  ⟨MG_SU_CNT_LKRST, 1, 0x8, counterFields⟩,
  ⟨MG_SU_CNT_ABSORBED, 1, 0x8, counterFields⟩,
  ⟨SC_STATUS, 1, 0x8, [⟨0, 0, .ro, 0, 0, 1⟩, ⟨7, 1, .ro, 0, 0, 127⟩, ⟨11, 8, .ro, 0, 0, 15⟩, ⟨12, 12, .ro, 0, 0, 1⟩]⟩,
  ⟨SC_BOOT, 1, 0x8, [⟨0, 0, .ro, 0, 0, 1⟩, ⟨1, 1, .ro, 0, 0, 1⟩, ⟨3, 2, .ro, 0, 0, 3⟩, ⟨4, 4, .w1c, 0, 0, 1⟩, ⟨5, 5, .ro, 0, 0, 1⟩, ⟨12, 6, .ro, 0, 0, 127⟩, ⟨19, 13, .ro, 0, 0, 127⟩]⟩,
  ⟨SC_ERR, 1, 0x8, [⟨2, 0, .ro, 0, 0, 7⟩, ⟨5, 3, .ro, 0, 0, 7⟩, ⟨30, 6, .ro, 0, 0, 33554431⟩, ⟨31, 31, .w1c, 0, 0, 1⟩, ⟨32, 32, .w1c, 0, 0, 1⟩]⟩,
  ⟨SC_LINKPOL, 1, 0x8, [⟨6, 0, .rw, 0, 0, 127⟩, ⟨7, 7, .rw, 1, 0, 1⟩]⟩,
  ⟨SC_IDDIG, 4, 0x8, [⟨63, 0, .ro, 0, 0, 18446744073709551615⟩]⟩,
  ⟨SC_CNT_SIGFAIL, 1, 0x8, counterFields⟩,
  ⟨SC_CNT_ATTEST, 1, 0x8, counterFields⟩,
  ⟨SC_CNT_HSOK, 1, 0x8, counterFields⟩,
  ⟨SC_CNT_HSFAIL, 1, 0x8, counterFields⟩,
  ⟨SC_CNT_WKEY, 1, 0x8, counterFields⟩,
  ⟨SC_CNT_RNGFAIL, 1, 0x8, counterFields⟩,
  ⟨PW_STATUS, 1, 0x8, [⟨0, 0, .ro, 0, 0, 1⟩, ⟨1, 1, .ro, 0, 0, 1⟩, ⟨2, 2, .w1c, 0, 0, 1⟩, ⟨3, 3, .w1c, 0, 0, 1⟩, ⟨4, 4, .w1c, 0, 0, 1⟩, ⟨15, 8, .ro, 0, 0, 255⟩, ⟨31, 16, .ro, 0, 0, 65535⟩, ⟨47, 32, .ro, 0, 0, 65535⟩]⟩,
  ⟨PW_CAP, 1, 0x8, [⟨10, 0, .rw, 1200, 400, 1200⟩]⟩,
  ⟨PW_RACKCAP, 1, 0x8, [⟨10, 0, .ro, 1200, 0, 2047⟩]⟩,
  ⟨PW_VCTRL, 1, 0x8, [⟨6, 0, .rw, 50, 30, 70⟩]⟩,
  ⟨PW_GOV_STATUS, 1, 0x8, [⟨6, 0, .ro, 50, 0, 127⟩, ⟨8, 8, .ro, 0, 0, 1⟩, ⟨9, 9, .ro, 0, 0, 1⟩, ⟨10, 10, .ro, 0, 0, 1⟩, ⟨11, 11, .ro, 0, 0, 1⟩, ⟨20, 16, .ro, 16, 0, 31⟩, ⟨47, 32, .ro, 0, 0, 65535⟩, ⟨53, 48, .ro, 0, 0, 63⟩]⟩,
  ⟨PW_THERM, 1, 0x8, [⟨7, 0, .ro, 0, 0, 255⟩, ⟨13, 8, .ro, 0, 0, 63⟩, ⟨21, 14, .ro, 0, 0, 255⟩, ⟨24, 22, .ro, 0, 0, 7⟩, ⟨32, 25, .ro, 0, 0, 255⟩, ⟨35, 33, .ro, 0, 0, 7⟩]⟩,
  ⟨PW_CLK_STATUS, 1, 0x8, [⟨59, 0, .ro, 0, 0, 1152921504606846975⟩]⟩]

/-- The device registers outside the cluster blocks, part 4. -/
def devRegRows4 : List RegRow := [
  ⟨PW_CLK_LOST, 1, 0x8, [⟨59, 0, .w1c, 0, 0, 1152921504606846975⟩]⟩,
  ⟨PW_CNT_ENERGY, 1, 0x8, counterFields⟩,
  ⟨PW_CNT_CAPUS, 1, 0x8, counterFields⟩,
  ⟨PW_CNT_THERMUS, 1, 0x8, counterFields⟩,
  ⟨PW_CNT_OCCLAMP, 1, 0x8, counterFields⟩,
  ⟨PW_CNT_REFLOSS, 1, 0x8, counterFields⟩,
  ⟨PW_CNT_RELOCK, 1, 0x8, counterFields⟩,
  ⟨PW_CNT_THERMSHUT, 1, 0x8, counterFields⟩,
  ⟨PW_TSENS, 64, 0x8, [⟨7, 0, .ro, 0, 0, 255⟩, ⟨15, 8, .ro, 0, 0, 255⟩]⟩,
  ⟨MG_EL_CTRL, 1, 0x8, [⟨0, 0, .rw, 0, 0, 1⟩, ⟨1, 1, .wo, 0, 0, 1⟩]⟩,
  ⟨MG_EL_STATUS, 1, 0x8, [⟨31, 0, .ro, 0, 0, 4294967295⟩, ⟨32, 32, .ro, 0, 0, 1⟩]⟩,
  ⟨MG_DBG_CTRL, 1, 0x8, [⟨0, 0, .wo, 0, 0, 1⟩, ⟨1, 1, .rw, 0, 0, 1⟩]⟩,
  ⟨MG_DBG_STATUS, 1, 0x8, [⟨0, 0, .ro, 0, 0, 1⟩, ⟨1, 1, .ro, 0, 0, 1⟩, ⟨3, 2, .ro, 0, 0, 3⟩, ⟨6, 4, .ro, 0, 0, 7⟩]⟩,
  ⟨MG_DBG_HANG, 1, 0x8, [⟨15, 0, .rw, 100, 0, 65535⟩]⟩,
  ⟨MG_DBG_ATTACH, 1, 0x8, [⟨39, 0, .rw, 0, 0, 1099511627775⟩]⟩,
  ⟨MG_DBG_CSEL, 1, 0x8, [⟨5, 0, .rw, 0, 0, 63⟩, ⟨13, 8, .rw, 0, 0, 63⟩, ⟨16, 16, .w1c, 0, 0, 1⟩, ⟨17, 17, .w1c, 0, 0, 1⟩]⟩,
  ⟨MG_DBG_CDATA, 1, 0x8, [⟨63, 0, .rw, 0, 0, 18446744073709551615⟩]⟩,
  ⟨MG_DBG_MADDR, 1, 0x8, [⟨63, 0, .rw, 0, 0, 18446744073709551615⟩]⟩,
  ⟨MG_DBG_MDATA, 1, 0x8, [⟨63, 0, .rw, 0, 0, 18446744073709551615⟩]⟩,
  ⟨MG_DBG_NONCE, 4, 0x8, [⟨63, 0, .ro, 0, 0, 0xFFFFFFFFFFFFFFFF⟩]⟩,
  ⟨MG_DBG_CNT_HANG, 1, 0x8, counterFields⟩,
  ⟨MG_DBG_CNT_DENIED, 1, 0x8, counterFields⟩,
  ⟨MG_EL_CNT, 32, 0x8, counterFields⟩,
  ⟨MG_DBG_BP, 40, 0x8, [⟨0, 0, .rw, 0, 0, 1⟩, ⟨63, 1, .rw, 0, 0, 9223372036854775807⟩]⟩,
  ⟨MG_EL_LOG, 4096, 0x8, [⟨63, 0, .ro, 0, 0, 0xFFFFFFFFFFFFFFFF⟩]⟩]

/-- The device registers outside the cluster blocks. -/
def devRegRows : List RegRow := devRegRows0 ++ devRegRows1 ++ devRegRows2 ++ devRegRows3 ++ devRegRows4

/-- Whether a row holds an address. -/
def RegRow.has (r : RegRow) (a : Nat) : Bool :=
  decide (r.addr ≤ a) && decide (a < r.addr + r.count * r.stride) && (a - r.addr) % r.stride == 0

/-- The field map of an address in a list of rows. -/
def fieldsIn (rows : List RegRow) (a : Nat) : Option (List RField) := (rows.find? (·.has a)).map (·.fields)

/-- R15: the reset value of a register. -/
def resetOfFields (fs : List RField) : Nat := fs.foldl (fun w f => w + place f.hi f.lo f.rst) 0

/-- R11 to R14: what a write leaves in the stored fields. -/
def writeFields (fs : List RField) (old v : Nat) : Nat :=
  fs.foldl (fun w f =>
    let x := bits v f.hi f.lo
    match f.acc with
    | .rw => if f.okLo ≤ x ∧ x ≤ f.okHi then setBits w f.hi f.lo x else w
    | .w1c => setBits w f.hi f.lo (Nat.land (bits w f.hi f.lo) ((2 ^ (f.hi + 1 - f.lo) - 1) - x))
    | _ => w) old

/-- R15: the reset value at a cluster-block offset. -/
def clReset (off : Nat) : Nat := match fieldsIn clRegRows off with | some fs => resetOfFields fs | none => 0

/-- R15: the reset value at a device register address. -/
def devReset (a : Nat) : Nat := match fieldsIn devRegRows a with | some fs => resetOfFields fs | none => 0

end Sys2Proof.Machine
end

