-- ==== Sys2Proof/Machine/Num.lean ====
section
/-! DEFINITION. Sys2Proof/Machine/Num.lean: the number formats, their exact decoding and their rounding
(02_numbers_and_gauges.md R49 to R56 and R76 to R83). -/

namespace Sys2Proof.Machine

/-- The element formats of the 4-bit format code (R49). -/
inductive Fmt
  | int8 | int4 | e4m3 | e5m2 | mxE4m3 | mxE5m2 | mxE2m3 | mxE3m2 | mxE2m1 | mxInt8 | bf16 | fp16 | fp32
  deriving DecidableEq, Repr

/-- R49: the format of a code; 0xD to 0xF are reserved. -/
def Fmt.ofCode : Nat → Option Fmt
  | 0 => some .int8 | 1 => some .int4 | 2 => some .e4m3 | 3 => some .e5m2 | 4 => some .mxE4m3
  | 5 => some .mxE5m2 | 6 => some .mxE2m3 | 7 => some .mxE3m2 | 8 => some .mxE2m1 | 9 => some .mxInt8
  | 10 => some .bf16 | 11 => some .fp16 | 12 => some .fp32 | _ => none

/-- R49: the code of a format. -/
def Fmt.code : Fmt → Nat
  | .int8 => 0 | .int4 => 1 | .e4m3 => 2 | .e5m2 => 3 | .mxE4m3 => 4 | .mxE5m2 => 5 | .mxE2m3 => 6
  | .mxE3m2 => 7 | .mxE2m1 => 8 | .mxInt8 => 9 | .bf16 => 10 | .fp16 => 11 | .fp32 => 12

/-- R49: bits of one element. -/
def Fmt.elemBits : Fmt → Nat
  | .int8 | .e4m3 | .e5m2 | .mxE4m3 | .mxE5m2 | .mxInt8 => 8
  | .int4 | .mxE2m1 => 4
  | .mxE2m3 | .mxE3m2 => 6
  | .bf16 | .fp16 => 16
  | .fp32 => 32

/-- R49: whether the format has a shared scale. -/
def Fmt.mx : Fmt → Bool
  | .mxE4m3 | .mxE5m2 | .mxE2m3 | .mxE3m2 | .mxE2m1 | .mxInt8 => true
  | _ => false

/-- R49: the class that pairs operands. -/
inductive FmtClass
  | c8 | c46 | c16 | none
  deriving DecidableEq, Repr

/-- R49, R57. -/
def Fmt.cls : Fmt → FmtClass
  | .int8 | .e4m3 | .e5m2 | .mxE4m3 | .mxE5m2 | .mxInt8 => .c8
  | .int4 | .mxE2m3 | .mxE3m2 | .mxE2m1 => .c46
  | .bf16 | .fp16 => .c16
  | .fp32 => .none

/-- An exact value: (−1)^neg · mag · 2^exp, an infinity, or NaN. -/
inductive Val
  | fin (neg : Bool) (mag : Nat) (exp : Int)
  | inf (neg : Bool)
  | nan
  deriving DecidableEq, Repr

/-- The exact value of an integer times a power of two. -/
def Val.ofInt (i exp : Int) : Val := .fin (decide (i < 0)) i.natAbs exp

/-- R50: what the all-ones exponent of a floating format holds. -/
inductive TopCode
  | ieee    -- infinity and NaN
  | e4m3    -- only S.1111.111 is NaN
  | finite  -- ordinary numbers
  deriving DecidableEq, Repr

/-- R50: exponent bits, mantissa bits, bias, use of the top exponent. -/
structure FloatFmt where
  eb   : Nat
  mb   : Nat
  bias : Nat
  top  : TopCode
  deriving DecidableEq, Repr

/-- How one element of a format is encoded: a floating layout (R50), or an integer of n bits with a number of
fraction bits (R52). -/
inductive ElemKind
  | float (f : FloatFmt)
  | int (n frac : Nat)
  deriving DecidableEq, Repr

/-- R50, R52. -/
def Fmt.kind : Fmt → ElemKind
  | .int8 => .int 8 0
  | .int4 => .int 4 0
  | .mxInt8 => .int 8 6
  | .e4m3 | .mxE4m3 => .float ⟨4, 3, 7, .e4m3⟩
  | .e5m2 | .mxE5m2 => .float ⟨5, 2, 15, .ieee⟩
  | .mxE2m3 => .float ⟨2, 3, 1, .finite⟩
  | .mxE3m2 => .float ⟨3, 2, 3, .finite⟩
  | .mxE2m1 => .float ⟨2, 1, 1, .finite⟩
  | .bf16 => .float ⟨8, 7, 127, .ieee⟩
  | .fp16 => .float ⟨5, 10, 15, .ieee⟩
  | .fp32 => .float ⟨8, 23, 127, .ieee⟩

/-- R51, R56: the value of a floating element. -/
def FloatFmt.decode (f : FloatFmt) (w : Nat) : Val :=
  let m := w % 2 ^ f.mb
  let e := w / 2 ^ f.mb % 2 ^ f.eb
  let s := w / 2 ^ (f.mb + f.eb) % 2 == 1
  let ones := 2 ^ f.eb - 1
  if e = ones ∧ f.top = .ieee then (if m = 0 then .inf s else .nan)
  else if e = ones ∧ f.top = .e4m3 ∧ m = 2 ^ f.mb - 1 then .nan
  else if e = 0 then .fin s m (1 - (f.bias : Int) - f.mb)
  else .fin s (2 ^ f.mb + m) ((e : Int) - f.bias - f.mb)

/-- R50 to R52: the value of one element, without its shared scale. -/
def Fmt.decode (f : Fmt) (w : Nat) : Val :=
  match f.kind with
  | .float ff => ff.decode w
  | .int n frac => .ofInt (sgn n w) (-(frac : Int))

/-- Multiply an exact value by a power of two. -/
def Val.scale (k : Int) : Val → Val
  | .fin s m e => .fin s m (e + k)
  | v => v

/-- R53: an element under its E8M0 scale byte. -/
def Val.withScale (x : Nat) (v : Val) : Val := if x = 255 then .nan else v.scale ((x : Int) - 127)

/-- R60, R71: the exact product of two values: infinity times zero, and any NaN, is NaN. -/
def Val.mul : Val → Val → Val
  | .nan, _ => .nan
  | _, .nan => .nan
  | .fin s m e, .fin t n f => .fin (s != t) (m * n) (e + f)
  | .inf s, .inf t => .inf (s != t)
  | .inf s, .fin t n _ => if n = 0 then .nan else .inf (s != t)
  | .fin s m _, .inf t => if m = 0 then .nan else .inf (s != t)

/-- The signed integer of a finite value in units of 2^q, exact when q is at most its exponent. -/
def alignTo (neg : Bool) (mag : Nat) (exp q : Int) : Int :=
  let m : Int := (mag * 2 ^ (exp - q).toNat : Nat)
  if neg then -m else m

/-- Exact sum of two values: opposite infinities, and any NaN, give NaN (R73). The zero of a sum of opposite values is
positive, of two negative zeros negative (IEEE 754, round to nearest). -/
def Val.add : Val → Val → Val
  | .nan, _ => .nan
  | _, .nan => .nan
  | .inf s, .inf t => if s = t then .inf s else .nan
  | .inf s, .fin _ _ _ => .inf s
  | .fin _ _ _, .inf t => .inf t
  | .fin s m e, .fin t n f =>
    let q := min e f
    let i := alignTo s m e q + alignTo t n f q
    if i = 0 then .fin (s && t) 0 q else .ofInt i q

/-- Change of sign. -/
def Val.neg : Val → Val
  | .fin s m e => .fin (!s) m e
  | .inf s => .inf (!s)
  | .nan => .nan

/-- Floor of (−1)^neg · mag · 2^exp. -/
def floorVal (neg : Bool) (mag : Nat) (exp : Int) : Int :=
  let i : Int := if neg then -(mag : Int) else mag
  if 0 ≤ exp then i * (2 ^ exp.toNat : Nat) else i / (2 ^ (-exp).toNat : Nat)

/-- The position of the leading one: floor(log2(mag · 2^exp)) for mag not zero. -/
def topExp (mag : Nat) (exp : Int) : Int := (mag.log2 : Int) + exp

/-- Comparison of magnitudes m·2^e < n·2^f, exact. -/
def magLt (m : Nat) (e : Int) (n : Nat) (f : Int) : Bool :=
  let q := min e f
  decide (m * 2 ^ (e - q).toNat < n * 2 ^ (f - q).toNat)

/-- R77, R78: the rounding mode; stochastic rounding uses one 32-bit word. -/
inductive Rnd
  | nearest
  | stoch (r : BitVec 32)
  deriving DecidableEq, Repr

/-- R77, R78: the magnitude, in units of 2^q, of (−1)^neg · mag · 2^exp rounded to an integer number of units. -/
def roundUnits (rnd : Rnd) (neg : Bool) (mag : Nat) (exp q : Int) : Nat :=
  if q ≤ exp then mag * 2 ^ (exp - q).toNat
  else
    let d := 2 ^ (q - exp).toNat
    let k := mag / d
    let r := mag % d
    match rnd with
    | .nearest => if d < 2 * r ∨ (2 * r = d ∧ k % 2 = 1) then k + 1 else k
    | .stoch w =>
      if r = 0 then k
      else
        let fr := if neg then d - r else r
        let up := decide (2 ^ 32 ≤ fr * 2 ^ 32 / d + w.toNat)
        if neg then (if up then k else k + 1) else (if up then k + 1 else k)

/-- The exponent of the last place of a magnitude in a floating format. -/
def FloatFmt.ulp (f : FloatFmt) (mag : Nat) (exp : Int) : Int :=
  max (topExp mag exp - f.mb) (1 - (f.bias : Int) - f.mb)

/-- The encoding of k units of 2^q, q being a last place of the format. -/
def FloatFmt.pack (f : FloatFmt) (neg : Bool) (k : Nat) (q : Int) : Nat :=
  let s := if neg then 2 ^ (f.eb + f.mb) else 0
  if k < 2 ^ f.mb then s + k
  else if k < 2 ^ (f.mb + 1) then s + (q + f.mb + f.bias).toNat * 2 ^ f.mb + (k - 2 ^ f.mb)
  else s + (q + 1 + f.mb + f.bias).toNat * 2 ^ f.mb + (k / 2 - 2 ^ f.mb)

/-- R50: the encoding of the largest finite magnitude. -/
def FloatFmt.maxCode (f : FloatFmt) : Nat :=
  match f.top with
  | .ieee => (2 ^ f.eb - 1) * 2 ^ f.mb - 1
  | .e4m3 => 2 ^ (f.eb + f.mb) - 2
  | .finite => 2 ^ (f.eb + f.mb) - 1

/-- R81: the canonical NaN of a target; a target without NaN receives 0. -/
def Fmt.canonNan : Fmt → Nat
  | .fp32 => 0x7FC00000
  | .bf16 => 0x7FC0
  | .fp16 => 0x7E00
  | .e4m3 => 0x7F
  | .e5m2 => 0x7E
  | _ => 0

/-- The result of a conversion: the element, and its two flags (R80, R81). -/
structure Conv where
  code : Nat
  sat  : Bool
  nan  : Bool
  deriving DecidableEq, Repr

/-- R76 to R82: convert a value into the floating layout f, saturating. -/
def FloatFmt.convert (f : FloatFmt) (rnd : Rnd) (neg : Bool) (mag : Nat) (exp : Int) : Conv :=
  let s := if neg then 2 ^ (f.eb + f.mb) else 0
  if mag = 0 then ⟨s, false, false⟩
  else
    match f.decode f.maxCode with
    | .fin _ mm me =>
      if magLt mm me mag exp then ⟨s + f.maxCode, true, false⟩
      else
        let q := f.ulp mag exp
        ⟨f.pack neg (roundUnits rnd neg mag exp q) q, false, false⟩
    | _ => ⟨s + f.maxCode, true, false⟩

/-- R76 to R82 for an integer target of n bits with frac fraction bits. DEDUCED (assumption 17): the maximum "with its
own sign" of a two's-complement target is the end of its range. -/
def intConvert (n frac : Nat) (rnd : Rnd) (neg : Bool) (mag : Nat) (exp : Int) : Conv :=
  let hi : Nat := 2 ^ (n - 1) - 1
  let lo : Nat := 2 ^ (n - 1)
  let lim := if neg then lo else hi
  let k := roundUnits rnd neg mag exp (-(frac : Int))
  let sat := magLt lim (-(frac : Int)) mag exp || decide (lim < k)
  let v := if sat then lim else k
  ⟨wrapInt n (if neg then -(v : Int) else v), sat, false⟩

/-- R76 to R82: convert an exact value into an element of f (without choosing a shared scale). -/
def Fmt.convert (f : Fmt) (rnd : Rnd) (v : Val) : Conv :=
  match v with
  | .nan => ⟨f.canonNan, false, true⟩
  | .inf s =>
    match f.kind with
    | .float ff => ⟨(if s then 2 ^ (ff.eb + ff.mb) else 0) + ff.maxCode, true, false⟩
    | .int n _ => ⟨wrapInt n (if s then -(2 ^ (n - 1) : Nat) else (2 ^ (n - 1) - 1 : Nat)), true, false⟩
  | .fin s m e =>
    match f.kind with
    | .float ff => ff.convert rnd s m e
    | .int n frac => intConvert n frac rnd s m e

/-- R83: emax of an element format. -/
def Fmt.emax : Fmt → Nat
  | .mxE4m3 => 8 | .mxE5m2 => 15 | .mxE2m3 => 2 | .mxE3m2 => 4 | .mxE2m1 => 2 | _ => 0

/-- The larger of two magnitudes, as a pair; an infinity is kept aside. -/
def magMax (a b : Nat × Int) : Nat × Int :=
  if a.1 = 0 then b else if b.1 = 0 then a else if magLt a.1 a.2 b.1 b.2 then b else a

/-- R83: the shared scale of a block of values. -/
def mxScale (f : Fmt) (vs : List Val) : Nat :=
  if vs.any (fun v => v = .nan) then 255
  else if vs.any (fun v => match v with | .inf _ => true | _ => false) then 254
  else
    let amax := vs.foldl (fun a v => match v with | .fin _ m e => magMax a (m, e) | _ => a) (0, 0)
    if amax.1 = 0 then 127
    else
      let x := topExp amax.1 amax.2 - f.emax + 127
      if x < 0 then 0 else if 254 < x then 254 else x.toNat

/-- R81, R83: a block of values converted to an MX format: the scale byte and the elements. -/
def mxConvert (f : Fmt) (rnds : List Rnd) (vs : List Val) : Nat × List Conv :=
  let x := mxScale f vs
  (x, (vs.zip rnds).map (fun p =>
    if x = 255 then ⟨0, false, p.1 = .nan⟩ else f.convert p.2 (p.1.scale (127 - (x : Int)))))

/-! ### FP32 as IEEE 754 has it (R73) -/

/-- The FP32 layout. -/
def fp32 : FloatFmt := ⟨8, 23, 127, .ieee⟩

/-- The value of an FP32 word. -/
def f32Val (w : BitVec 32) : Val := fp32.decode w.toNat

/-- R73: round an exact value to FP32, to nearest with ties to even; overflow produces infinity and NaN is
0x7FC0_0000. -/
def f32Round (v : Val) : BitVec 32 :=
  match v with
  | .nan => 0x7FC00000#32
  | .inf s => if s then 0xFF800000#32 else 0x7F800000#32
  | .fin s m e =>
    if m = 0 then (if s then 0x80000000#32 else 0#32)
    else
      let q := fp32.ulp m e
      let k := roundUnits .nearest s m e q
      if magLt (2 ^ 24 - 1) 104 k q then (if s then 0xFF800000#32 else 0x7F800000#32)
      else BitVec.ofNat 32 (fp32.pack s k q)

/-! ### Gauged accumulation (R61 to R67) -/

/-- R61: a gauge record. In float mode g and h are recorded as zero. -/
structure Gauge where
  mode : Bool := false
  g    : Int := 0
  h    : Nat := 0
  deriving DecidableEq, Repr

/-- The gauge record as the 16 bits of R134: G in [9:0], H in [14:10], MODE in [15]. -/
def Gauge.code (g : Gauge) : Nat := wrapInt 10 g.g + g.h * 1024 + b2n g.mode * 32768

/-- The gauge record of 16 bits. -/
def Gauge.ofCode (n : Nat) : Gauge :=
  if bit n 15 then ⟨true, 0, 0⟩ else ⟨false, sgn 10 n, bits n 14 10⟩

/-- R67: an accumulator entry's 96-bit value and its three sticky flags; in float mode (R72) the FP32 word stands in
bits [31:0]. -/
structure AccEnt where
  a     : Int := 0
  nan   : Bool := false
  range : Bool := false
  sat   : Bool := false
  deriving DecidableEq, Repr

/-- R65: the limit of a product. -/
def prodLim (h : Nat) : Int := 2 ^ (95 - h) - 1

/-- R65, R71: one product as an integer number of units, with its NAN and RANGE events. -/
def gaugeProduct (g : Gauge) (p : Val) : Int × Bool × Bool :=
  let lim := prodLim g.h
  match p with
  | .nan => (0, true, false)
  | .inf s => (if s then -lim else lim, false, true)
  | .fin s m e =>
    let pu := floorVal s m (e + (64 - g.g))
    if lim < pu then (lim, false, true)
    else if pu < -lim then (-lim, false, true)
    else (pu, false, false)

/-- R66: add to an entry, saturating at ±(2^95 − 1). -/
def accAdd (e : AccEnt) (add : Int) (nan range sat : Bool) : AccEnt :=
  let t := e.a + add
  let hi : Int := 2 ^ 95 - 1
  let above := decide (hi < t) || decide (t < -hi)
  ⟨if hi < t then hi else if t < -hi then -hi else t, e.nan || nan, e.range || range, e.sat || sat || above⟩

/-- R66: the products of one step added to an entry in gauged mode. -/
def accStepGauged (g : Gauge) (e : AccEnt) (ps : List Val) : AccEnt :=
  let r := ps.foldl (fun (acc : Int × Bool × Bool) p =>
    let q := gaugeProduct g p
    (acc.1 + q.1, acc.2.1 || q.2.1, acc.2.2 || q.2.2)) (0, false, false)
  accAdd e r.1 r.2.1 r.2.2 false

/-- R72, R73: the products of one step added to an entry in float mode: the exact sum rounded once, then added with one
more rounding. R71: −0 is the same as +0 in the array, so a zero sum adds as +0. -/
def accStepFloat (e : AccEnt) (ps : List Val) : AccEnt :=
  let sum := ps.foldl (fun a p => Val.add a p) (.fin false 0 0)
  let s := f32Round sum
  let t := f32Round (Val.add (f32Val (BitVec.ofInt 32 e.a)) (f32Val s))
  { e with a := t.toNat }

/-- One step's products into an entry under a gauge record. -/
def accStep (g : Gauge) (e : AccEnt) (ps : List Val) : AccEnt :=
  if g.mode then accStepFloat e ps else accStepGauged g e ps

/-- R76: the exact value of an entry under the gauge record of its row. -/
def accVal (g : Gauge) (e : AccEnt) : Val :=
  if e.nan then .nan
  else if g.mode then f32Val (BitVec.ofInt 32 e.a)
  else .ofInt e.a (g.g - 64)

end Sys2Proof.Machine
end

