-- ==== Sys2Proof/Machine/ClusterTypes.lean ====
section
/-! DEFINITION. Sys2Proof/Machine/ClusterTypes.lean: the state of one compute cluster
(03_matrix_array.md to 08_streams.md and the local block of 10_synchronisation.md), as plain data. -/

namespace Sys2Proof.Machine

/-! ### Queues (R228, R229, R233) -/

/-- An engine instruction in its unit's queue: the word, the operand values read at issue (R228), its issue sequence
number (R229), and the cluster-wide issue order the scoreboard keeps (R144). -/
structure QInsn where
  word : BitVec 32
  rs1  : Word
  rs2  : Word
  seq  : Nat
  tk   : Nat
  deriving DecidableEq, Repr

/-- R233: a handle-queue entry, with the mark of the stream that pushed it as its own (R315): cluster and number. -/
structure HEntry where
  word : BitVec 32
  own  : Option (Nat × Nat) := none
  deriving DecidableEq, Repr

/-- R274, R275: a buffer as a prop-table entry describes it: first byte and bytes. -/
structure Buf where
  base : Nat
  size : Nat
  deriving DecidableEq, Repr

/-! ### Tile registers (R136 to R152) -/

/-- One tile register. shape 0 is UNSET (R137, R171). A row is valid when its elements and scales have all been
written. badData and badScale are the poisoned 64-bit words of the two stores (R163, R340). -/
structure Tile where
  shape    : Nat := 0
  fmt      : Fmt := .int8
  pair     : Bool := false
  member   : Bool := false
  rows     : Nat := 0
  valid    : List Nat := []
  elemW    : List Nat := []
  scaleW   : List Nat := []
  poison   : Bool := false
  data     : List (Nat × Byte) := []
  scale    : List (Nat × Byte) := []
  badData  : List Nat := []
  badScale : List Nat := []
  deriving DecidableEq, Repr

/-- A row read of a running tile.ld that has come back: its bytes and scale bytes, or the failure cause of R150. -/
structure LdRow where
  k     : Nat
  bytes : List Byte
  sc    : List Byte
  cause : Nat
  deriving DecidableEq, Repr

/-- R149 to R151: a running tile.ld. back holds the row reads that are back and not yet written; done rows are written. -/
structure TileLd where
  tk     : Nat
  t      : Nat
  addr   : Nat
  first  : Nat
  count  : Nat
  stride : Nat
  scoff  : Nat
  back   : List LdRow := []
  done   : Nat := 0
  deriving DecidableEq, Repr

/-! ### The matrix array (R88 to R135) -/

/-- R89, R90, R97: one stationary store. The bytes are in tile-register order (R104); tk names the mx.load that put the
tile there. -/
structure Store where
  held    : Bool := false
  fmt     : Fmt := .int8
  pack    : Nat := 0
  rep     : Bool := false
  flagged : Bool := false
  tk      : Nat := 0
  data    : List (Nat × Byte) := []
  scale   : List (Nat × Byte) := []
  deriving DecidableEq, Repr

/-- R111, R768: an accepted mx.load; started counts its steps once the transfer has begun. -/
structure MxLoad where
  tk      : Nat
  t       : Nat
  pack    : Nat
  rep     : Bool
  fmt     : Fmt
  started : Option Nat := none
  tile    : Store := {}
  deriving DecidableEq, Repr

/-- R107: the peak report of one run or of the register CL_MX_PEAK. -/
structure Peak where
  any : Bool := false
  hi  : Int := 0
  lo  : Int := 0
  nan : Bool := false
  inf : Bool := false
  deriving DecidableEq, Repr

/-- R126, R131, R132: an accepted mx.run and its progress. tile and store are set when its first row enters. -/
structure MxRun where
  tk       : Nat
  num      : Nat
  count    : Nat
  base     : Nat
  clr      : Bool
  swap     : Bool
  axis     : Bool
  cb       : Nat
  fmt      : Fmt
  gauge    : Gauge
  pack     : Nat
  treg     : Option Nat
  handle   : Option HEntry
  buf      : Buf
  accepted : Nat
  admitted : Nat := 0
  begun    : Bool := false
  store    : Nat := 0
  tile     : Store := {}
  verdicts : Nat := 0
  peak     : Peak := {}
  deriving DecidableEq, Repr

/-- One stream row's operand bytes: elements and scales as packed (R94), and whether a poisoned word of the matrix feed
marks its entries NAN (R267). -/
structure RowOps where
  elems  : List Byte
  scales : List Byte
  nan    : Bool := false
  deriving DecidableEq, Repr

/-- R108: the rows admitted together in one step, with their age in non-frozen steps. j is the first stream row; slips and
unchk name the rows of it with a wrong product (R122), or not to be checked (R123). -/
structure Flight where
  tk    : Nat
  j     : Nat
  age   : Nat := 0
  rows  : List RowOps
  slips : List Nat := []
  unchk : List Nat := []
  deriving DecidableEq, Repr

/-- R116: the activity ramp. -/
structure Ramp where
  active : Bool := false
  i      : Nat := 0
  credit : Nat := 0
  deriving DecidableEq, Repr

/-- R95, R112: a push that the array has due: a handle onto the return queue, or a result entry. -/
inductive ArrPush
  | handle (e : HEntry)
  | result (w : BitVec 32)
  deriving DecidableEq, Repr

/-- The matrix array of a cluster and its accumulator memory (R153 to R157). -/
structure MxArray where
  st0      : Store := {}
  st1      : Store := {}
  active   : Nat := 0
  gauge    : Gauge := {}
  loads    : List MxLoad := []
  runs     : List MxRun := []
  flights  : List Flight := []
  admitted : Option Nat := none
  idle     : Nat := 16
  ramp     : Ramp := {}
  pushes   : List ArrPush := []
  frozen   : Bool := false
  nextRun  : Nat := 0
  lastRun  : Nat := 0
  peak     : Peak := {}
  peakRun  : Nat := 0
  acc      : List (Nat × AccEnt) := []
  blocks   : List (Nat × Nat) := []
  deriving DecidableEq, Repr

/-! ### The vector engine (R173 to R212) -/

/-- R199: the event counts of a chain, in the order of the summary record. -/
structure VxCounts where
  nanent   : Nat := 0
  rangeent : Nat := 0
  satent   : Nat := 0
  nanin    : Nat := 0
  invalid  : Nat := 0
  divz     : Nat := 0
  cvtsat   : Nat := 0
  cvtnan   : Nat := 0
  grange   : Nat := 0
  ue       : Nat := 0
  deriving DecidableEq, Repr

/-- A value in a lane: FP32, or in a gauged chain (R197) a raw entry with its block's record. -/
structure Raw where
  ent   : AccEnt := {}
  held  : Bool := false
  gauge : Gauge := {}
  deriving DecidableEq, Repr

/-- R193 to R195: the running state of the reduction tree. -/
structure Tree where
  any  : Bool := false
  seen : Bool := false
  f    : BitVec 32 := 0
  idx  : Nat := 0
  raw  : Raw := {}
  deriving DecidableEq, Repr

/-- R205: a value that waits in the block buffer of an assembled sink, with the words its conversion draws. -/
structure AsmVal where
  val : Val
  rnd : Rnd
  deriving DecidableEq, Repr

/-- R186, R204: an accepted chain and its progress. wrote holds the element places it has written of tile registers
(R183); asm the block buffer by element place (R205); cmp tells that its beat digests are formed (R530). -/
structure Chain where
  num     : Nat
  tk      : Nat
  desc    : List Byte
  sig     : Option Nat
  src     : Option HEntry := none
  sink    : Option HEntry := none
  bufs    : List (Nat × Buf) := []
  beat    : Nat := 0
  stopped : Bool := false
  counts  : VxCounts := {}
  tree    : Tree := {}
  result  : List Byte := []
  wrote   : List Nat := []
  asm     : List (Nat × AsmVal) := []
  loaded  : Bool := false
  pass    : Nat := 0
  cmp     : Bool := false
  digests : List (BitVec 32) := []
  deriving DecidableEq, Repr

/-- R191, R192: a table slot. -/
structure TableSlot where
  valid : Bool := false
  ent   : List (BitVec 32) := []
  deriving DecidableEq, Repr

/-- The vector engine of a cluster. hold counts the steps for which a beat occupies its busiest port (R174, R209); held
tells a hold in the last step; log is the digest log of R536: ordinal, beat, digest. -/
structure Vx where
  chains    : List Chain := []
  nextChain : Nat := 0
  lastChain : Nat := 0
  t0 : TableSlot := {}
  t1 : TableSlot := {}
  t2 : TableSlot := {}
  t3 : TableSlot := {}
  summary   : List (Nat × Byte) := []
  hold      : Nat := 0
  held      : Bool := false
  log       : List (Nat × Nat × BitVec 32) := []
  deriving DecidableEq, Repr

/-! ### Streams (R302 to R346) -/

/-- R308, R323: a fill in progress: the handles and buffers of its members, its bytes (of a ring-feed fill, once they have
arrived), and the bytes already written or read. -/
structure Fill where
  f       : Nat
  handles : List (Nat × HEntry × Buf)
  len     : Nat := 0
  got     : Nat := 0
  pushed  : List Nat := []
  deriving DecidableEq, Repr

/-- R339: how a stream ends: STATE, STATUS and the fields of its state block that the reason gives. -/
structure StopInfo where
  state    : Nat
  status   : Nat
  indexPos : Nat := 0
  indexVal : Nat := 0
  faddr    : Nat := 0
  handle   : Nat := 0
  member   : Nat := 0
  deriving DecidableEq, Repr

/-- A stream in a slot. -/
structure Strm where
  num    : Nat
  tk     : Nat
  desc   : List Byte
  halted : Option Nat := none
  base   : Nat := 0
  issued : Nat := 0
  doneR  : List (Nat × Nat) := []
  fills  : List Fill := []
  begun  : Nat := 0
  pushedF : Nat := 0
  hbuf   : Buf := ⟨0, 0⟩
  ibuf   : Buf := ⟨0, 0⟩
  idx    : List Nat := []
  poison : Nat := 0
  failF  : Option Nat := none
  stop   : Option StopInfo := none
  wait   : Nat := 0
  waitOn : Nat := 0
  alarmed : Bool := false
  deriving DecidableEq, Repr

/-- R318: an outstanding transfer: its slot's stream, place in the byte sequence, length and address. A store carries
the bytes it read; bad are the places of bytes from poisoned words, or of a fetch those that parity found bad (R722). phys is the HBM address that addr led to at issue.
xslot numbers the store engine's transfer slots (R454). -/
structure Xfer where
  slot  : Nat
  num   : Nat
  pos   : Nat
  len   : Nat
  addr  : Nat
  phys  : Nat := 0
  data  : List Byte := []
  bad   : List Nat := []
  xslot : Nat := 0
  sent  : Option Nat := none
  ready : Bool := false
  rejected : Bool := false
  deriving DecidableEq, Repr

/-- The fetch and store engines of a cluster. -/
structure Streams where
  slots   : List (Nat × Strm) := []
  xfers   : List Xfer := []
  next    : Nat := 0
  last    : Nat := 0
  deriving DecidableEq, Repr

/-! ### Scratchpad, caches and arrivals (R259 to R300) -/

/-- R270: a running fill or copy; src holds the source bytes and poison marks as the copy found them. -/
structure SpOp where
  copy : Bool
  dst  : Nat
  len  : Nat
  val  : Word
  src  : List Byte := []
  bad  : List Nat := []
  ctr  : Nat
  sig  : Bool
  srcAt : Nat := 0
  deriving DecidableEq, Repr

/-- Who sent an arrival, for its answer (R282, R454): a core with its issue ticket at the time, a store stream of this chip, a frame, or the host. -/
inductive Sender
  | core (c tk : Nat)
  | stream (c xslot num : Nat)
  | link (chip clus xslot : Nat) (xend : Bool)
  | host
  deriving DecidableEq, Repr

/-- R280: an arrival: source chip, byte offset, its words with poison marks, and the atomic operation if it is one. -/
structure Arrival where
  chip  : Nat
  off   : Nat
  words : List Word
  bad   : List Nat := []
  amo   : Option Nat := none
  from_ : Sender
  deriving DecidableEq, Repr

/-- R281, R283: an admitted arrival with its window's counter, and whether it counts words. -/
structure Admitted where
  arr : Arrival
  ctr : Nat
  inc : Bool
  deriving DecidableEq, Repr

/-- R454: a transfer from another chip of which an arrival was rejected: its sender, the address rejected first, and whether
its last frame has been checked. -/
structure RejXfer where
  chip  : Nat
  clus  : Nat
  xslot : Nat
  addr  : Nat
  last  : Bool := false
  deriving DecidableEq, Repr

/-- R284, R290, R350: one line of the cluster cache. dirty and bad are bit masks over its eight words. -/
structure CLine where
  tag   : Nat
  data  : List Byte
  dirty : Nat := 0
  bad   : Nat := 0
  cls   : Nat := 0
  hint  : Nat := 1
  ctx   : Nat := 0
  age   : Nat := 0
  pf    : Bool := false
  deriving DecidableEq, Repr

/-- A core access waiting on a cluster-cache miss (R285): a load into rd, or store bytes, with the pc of its instruction. -/
inductive MissUse
  | load (rd size : Nat) (signed : Bool) (addr : Nat) (pc : Word)
  | store (addr : Nat) (bytes : List Byte) (pc : Word)
  deriving DecidableEq, Repr

/-- R285, R295: an outstanding miss of a line: the uses waiting on it; none of them for a prefetch. -/
structure Miss where
  line : Nat
  uses : List MissUse
  pf   : Bool := false
  deriving DecidableEq, Repr

/-- R295: one tracked miss sequence: last line and stride in lines. -/
structure MissSeq where
  last   : Nat
  stride : Int
  deriving DecidableEq, Repr

/-! ### The local synchronisation block (R371 to R402) -/

/-- The counter a watch names: local, or a physical device counter. -/
inductive CtrRef
  | loc (n : Nat)
  | dev (p : Nat)
  deriving DecidableEq, Repr

/-- R378 to R383: a watch. registered is false until it has reached its counter (R380); done
is set once its one cue is on its way. -/
structure Watch where
  ctr        : CtrRef
  value      : Nat
  scope      : Nat
  timeout    : Nat
  deadline   : Option Nat := none
  registered : Bool := false
  done       : Bool := false
  deriving DecidableEq, Repr

/-- R381: a watch slot. -/
inductive WSlot
  | free
  | armed (w : Watch) (cuectr : Nat)
  | cued (cue : Word)
  deriving DecidableEq, Repr

/-- R378: the core's wait entry: the awaited register, and whether it is a sy.waitinv. -/
structure WaitEnt where
  rd    : Nat
  inv   : Bool
  watch : Watch
  deriving DecidableEq, Repr

/-! ### The control core (R213 to R258) -/

/-- R256: whether a kernel runs on the core. That it waits or is halted follows from its stall and from HALT. -/
inductive CoreMode
  | stopped | running
  deriving DecidableEq, Repr

/-- What the core waits for (R232, R252 to R255, R489, R767): nothing; a cue into rd; fences over instructions issued
before a ticket; EXIT's fence.kern with its code; cache.inv; a page, with the exception due and its address if the page cannot be
brought in; host data. -/
inductive Stall
  | none
  | cue (rd : Nat)
  | fenceEng (mask tk : Nat)
  | fenceKern (tk : Nat)
  | exit (tk code : Nat)
  | cacheInv (lo len : Nat)
  | page (page cause : Nat) (addr : Word)
  | hostRead (rd size : Nat) (signed : Bool) (addr len : Nat)
  deriving DecidableEq, Repr

/-- R246, R251: the report of a kernel's end. -/
structure EndRep where
  status : Nat
  mcause : Word
  mepc   : Word
  mtval  : Word
  deriving DecidableEq, Repr

/-- R220: the branch predictor. -/
structure Predictor where
  ctrs : List (Nat × Nat) := []
  hist : Nat := 0
  btb  : List (Nat × Word) := []
  ras  : List Word := []
  deriving DecidableEq, Repr

/-- The control core. step lets one instruction execute though HALT is set (R738, R739); area is where the interrupted
code's registers are saved (R245). resv is the LR reservation: a scratchpad word, or a line of global memory (R265, R287). -/
structure CoreSt where
  x       : Vector Word 32 := Vector.replicate 32 0
  pc      : Word := 0
  user    : Bool := false
  mcause  : Word := 0
  mepc    : Word := 0
  mtval   : Word := 0
  mstatus : Word := 0
  pmpcfg  : List (Nat × Byte) := []
  pmpaddr : List (Nat × Word) := []
  instret : Word := 0
  mode    : CoreMode := .stopped
  exited  : Bool := false
  exitCode : BitVec 32 := 0
  awaiting : List Nat := []
  stall   : Stall := .none
  resv    : Option (Bool × Nat) := none
  handler : Word := 0
  fwd     : Nat := 0
  inHand  : Bool := false
  handPend : Nat := 0
  irqs    : List Nat := []
  icache  : List (Nat × List Byte) := []
  pred    : Predictor := {}
  endRep  : Option EndRep := none
  bpHit   : Bool := false
  step    : Bool := false
  area    : Word := 0
  deriving DecidableEq, Repr

/-- R228: the unit of an engine instruction. -/
structure UnitQs where
  q    : List QInsn := []
  seq  : Nat := 0
  deriving DecidableEq, Repr

/-- R561: a stream of the running launch that ended STOPPED or CANCELLED: slot, number, state, status and resume token. -/
structure EndedStrm where
  slot   : Nat
  num    : Nat
  state  : Nat
  status : Nat
  token  : List Byte
  deriving DecidableEq, Repr

/-- One cluster. fltSt holds the status of each unit's last fault (R245); regs holds the stored fields of its register block by offset (R256). -/
structure Cluster where
  core   : CoreSt := {}
  steps  : Nat := 0
  owner  : Nat := 0
  wiping : Bool := false
  launch : Option (Nat × Nat) := none
  tk     : Nat := 0
  uq     : Vector UnitQs 5 := Vector.replicate 5 {}
  hq     : Vector (List HEntry) 8 := Vector.replicate 8 []
  resq   : List (BitVec 32) := []
  tiles  : Vector Tile 8 := Vector.replicate 8 {}
  lds    : List TileLd := []
  arr    : MxArray := {}
  vx     : Vx := {}
  st     : Streams := {}
  sp     : List (Nat × Byte) := []
  bad    : List Nat := []
  fix    : List Nat := []
  op     : Option SpOp := none
  waitA  : List Arrival := []
  admA   : List Admitted := []
  rejs   : List RejXfer := []
  cc     : List (Nat × CLine) := []
  misses : List Miss := []
  seqs   : List MissSeq := []
  lctr   : List (Nat × Nat) := []
  ws     : Vector WSlot 16 := Vector.replicate 16 .free
  wait   : Option WaitEnt := none
  sigs   : Nat := 0
  rateN  : Nat := 0
  rateOk : Bool := false
  rateMm : Bool := false
  rateWin : Nat := 0
  fltSt  : List (Nat × Nat) := []
  hangAt : Nat := 0
  hung   : Bool := false
  ord    : Nat := 0
  flags  : Nat := 0
  ended  : List EndedStrm := []
  regs   : List (Nat × Word) := []
  deriving DecidableEq, Repr

end Sys2Proof.Machine
end

