-- ==== Sys2Proof/Machine/DeviceTypes.lean ====
section
/-! DEFINITION. Sys2Proof/Machine/DeviceTypes.lean: the state of the security element (19_security.md), of power, clocks and
thermal protection (20_power_clocks_thermal.md), of starting up (18_startup_reset_lifecycle.md), and of the test access port
and the management bus (21_errors_debug.md, 22_package.md), as plain data. -/

namespace Sys2Proof.Machine

/-- R679: an SPDM session of a mailbox: its number, whether FINISH has been accepted, the period and the last time of its
heartbeats, its transcript, the responder's ephemeral secret, and the key updates of each direction. -/
structure SpdmSess where
  id     : Nat
  done   : Bool := false
  hbeat  : Bool := false
  seen   : Nat := 0
  th     : List Byte := []
  secret : BitVec 256 := 0
  reqGen : Nat := 0
  rspGen : Nat := 0
  deriving DecidableEq, Repr

/-- R606, R679: the DOE mailbox of a function: how far the connection is negotiated (1 version, 2 capabilities, 3 algorithms),
the transcript so far, the last response object, and the sessions. -/
structure Mailbox where
  conn  : Nat := 0
  log   : List Byte := []
  resp  : List Byte := []
  sess  : List SpdmSess := []
  next  : Nat := 1
  deriving DecidableEq, Repr

/-- The security element: FWMEAS and header of the booted image (R665, R669) and the device's certificates, identity then
attestation (R675); the image slots of the flash as written, empty for the image as shipped (R668), the boot control record
(R671) and the recovery image (R673); the fuses that can change (R662); the flash key, with the life-cycle state recorded
beside it (R659, R685); the mailboxes; the debug nonce and the token under verification (R733); an FW_UPDATE has ended its
checks and an image waits (R674). -/
structure Security where
  fwMeas : BitVec 256 := 0
  header : List Byte := []
  certs  : List Byte := []
  slotA  : List Byte := []
  slotB  : List Byte := []
  active : Nat := 0
  pend   : Bool := false
  tries  : Nat := 0
  recovery : List Byte := []
  rootRev : Nat := 0
  floor  : Nat := 0
  lc     : Nat := 1
  owner  : Option (BitVec 256) := none
  flashKey : BitVec 256 × BitVec 256 := (0, 0)
  flashLc : Nat := 1
  mail   : List (Nat × Mailbox) := []
  nonce  : BitVec 256 := 0
  token  : Option (List Byte) := none
  deriving DecidableEq, Repr

/-- Power, clocks and thermal protection. uptime counts the nanoseconds of the standby domain; vin and vstby: the inputs are in
range, on: power good has come. opened holds the times of the openings of the input switch (R713); shut: a thermal shutdown is
in force; above holds the sensors at their shutdown limit at the last reading, by number (junction 0 to 63, stack 64 to 71,
optical engine 72 to 79), hot the optical engines at 80 °C; samples are the last 100 measurements of power in W, uj the
energy taken beyond the last whole millijoule, in µJ (R707, R721); capNow is the effective cap in force; thermV the voltage
that the thermal rule allows (R715); clamp: the clamp holds, since clampFrom, and clampAt is when the current fell below 32 A;
lost are the domains without lock and since when, dead those among them that stay stopped (R704). -/
structure Power where
  uptime : Nat := 0
  vin    : Bool := false
  vstby  : Bool := false
  on     : Bool := false
  tripTherm : Bool := false
  tripOc : Bool := false
  opened : List Nat := []
  isOpen : Bool := false
  shut   : Bool := false
  above   : List Nat := []
  hot    : List Nat := []
  samples : List Nat := []
  uj     : Nat := 0
  capNow : Nat := 1200
  thermV : Option Nat := none
  clamp  : Bool := false
  clampFrom : Nat := 0
  clampAt : Option Nat := none
  lost   : List (Nat × Nat) := []
  dead   : List Nat := []
  deriving DecidableEq, Repr

/-- Starting up: straps are the strap pins (R757; the values sampled are in MG_SU_STRAP); base is the uptime at which the deadlines begin, fwOk that
an image is loaded, fromPend that it came from the pending slot (R672); mounted, mountFails and trainFails follow the flies
mount and the stacks' training (R641); missed holds the deadlines reported; kick is the time of the last KICK (R646); flrs are the contexts whose frames are still being zeroed (R649). -/
structure Boot where
  straps : Nat := 2
  base   : Nat := 0
  fwOk   : Bool := false
  fromPend : Bool := false
  mounted : Bool := false
  mountFails : Nat := 0
  trainFails : List (Nat × Nat) := []
  missed : List Nat := []
  kick   : Nat := 0
  flrs   : List Nat := []
  deriving DecidableEq, Repr

/-- R736, R737: the test access port: its instruction, the boundary register, whether EXTEST drives the pins, and DBG_REG: the
access under way, the data of the last read and its status. -/
structure Jtag where
  ir     : Nat := 2
  bound  : BitVec 64 := 0
  drive  : Bool := false
  acc    : Option (BitVec 96) := none
  data   : Word := 0
  status : Nat := 0
  bypass : Bool := false
  deriving DecidableEq, Repr

/-- R762 to R765: the management bus: its mode, the dynamic address, the status of the last write, the object in progress and
whether it is being checked, and the alert causes. -/
structure MgmtBus where
  i3c    : Bool := false
  dyn    : Option Nat := none
  status : Nat := 0
  busy   : Bool := false
  obj    : Nat := 0
  len    : Nat := 0
  bulk   : List (Nat × Byte) := []
  alerts : List Nat := []
  deriving DecidableEq, Repr

end Sys2Proof.Machine
end

