-- ==== Sys2Proof/Machine/IbzarTypes.lean ====
section
/-! DEFINITION. Sys2Proof/Machine/IbzarTypes.lean: commands in flight, programs and launches (15_ibzar_commands.md), and
the shard table and flies images (13_weights.md), as plain data. -/

namespace Sys2Proof.Machine

/-! ### Commands (R543 to R581) -/

/-- R579: how one cluster of a launch ended: EXIT with its code, or a fault with its status. -/
structure KEnd where
  clus   : Nat
  exited : Bool
  code   : Nat := 0
  status : Nat := 0
  deriving DecidableEq, Repr

/-- R580, R651, R725: why a launch, or another long command, is ended before its time: the cause status. -/
inductive CmdEnd
  | none | cancel | timeout | fault (status clus : Nat)
  deriving DecidableEq, Repr

/-- A command taken and not yet replied (R547, R553). pkt is the whole packet; room is the reply-ring room held for it
(R547); work counts what is done (R561); lastPass is the last pass released since it began; origin names the manager's
chip and relay number when it came by RELAY (R587). For a LAUNCH: running, the deadline of TIMEOUT, and the ends of its
clusters. -/
structure Cmd where
  seq      : Nat
  pkt      : List Byte
  room     : Nat
  started  : Bool := false
  work     : Nat := 0
  lastPass : Option Nat := none
  origin   : Option (Nat × Nat) := none
  running  : Bool := false
  deadline : Option Nat := none
  ends     : List KEnd := []
  ended    : CmdEnd := .none
  usWhole  : Bool := false
  usDiv    : Bool := false
  deriving DecidableEq, Repr

/-- R576: a loaded program; prog is the SHA3-256 of its binary. -/
structure Prog where
  id    : Nat
  caddr : Nat
  len   : Nat
  prog  : List Byte
  deriving DecidableEq, Repr

/-- R681, R683: a weight key of a context: generation, key and identity. -/
structure WKey where
  gen : Nat
  key : BitVec 256
  ident : BitVec 256
  deriving DecidableEq, Repr

/-! ### Shards (R483 to R509) -/

/-- R583, R499, R506: the state of a shard. -/
inductive ShState
  | loading | resident | backed | staged | moving | bad
  deriving DecidableEq, Repr

/-- A shard of the table. frames holds its HBM frames in page order; fly its flies image; host its image in host memory.
injSince counts injections since the last check (R498), inj when it was last injected (R504), check when it was last
checked; wait holds its next injection back (R498). cmd is the load that awaits its reply. stamp is the pass its records
carry (R487). attempts counts the failed re-fetches (R499). early holds the launches taken before a standalone replacement
(R509). -/
structure Shard where
  ctx      : Nat
  id       : Nat
  len      : Nat
  caddr    : Nat
  first    : Nat
  period   : Nat
  first2   : Nat
  period2  : Nat
  digest   : BitVec 256
  writable : Bool := false
  pin      : Bool := false
  keepfly  : Bool := false
  host     : Option Nat := none
  fly      : Option Nat := none
  gen      : Nat := 0
  replaces : Option Nat := none
  at_      : Nat := 0
  frames   : List Nat := []
  state    : ShState := .loading
  stamp    : Option Nat := none
  injSince : Nat := 0
  inj      : Nat := 0
  check    : Nat := 0
  queued   : Bool := false
  wait     : Bool := false
  injPass  : Option Nat := none
  attempts : Nat := 0
  cmd      : Option Nat := none
  early    : List Nat := []
  deriving DecidableEq, Repr

/-- R497, R501: a flies image: its number, owner, weight-key identity, first page and plaintext. -/
structure FlyImage where
  num   : Nat
  ctx   : Nat
  ident : BitVec 256
  shard : Nat
  page  : Nat
  data  : List Byte
  deriving DecidableEq, Repr

/-- R504: a page-in in progress, with the command that asked for it if one did. -/
structure PageIn where
  ctx   : Nat
  shard : Nat
  cmd   : Option Nat := none
  pin   : Bool := false
  deriving DecidableEq, Repr

/-- The weights of the device. tick orders injections and checks. hold tells that the arrival for the current pass is
withheld (R500); lost holds the passes whose arrival a failed replacement withholds (R508). -/
structure Weights where
  shards  : List Shard := []
  flies   : List FlyImage := []
  queue   : List (Nat × Nat) := []
  pageIns : List PageIn := []
  tick    : Nat := 0
  hold    : Option Nat := none
  lost    : List Nat := []
  deriving DecidableEq, Repr

end Sys2Proof.Machine
end

