-- ==== Sys2Proof/Machine/LinkTypes.lean ====
section
/-! DEFINITION. Sys2Proof/Machine/LinkTypes.lean: the state of the revolve, the ports and links, and understudy mode
(11_revolve.md, 12_link_layer.md, 14_determinism.md), as plain data. -/

namespace Sys2Proof.Machine

/-! ### Frames (R450 to R457) -/

/-- R450, R451: a frame: its header fields, type field and payload in use. Tag and CRC follow from these and the key; what a
receiver finds of them is the receiving command's operand (assumption 27). -/
structure Frame where
  ty     : Nat
  vc     : Nat := 0
  cmp    : Bool := false
  bfirst : Bool := false
  blast  : Bool := false
  keyid  : Nat := 0
  dir    : Nat := 0
  xend   : Bool := false
  seq    : Nat := 0
  ack    : Nat := 0
  tf     : Nat
  data   : List Byte := []
  stomp  : Bool := false
  deriving DecidableEq, Repr

/-- R455: a frame in a port's receive buffer. taken: its own device's part is done (or there is none); fwd: the port and
the frame still to be forwarded; good: it replaces a frame that left stomped (R466);
again: its place has been counted as freed before (R456, R479). -/
structure RxFrame where
  f     : Frame
  taken : Bool := false
  fwd   : Option (Nat × Frame) := none
  good  : Bool := false
  again : Bool := false
  deriving DecidableEq, Repr

/-- R463: frames of a port that left KEYED, held until PORTSTATE arrives: those unacknowledged, and those not yet sent. -/
structure Orphans where
  port   : Nat
  frames : List Frame
  queued : List Frame
  deriving DecidableEq, Repr

/-- One port. sent, limit and freed are per channel; share is what the peer announced (R456). tries is the SEQ last resent
and how many times in succession (R462). nackAt is set while the receiver waits for its expected SEQ (R459). malSeq is a
SEQ NACKed as malformed (R479). blockSeq is the SEQ of the first frame of the block being received; frames below fwdSeq have
been forwarded. fresh: no data frame has come since the port opened. stompFrom is the input port whose good copy the output
awaits (R466). inBlock: the last data frame sent left an encoded block open (R467). keyed counts the frames sent under the
current key, data then control (R477). wire holds what has been sent, oldest first. -/
structure PortSt where
  txq     : List Frame := []
  nextSeq : Nat := 0
  ctlSeq  : Nat := 0
  replay  : List Frame := []
  resend  : List Nat := []
  tries   : Nat × Nat := (0, 0)
  ackAt   : Nat := 0
  expSeq  : Nat := 0
  nackAt  : Option Nat := none
  malSeq  : Option Nat := none
  rx      : List RxFrame := []
  block   : List Frame := []
  blockSeq : Nat := 0
  fwdSeq  : Nat := 0
  fresh   : Bool := true
  freed   : List (Nat × Nat) := []
  credAt  : List (Nat × Nat) := []
  freeAt  : Option Nat := none
  share   : Option (List Nat) := none
  ret     : List (Nat × Nat) := []
  sent    : List (Nat × Nat) := []
  vcbuf   : Nat := 0
  stompFrom : Option Nat := none
  inBlock : Bool := false
  keyed   : Nat × Nat := (0, 0)
  swRx    : Bool := false
  offAt   : Option Nat := none
  wire    : List Frame := []
  deriving DecidableEq, Repr

/-- R687: a mutual-attestation handshake under way: the message expected next (0: none), when the last one passed, the
fragments received of it, the messages that form the transcript (own ones marked), the own ephemeral secret, and when a
failed one starts again (R688). -/
structure Handshake where
  expect : Nat := 0
  last   : Nat := 0
  part   : List Byte := []
  frag   : Nat := 0
  msgs   : List (Nat × Bool × List Byte) := []
  secret : BitVec 256 := 0
  failAt : Option Nat := none
  deriving DecidableEq, Repr

/-- One link. keys holds each valid slot's key and SALT (R476); eraseAt is when the old slot is erased (R477); auth counts
failures under the key (R478); next is an install that waits for the switch under way (R690); orphans are the frames of
ports that left KEYED (R463). -/
structure LinkSt where
  keys    : List (Nat × BitVec 256 × BitVec 32) := []
  hs      : Handshake := {}
  hsPort  : Nat := 0
  auth    : Nat := 0
  swTx    : Bool := false
  eraseAt : Option Nat := none
  next    : Option (BitVec 256 × BitVec 32) := none
  orphans : List Orphans := []
  deriving DecidableEq, Repr

/-- R687, R689: the management session with another chip: complete, and whether its firmware is the own. -/
structure Session where
  chip : Nat
  hs   : Handshake
  done : Bool := false
  same : Bool := false
  key  : BitVec 256 := 0
  deriving DecidableEq, Repr

/-! ### The revolve (R421 to R430) -/

/-- R426: a piece of the current pass on its way to its feed: what has arrived in order. src is the injecting position,
recd the piece record, got the payload bytes received in order, open what is not yet in a fill, idx the next FILLIDX, and done
that all of it has been delivered or discarded. drop: it is for a feed that is not enabled (R428). -/
structure Piece where
  src  : Nat
  num  : Nat
  recd : List Byte
  got  : Nat := 0
  open_ : List Byte := []
  idx  : Nat := 0
  done : Bool := false
  drop : Bool := false
  deriving DecidableEq, Repr

/-- R429: what an end mark announced, by source position. -/
structure EndMark where
  src    : Nat
  pieces : Nat
  bytes  : Nat
  deriving DecidableEq, Repr

/-- R502: the repair of a slice: its source position, when the wait ends, and the requests made. -/
structure ShortSlice where
  pos    : Nat
  until_ : Nat
  asked  : Nat := 0
  deriving DecidableEq, Repr

/-- A packet relayed to a worker (R436, R587): the command it answers, where it went, and when the manager gives up. -/
structure Relayed where
  id    : Nat
  ctx   : Nat
  seq   : Nat
  chip  : Nat
  until_ : Nat
  got   : List Byte := []
  deriving DecidableEq, Repr

/-- The revolve of a ring member. inj holds the bytes the INJECT stream has handed to the link interfaces and not yet
injected, injEnd that it has ended, injNext and injNextEnd the same of a stream that stages the next pass (R44); injDone: the
slice of this pass is injected; injBad: its injection was stopped (R422). pieces, marks, failed and shorts are of the current
pass. given holds the passes given up (R503); reports the shard reports the
manager has taken; chips the chip numbers of ring positions, as frames show them; arrived: the arrival is sent; relayN numbers the relays. -/
structure Revolve where
  pass    : Nat := 0
  joins   : List Nat := []
  joined  : Bool := false
  formed  : Bool := false
  sessions : List Session := []
  inj     : List Byte := []
  injN    : Nat := 0
  injBytes : Nat := 0
  injEnd  : Bool := false
  injNext : List Byte := []
  injNextEnd : Bool := false
  injDone : Bool := false
  injBad  : Bool := false
  pieces  : List Piece := []
  marks   : List EndMark := []
  failed  : List Nat := []
  shorts  : List ShortSlice := []
  given   : List Nat := []
  relAt   : Nat := 0
  reports : List (List Byte) := []
  arrived : Bool := false
  chips   : List (Nat × Nat) := []
  relayed : List Relayed := []
  relayN  : Nat := 0
  fwbox   : List (Nat × List Byte) := []
  inbox   : List (Nat × List Byte) := []
  deriving DecidableEq, Repr

/-! ### Understudy mode (R529 to R541) -/

/-- R531: a chain record, with what its own device keeps of the chain: number, pass, and beats per row, E1 and E2 for the
coordinates of a beat (R536). -/
structure UsRec where
  c      : Nat
  ord    : Nat
  beats  : Nat
  digest : Nat
  status : Nat
  num    : Nat := 0
  pass   : Nat := 0
  nm     : Nat := 1
  e1     : Nat := 1
  e2     : Nat := 1
  deriving DecidableEq, Repr

/-- The comparator: unmatched records of both sides, the partner's pairing message (PROG, L), the divergence whose
beats are being asked for, and the partner's record counts while a launch still runs here (R534). -/
structure Understudy where
  own   : List UsRec := []
  theirs : List UsRec := []
  pair  : Option (Nat × Nat) := none
  asked : Option UsRec := none
  counts : Option (List Nat) := none
  deriving DecidableEq, Repr

end Sys2Proof.Machine
end

