-- ==== Sys2Proof/Machine/State.lean ====
section
/-! DEFINITION. Sys2Proof/Machine/State.lean: everything the spec gives the device to hold, as plain data, and the
state right after reset. -/

namespace Sys2Proof.Machine

/-! ### The synchronisation unit (R371 to R404) -/

/-- A counter anywhere on the device. -/
inductive CtrAt
  | loc (c n : Nat)
  | dev (p : Nat)
  deriving DecidableEq, Repr

/-- R372, R376, R386: who made a change: a core's sy.sig (its cluster), an engine of a cluster, the host or firmware, a
curtain, or another chip. -/
inductive ChgSrc
  | core (c : Nat) (q : QInsn) | engine (c : Nat) | host | curtain | chip (chip clus : Nat)
  deriving DecidableEq, Repr

/-- R374: a change on its way to a counter; raise is a curtain release. -/
structure Change where
  ctr   : CtrAt
  amt   : Nat
  raise : Bool := false
  scope : Nat
  src   : ChgSrc
  deriving DecidableEq, Repr

/-- R378: where a cue goes: a watch slot, a core's wait entry, or a host watch of a context. -/
inductive CueDest
  | slot (c n : Nat)
  | wait (c : Nat)
  | host (x id : Nat)
  deriving DecidableEq, Repr

/-- R380, R387: a watch on a device counter, in the watch table once registered. -/
structure DevWatch where
  ctr        : Nat
  value      : Nat
  scope      : Nat
  timeout    : Nat
  deadline   : Option Nat := none
  registered : Bool := false
  dest       : CueDest
  ctx        : Nat
  deriving DecidableEq, Repr

/-- R381: a cue word on its way. -/
structure Cue where
  dest : CueDest
  word : Word
  deriving DecidableEq, Repr

/-- The synchronisation unit. curt holds each curtain's generations sent (R395) and released (R396). -/
structure SyncUnit where
  ctr     : List (Nat × Nat) := []
  changes : List Change := []
  watches : List DevWatch := []
  cues    : List Cue := []
  sent    : List (Nat × Nat) := []
  released : List (Nat × Nat) := []
  deriving DecidableEq, Repr

/-! ### HBM and the shared cache (R288 to R301, R616 to R636) -/

/-- R290: a tag entry of the shared cache. -/
structure Tag where
  addr  : Nat
  dirty : Bool := false
  cls   : Nat := 0
  hint  : Nat := 1
  ctx   : Nat := 0
  age   : Nat := 0
  pf    : Bool := false
  deriving DecidableEq, Repr

/-- R621, R622: a request for a 256-byte block that waits for, or holds, a tracker entry. -/
structure Track where
  slice : Nat
  block : Nat
  write : Bool
  held  : Bool := false
  sent  : Bool := false
  deriving DecidableEq, Repr

/-- A shared-cache miss that waits for its line. -/
structure ShcMiss where
  slice : Nat
  line  : Nat
  write : Bool
  cls   : Nat
  hint  : Nat
  ctx   : Nat
  pf    : Bool
  deriving DecidableEq, Repr

/-- R490, R648: a frame that waits to be zeroed, the context that held it, and whether it counts to its use until then. -/
structure ZeroReq where
  frame : Nat
  ctx   : Nat
  held  : Bool := false
  deriving DecidableEq, Repr

/-- The memory system: the contents of HBM at its homes (R289), its poison lists (R628) and the words that
only the shared cache's copies hold poisoned (R627), and the shared cache's tags. -/
structure MemSys where
  hbm     : List (Nat × Byte) := []
  bad     : List Nat := []
  cbad    : List Nat := []
  tags    : List (Nat × Tag) := []
  misses  : List ShcMiss := []
  track   : List Track := []
  maint   : Option Nat := none
  wiping  : Bool := false
  retries : List (Nat × Nat) := []
  zeroing : List ZeroReq := []
  pageReqs : List (Nat × Nat) := []
  deriving DecidableEq, Repr

/-! ### Contexts (R542 to R591) -/

/-- R568: a quota block. -/
structure Quota where
  clmask : Nat := 0
  frames : Nat := 0
  fly    : Nat := 0
  spret  : Nat := 0
  vctrs  : Nat := 0
  deriving DecidableEq, Repr

/-- A context. state is 0 DISABLED, 1 ENABLED, 2 PREEMPTED (R590). cmds holds the commands taken and not replied, in
sequence order; window its command window (R542) and intake the bytes of it that its intake sees, those written since the context's
last function-level reset (R610); sealAt when the present seal was first seen (R544); doneL the launches
that are complete with their exits (LAUNCH_QUERY); bar4 the mapped pages of its aperture (R601); saved the cluster state of
a pre-empted context (R572), and images the save images of its clusters, bytes by offset, an unlisted one zero (R168). -/
structure CtxSt where
  state  : Nat := 0
  overQ   : Bool := false
  quota  : Quota := {}
  serial : Nat := 0
  lost   : Nat := 0
  wins   : List (Nat × Nat × Nat) := []
  coal   : List (Nat × Nat × Bool) := []
  cmds   : List Cmd := []
  window : List (Nat × Byte) := []
  intake : List (Nat × Byte) := []
  sealAt : Option Nat := none
  progs  : List Prog := []
  wkeys  : List WKey := []
  relaySeq : Nat := 1
  doneL  : List (Nat × Nat) := []
  nextWatch : Nat := 0
  bar4   : List (Nat × Nat) := []
  saved  : List (Nat × Cluster) := []
  images : List (Nat × List (Nat × Byte)) := []
  deriving DecidableEq, Repr

/-! ### Errors (R721 to R730) -/

/-- R727: an open merge window: its triple, when it ends, and what it will report. -/
structure Merge where
  source : Nat
  cause  : Nat
  unit   : Nat
  until_ : Nat
  first  : Nat := 0
  count  : Nat := 0
  cls    : Nat
  ctx    : Option Nat
  status : Nat
  info   : Word
  deriving DecidableEq, Repr

/-- The error log (R729); dead: the device is in the state that a FATAL error leaves (R725). -/
structure ErrLog where
  log    : List (Nat × List Byte) := []
  total  : Nat := 0
  fatal  : Bool := false
  dead   : Bool := false
  merges : List Merge := []
  deriving DecidableEq, Repr

/-! ### PCI Express (R592 to R614) -/

/-- R605: a write of the device to host memory, or an MSI-X message of a vector, that waits for Bus Master Enable. ends marks
the first record of a reply: its command is not replied yet. -/
structure HeldWrite where
  fn   : Nat
  addr : Nat
  data : List Byte
  vec  : Option Nat := none
  ends : Bool := false
  deriving DecidableEq, Repr

/-- The PCI Express block: per-function enables as bit masks by function, the MSI-X tables by 64 f + v (an unlisted entry
is masked), pending bits, messages sent, power states, held requests; the SR-IOV controls (R595, R596); whether PERST# is high,
and since when (R758); configuration registers without an effect of their own as written, by 4,096 f + offset; the Selective IDE streams: 1 secure, 2 insecure, with their keys (R607, R608); and how the last host request was
completed: 0 successfully, 1 Unsupported Request, 2 Request Retry Status. -/
structure Pcie where
  bme    : Nat := 0
  mse    : Nat := 0
  msixEn : Nat := 0
  fmask  : Nat := 0
  table  : List (Nat × Nat) := []
  pba    : List Nat := []
  sent   : List (Nat × Nat) := []
  dstate : List (Nat × DState) := []
  held   : List HeldWrite := []
  ari    : Bool := false
  vfe    : Bool := false
  numVfs : Nat := 0
  perst  : Bool := false
  perstAt : Nat := 0
  cfg    : List (Nat × Nat) := []
  ide    : List (Nat × Nat × BitVec 256) := []
  cpl    : Nat := 0
  deriving DecidableEq, Repr

/-- The state of the device, and the queue of commands that wait. -/
structure State where
  pending   : List Instr := []
  cls       : Vector Cluster 40 := Vector.replicate 40 {}
  sy        : SyncUnit := {}
  mem       : MemSys := {}
  pages     : List (Nat × Word) := []
  ctx       : Vector CtxSt 16 := Vector.replicate 16 {}
  err       : ErrLog := {}
  pcie      : Pcie := {}
  ports     : Vector PortSt 8 := Vector.replicate 8 {}
  links     : Vector LinkSt 4 := Vector.replicate 4 {}
  rv        : Revolve := {}
  us        : Understudy := {}
  wt        : Weights := {}
  sec       : Security := {}
  pw        : Power := {}
  boot      : Boot := {}
  jtag      : Jtag := {}
  mb        : MgmtBus := {}
  regs      : List (Nat × Word) := []
  timebase  : Nat := 0
  pll       : Bool := false
  readData  : Word := 0
  busData   : List Byte := []
  freeCount : Nat := 0
  rngCount  : Nat := 0
  hostMem   : List (Nat × Byte) := []
  deriving DecidableEq, Repr

/-- Why the block can stop: nothing in the spec stops it, and no meaning raises a fault. The one reason stands for a
command that names an address beyond every space the spec gives (safe: no statement can rest on what follows). -/
inductive Fault
  /-- raised by a host access to the shared cache at an HBM address of no stack (R616); safe -/
  | noSuchAddress
  deriving DecidableEq, Repr

/-- Why a command can be refused. -/
inductive Refusal
  /-- raised by the dispatch alone, for a row without a meaning; safe -/
  | notModelled (mnemonic : String)
  deriving DecidableEq, Repr

/-- The answer of a meaning. -/
abbrev Res := Host.Outcome State Fault Refusal

/-- The device right after reset: R15 gives every register its reset value; the power inputs are absent (R637). -/
def State.reset : State := {}

end Sys2Proof.Machine
end

