-- ==== Sys2Proof/Machine/Ops.lean ====
section
/-! DEFINITION. Sys2Proof/Machine/Ops.lean: the operations every meaning is written over: clusters, registers and
counters, free values, host memory, event rings and error records, address translation, and HBM at its home. -/

namespace Sys2Proof.Machine

/-! ### Ibzar status codes (R558) -/

def OK : Nat := 0
def PARTIAL : Nat := 1
def MALFORMED : Nat := 2
def EXTENT : Nat := 3
def QUOTA : Nat := 4
def SHAPE : Nat := 5
def SHARD : Nat := 6
def ABANDONED : Nat := 7
def TIMEOUT : Nat := 8
def DENIED : Nat := 9
def NOT_READY : Nat := 10
def FAULT : Nat := 11

/-! ### Clusters and registers -/

/-- The cluster c. -/
def State.cl (s : State) (c : Cl) : Cluster := s.cls[c.val]

/-- The state with cluster c changed by f. -/
def State.mod (s : State) (c : Cl) (f : Cluster → Cluster) : State :=
  { s with cls := s.cls.set c.val (f s.cls[c.val]) c.isLt }

/-- A number as a cluster (R9); numbers above 39 name none. -/
def toCl (n : Nat) : Option Cl := if h : n < 40 then some ⟨n, h⟩ else none

/-- The clusters in ascending number. -/
def allCl : List Cl := (List.range 40).filterMap toCl

/-- The state with cluster number n changed by f; a number above 39 changes nothing. -/
def State.modN (s : State) (n : Nat) (f : Cluster → Cluster) : State :=
  match toCl n with | some c => s.mod c f | none => s

/-- Cluster number n, or a cluster at reset for a number above 39. -/
def State.clN (s : State) (n : Nat) : Cluster := match toCl n with | some c => s.cl c | none => {}

/-- A context. -/
def State.cx (s : State) (x : Nat) : CtxSt := if h : x < 16 then s.ctx[x] else {}

/-- The state with context x changed by f. -/
def State.modCx (s : State) (x : Nat) (f : CtxSt → CtxSt) : State :=
  if h : x < 16 then { s with ctx := s.ctx.set x (f s.ctx[x]) h } else s

/-- R734 (FREEZE), R730: whether every counter stands still. -/
def State.frozen (s : State) : Bool := bit (amGet 0 s.regs MG_DBG_CTRL).toNat 1

/-- The stored fields of the register at a cluster-block offset. -/
def Cluster.r (k : Cluster) (off : Nat) : Nat := (amGet (word (clReset off)) k.regs off).toNat

/-- Store a value at a cluster-block offset. -/
def Cluster.w (k : Cluster) (off v : Nat) : Cluster :=
  { k with regs := amSet (word (clReset off)) k.regs off (word v) }

/-- Store a field at a cluster-block offset. -/
def Cluster.wf (k : Cluster) (off hi lo v : Nat) : Cluster := k.w off (setBits (k.r off) hi lo v)

/-- The stored fields of the register at a cluster-block offset. -/
def State.cr (s : State) (c : Cl) (off : Nat) : Nat := (s.cl c).r off

/-- Store a field at a cluster-block offset. -/
def State.cwf (s : State) (c : Cl) (off hi lo v : Nat) : State := s.mod c (fun k => k.wf off hi lo v)

/-- R135, R730: count n events in a cluster's counter. -/
def State.cinc (s : State) (c : Cl) (off n : Nat) : State :=
  if s.frozen then s else s.mod c (fun k => k.w off ((k.r off + n) % 2 ^ 48))

/-- The stored fields of a device register. -/
def State.dr (s : State) (a : Nat) : Nat := (amGet (word (devReset a)) s.regs a).toNat

/-- Store a device register. -/
def State.dw (s : State) (a v : Nat) : State := { s with regs := amSet (word (devReset a)) s.regs a (word v) }

/-- Store a field of a device register. -/
def State.dwf (s : State) (a hi lo v : Nat) : State := s.dw a (setBits (s.dr a) hi lo v)

/-- R135, R730: count n events in a device counter. -/
def State.dinc (s : State) (a n : Nat) : State := if s.frozen then s else s.dw a ((s.dr a + n) % 2 ^ 48)

/-- Captures of the form VALID at bit v, MORE at bit v + 1: the first fills the fields, later ones set MORE. -/
def captureBits (old v val : Nat) : Nat := if bit old v then setBits old (v + 1) (v + 1) 1 else val + 2 ^ v

/-- Capture into a cluster register. -/
def State.ccap (s : State) (c : Cl) (off v val : Nat) : State :=
  s.mod c (fun k => k.w off (captureBits (k.r off) v val))

/-- Capture into a device register, leaving the bits above MORE as they are. -/
def State.dcap (s : State) (a v val : Nat) : State :=
  let old := s.dr a
  if bit old v then s.dwf a (v + 1) (v + 1) 1 else s.dw a (setBits old v 0 (val + 2 ^ v))

/-! ### Free values (assumption 5) -/

/-- Take the next free value. -/
def State.free (s : State) : BitVec 64 × State :=
  (Config.freeValue s.freeCount, { s with freeCount := s.freeCount + 1 })

/-- R666: take the next 256 bits of the random source. -/
def State.draw (s : State) : BitVec 256 × State :=
  (Config.random s.rngCount, { s with rngCount := s.rngCount + 1 })

/-! ### Roles and addresses (R30 to R35, R408, R413) -/

/-- R442: the role: 0 standalone, 1 member without description, 2 worker, 3 manager. -/
def State.role (s : State) : Nat := bits (s.dr LK_RV_STATUS) 1 0

/-- The accepted ring description, little-endian (R408); zero until accepted. -/
def State.desc (s : State) : Nat :=
  s.dr LK_RV_DESC + s.dr (LK_RV_DESC + 8) * 2 ^ 64 + s.dr (LK_RV_DESC + 16) * 2 ^ 128
    + s.dr (LK_RV_DESC + 24) * 2 ^ 192

/-- R408: ring size N. -/
def State.ringN (s : State) : Nat := bits s.desc 15 0
/-- R408: ring position. -/
def State.ringPos (s : State) : Nat := bits s.desc 31 16
/-- R408, R413: the own chip number; 0 in the standalone role. -/
def State.chip (s : State) : Nat := bits s.desc 43 32
/-- R408: the manager's chip number. -/
def State.mgrChip (s : State) : Nat := bits s.desc 59 48
/-- R405, R408: the grouping code. -/
def State.group (s : State) : Nat := bits s.desc 66 64
/-- R408: the slice of the ring's job. -/
def State.ringSlice (s : State) : Nat := bits s.desc 79 72
/-- R408: the chip number at the next position. -/
def State.cwChip (s : State) : Nat := bits s.desc 91 80
/-- R408: the chip number at the previous position. -/
def State.acwChip (s : State) : Nat := bits s.desc 107 96

/-- R413: the kind of a global address. -/
def gKind (a : Nat) : Nat := bits a 63 60
/-- R413: its chip. -/
def gChip (a : Nat) : Nat := bits a 59 48
/-- R413: its offset. -/
def gOff (a : Nat) : Nat := bits a 47 0

/-- R488: the page-map entry of a page of a context. -/
def State.page (s : State) (x p : Nat) : Nat := (amGet 0 s.pages (x * 2097152 + p)).toNat

/-- Store a page-map entry. -/
def State.setPage (s : State) (x p v : Nat) : State :=
  { s with pages := amSet 0 s.pages (x * 2097152 + p) (word v) }

/-- R489: what a context address leads to. -/
inductive PageRes
  | outside
  | absent (page : Nat)
  | at_ (phys : Nat) (rdonly : Bool)
  deriving DecidableEq, Repr

/-- R488, R489: translate an offset of a context. -/
def State.translate (s : State) (x off : Nat) : PageRes :=
  if 2 ^ 42 ≤ off then .outside
  else
    let e := s.page x (off / 2097152)
    if bit e 0 = false then .outside
    else if bit e 1 && !(bit e 7) then .at_ (bits e 26 8 * 2097152 + off % 2097152) (bit e 5)
    else .absent (off / 2097152)

/-- R419: the slice bound to a context, if any (the lowest). -/
def State.sliceOf (s : State) (x : Nat) : Option Nat :=
  (upFrom 1 255).find? (fun i => s.dr (LK_SLICE_BIND + 8 * i) == x + 16)

/-- R419: the context bound to a slice. -/
def State.ctxOfSlice (s : State) (i : Nat) : Option Nat :=
  let e := s.dr (LK_SLICE_BIND + 8 * i)
  if i ≠ 0 ∧ bit e 4 then some (bits e 3 0) else none

/-- R414, R575: whether n bytes from a bus address lie inside a host window of the context. -/
def State.inHostWin (s : State) (x a n : Nat) : Bool :=
  s.role ≠ 2 && (s.cx x).wins.any (fun w => decide (w.2.1 ≤ a) && decide (a + n ≤ w.2.1 + w.2.2))

/-- R414: whether n bytes from a global address lie in the context's address space. -/
def State.inSpace (s : State) (x a n : Nat) : Bool :=
  let off := gOff a
  let own := gChip a == s.chip
  match gKind a with
  | 1 => own && (upFrom (off / 2097152) ((off % 2097152 + n - 1) / 2097152 + 1)).all (fun p =>
      decide (p < 2097152) && bit (s.page x p) 0)
  | 2 => decide (bits off 24 19 < 40) && bits off 47 25 == 0 && decide (off % 524288 + n ≤ 524288) &&
      (if own then (s.clN (bits off 24 19)).owner == x
       else
        let e := s.dr (LK_RT_ENT + 8 * gChip a)
        s.role ≠ 0 && bit e 20 && (match s.sliceOf x with | some i => i == bits e 19 12 | none => false))
  | 3 => own && s.inHostWin x off n
  | 4 => own && bits off 47 4 == 0 && s.role ≠ 0 && s.sliceOf x == some s.ringSlice && s.ringSlice ≠ 0
  | _ => false

/-! ### HBM at its home (R289, R347 to R351, R628) -/

/-- n bytes of HBM from a physical address. -/
def State.hbmRead (s : State) (a n : Nat) : List Byte := amGetMany 0 s.mem.hbm a n

/-- R628: the poisoned words among n bytes from a. -/
def State.hbmBad (s : State) (a n : Nat) : List Nat :=
  (s.mem.bad ++ s.mem.cbad).filter (fun w => decide (w * 8 < a + n) && decide (a < w * 8 + 8))

/-- R287: a write to a line ends every reservation on it. -/
def State.breakResv (s : State) (a n : Nat) : State :=
  { s with cls := s.cls.map (fun k =>
      match k.core.resv with
      | some (false, l) =>
        if l * 64 < a + n ∧ a < l * 64 + 64 then { k with core := { k.core with resv := none } } else k
      | _ => k) }

/-- R289, R628: write bytes of HBM; the poison of each word written whole is cleared. -/
def State.hbmWrite (s : State) (a : Nat) (bs : List Byte) : State :=
  let s := s.breakResv a bs.length
  { s with mem := { s.mem with
      hbm := amSetMany 0 s.mem.hbm a bs
      bad := s.mem.bad.filter (fun w => !(decide (a ≤ w * 8) && decide (w * 8 + 8 ≤ a + bs.length)))
      cbad := s.mem.cbad.filter (fun w => !(decide (a ≤ w * 8) && decide (w * 8 + 8 ≤ a + bs.length))) } }

/-- The stack of a physical address (R616, R617): blocks of 256 bytes are spread over the stacks by slice. -/
def shcSlice (a : Nat) : Nat := Nat.xor (bits a 11 8) (Nat.xor (bits a 23 20) (bits a 35 32))

/-! ### Host memory and MSI-X (R354, R560, R602, R605, R611) -/

/-- R704: whether the block of a clocked domain is stopped for want of lock. -/
def State.domStopped (s : State) (d : Nat) : Bool := s.pw.lost.any (fun e => e.1 == d)

/-- R605, R611, R704: whether the function may send requests. -/
def State.mayMaster (s : State) (fn : Nat) : Bool :=
  bit s.pcie.bme fn && amGet DState.d0 s.pcie.dstate fn == .d0 && !(s.domStopped 48) && !(s.domStopped 49)

/-- A write of the device to host memory; it waits while the function may not master the bus (R605). -/
def State.hostWrite (s : State) (fn a : Nat) (bs : List Byte) : State :=
  if s.mayMaster fn then { s with hostMem := amSetMany 0 s.hostMem a bs }
  else { s with pcie := { s.pcie with held := s.pcie.held ++ [⟨fn, a, bs, none, false⟩] } }

/-- The MSI-X table entry of vector v of a function: address [63:0], data [95:64], mask [96]; masked at reset. -/
def State.msixEnt (s : State) (fn v : Nat) : Nat := amGet (2 ^ 96) s.pcie.table (64 * fn + v)

/-- R602: send the message of a vector, or set its pending bit while it is disabled or masked. -/
def State.msixSend (s : State) (fn v : Nat) : State :=
  if bit s.pcie.msixEn fn && !(bit s.pcie.fmask fn) && !(bit (s.msixEnt fn v) 96) then
    if s.mayMaster fn then { s with pcie := { s.pcie with sent := s.pcie.sent ++ [(fn, v)] } }
    else { s with pcie := { s.pcie with held := s.pcie.held ++ [⟨fn, 0, [], some v, false⟩] } }
  else { s with pcie := { s.pcie with pba := nsIns s.pcie.pba (64 * fn + v) } }

/-- A register of the page of context x (R590). -/
def cxReg (r x : Nat) : Nat := r + 0x1000 * x

/-- R560: a message of context x on vector v, at most one per COAL microseconds; those withheld merge into one. -/
def State.msix (s : State) (x v : Nat) : State :=
  let coal := bits (s.dr (cxReg MG_CX_CTRL x)) 20 13
  if coal = 0 then s.msixSend x v
  else
    match (s.cx x).coal.find? (fun e => e.1 == v && decide (s.timebase < e.2.1)) with
    | some _ => s.modCx x (fun k => { k with coal := k.coal.map (fun e => if e.1 = v then (e.1, e.2.1, true) else e) })
    | none =>
      (s.modCx x (fun k => { k with
        coal := (k.coal.filter (fun e => e.1 ≠ v)) ++ [(v, s.timebase + 1000 * coal, false)] })).msixSend x v

/-! ### Event rings and MSI-X (R555 to R565) -/

/-- R555: whether a ring of context x has room for a record. -/
def State.ringRoom (s : State) (x ring head : Nat) : Bool :=
  let h := s.dr (cxReg head x)
  let used := (bits h 63 32 + 2 ^ 32 - bits h 31 0) % 2 ^ 32
  decide (used < 2 ^ bits (s.dr (cxReg ring x)) 4 0)

/-- R555: write the record at the ring's tail; the function gives the record for the PHASE bit. -/
def State.ringPut (s : State) (x ring head : Nat) (rec : Nat → List Byte) : State :=
  let r := s.dr (cxReg ring x)
  let logn := bits r 4 0
  let i := bits (s.dr (cxReg head x)) 63 32
  let phase := Nat.xor (i / 2 ^ logn % 2) 1
  let s := s.hostWrite x (bits r 63 12 * 4096 + 32 * (i % 2 ^ logn)) (rec phase)
  s.dwf (cxReg head x) 63 32 ((i + 1) % 2 ^ 32)

/-- R564: an event record. -/
def eventBytes (kind x status serial time phase : Nat) (payload : List Byte) : List Byte :=
  leBytes 1 kind ++ leBytes 1 (x + 128 * phase) ++ leBytes 2 status ++ leBytes 4 serial ++ leBytes 8 time
    ++ sliceB payload 0 16

/-- Write one event record, whose room is known. -/
def State.eventPut (s : State) (x kind status time : Nat) (payload : List Byte) : State :=
  let n := (s.cx x).serial
  let s := s.ringPut x MG_CX_ERING MG_CX_ERHEAD (fun ph => eventBytes kind x status n time ph payload)
  let s := s.modCx x (fun k => { k with serial := (n + 1) % 2 ^ 32 })
  let s := s.dinc (cxReg MG_CX_CNT_EVENTS x) 1
  s.msix x (bits (s.dr (cxReg MG_CX_CTRL x)) 12 7)

/-- R565, R590: an event of context x: lost and counted without room or while EN is clear; once room returns, the number
lost is told first. -/
def State.event (s : State) (x kind status time : Nat) (payload : List Byte) : State :=
  if bit (s.dr (cxReg MG_CX_CTRL x)) 0 = false then s.dinc (cxReg MG_CX_CNT_EVLOST x) 1
  else
    let lose := fun (s : State) => (s.modCx x (fun k => { k with lost := k.lost + 1 })).dinc (cxReg MG_CX_CNT_EVLOST x) 1
    if s.ringRoom x MG_CX_ERING MG_CX_ERHEAD = false then lose s
    else if (s.cx x).lost = 0 then s.eventPut x kind status time payload
    else
      let n := (s.cx x).lost
      let s := (s.eventPut x 7 0 s.timebase (leBytes 4 n)).modCx x (fun k => { k with lost := 0 })
      if s.ringRoom x MG_CX_ERING MG_CX_ERHEAD then s.eventPut x kind status time payload else lose s

/-! ### Error records (R724 to R730) -/

def INFO : Nat := 0
def CORRECTED : Nat := 1
def POISON : Nat := 2
def LOST : Nat := 3
def CFAULT : Nat := 4
def FATAL : Nat := 5

/-- R726: what an error record says, besides its time, count and serial. -/
structure ErrRec where
  source : Nat
  cls    : Nat
  cause  : Nat
  unit   : Nat := 0xFFFF
  ctx    : Option Nat := none
  status : Nat := 11
  info   : Word := 0
  deriving DecidableEq, Repr

/-- R726: bytes 16 to 31. -/
def ErrRec.tail (e : ErrRec) (count : Nat) : List Byte :=
  leBytes 1 e.source ++ leBytes 1 e.cls ++ leBytes 2 e.cause ++ leBytes 2 e.unit ++ leBytes 2 (min count 65535)
    ++ leBytes 8 e.info.toNat

/-- R728, R729: write a record to the log and to its event ring. -/
def State.putErr (s : State) (e : ErrRec) (time count : Nat) : State :=
  let x := e.ctx.getD 0
  let bytes := eventBytes 1 x e.status (s.err.total % 2 ^ 32) time 0 (e.tail count)
  let s := { s with err := { s.err with
    log := amIns s.err.log (s.err.total % 1024) bytes, total := s.err.total + 1 } }
  s.event x 1 e.status time (e.tail count)

/-- R724, R727, R728: report an error: counted always; a CORRECTED one recorded only with CEREC; the classes below FAULT
merged within a millisecond. -/
def State.logErr (s : State) (e : ErrRec) : State :=
  let s := s.dinc (MG_EL_CNT + 8 * (e.source % 32)) 1
  if e.cls = CORRECTED ∧ bit (s.dr MG_EL_CTRL) 0 = false then s
  else if CFAULT ≤ e.cls then s.putErr e s.timebase 1
  else
    let same := fun (m : Merge) => m.source == e.source && m.cause == e.cause && m.unit == e.unit
      && decide (s.timebase < m.until_)
    if s.err.merges.any same then
      { s with err := { s.err with merges := updFirst same (fun m =>
          { m with count := m.count + 1, first := if m.count = 0 then s.timebase else m.first }) s.err.merges } }
    else
      let s := s.putErr e s.timebase 1
      { s with err := { s.err with merges := s.err.merges.filter (fun m =>
          !(m.source == e.source && m.cause == e.cause && m.unit == e.unit && m.count == 0)) ++
          [⟨e.source, e.cause, e.unit, s.timebase + 1000000, 0, 0, e.cls, e.ctx, e.status, e.info⟩] } }

/-! ### Poison in HBM (R626 to R628) -/

/-- The stack of an HBM byte address (R617). -/
def stackOf (a : Nat) : Nat := shcSlice a % 8

/-- A register of stack st. -/
def stkReg (r st : Nat) : Nat := r + 0x1000 * st

/-- R636, R726: an HBM error at a byte address: captured and recorded. -/
def State.stkErr (s : State) (a cause : Nat) : State :=
  let st := stackOf a
  let s := s.dcap (stkReg HM_STK_ERR st) 43 (a % 2 ^ 40 + place 42 40 cause)
  s.logErr { source := 11, cls := POISON, cause := cause, unit := st, info := word (s.dr (stkReg HM_STK_ERR st)) }

/-- R628: word w of HBM is written poisoned: it enters its stack's list, or is stored as zeros where the list is full. -/
def State.hbmPoison (s : State) (w : Nat) : State :=
  let st := stackOf (w * 8)
  if s.mem.bad.contains w || decide ((s.mem.bad.filter (fun y => stackOf (y * 8) == st)).length < 8192) then
    { s with mem := { s.mem with bad := nsIns s.mem.bad w, cbad := nsDel s.mem.cbad w } }
  else ((s.hbmWrite (w * 8) (List.replicate 8 0)).dinc (stkReg HM_CNT_PLOSS st) 1).stkErr (w * 8) 4

/-- R10: the stage reached (R660). -/
def State.stage (s : State) : Nat := bits (s.dr MG_SU_STATUS) 2 0

/-- R656: the life-cycle state. -/
def State.lcState (s : State) : Nat := s.sec.lc

/-- R731, R748: whether debug access is open. -/
def State.debugOpen (s : State) : Bool := bit (s.dr MG_DBG_STATUS) 0

/-- The meaning of a step whose condition does not hold: it waits (assumption 2). -/
def waits (s : State) : Res := .next s

/-- A step that happens under a condition, and waits without it. -/
def whenever (s : State) (cond : Bool) (t : State) : Res := if cond then .next t else waits s

end Sys2Proof.Machine
end

