-- ==== Sys2Proof/Machine/ClusterOps.lean ====
section
/-! DEFINITION. Sys2Proof/Machine/ClusterOps.lean: the operations the engines of a cluster share: registers of the core,
engine queues and faults, handle queues, local counters and cues, the scratchpad, the cluster cache. -/

namespace Sys2Proof.Machine

/-! ### Core registers -/

/-- R213: read a register; x0 reads zero. -/
def CoreSt.get (k : CoreSt) (r : Nat) : Word := if h : r < 32 then (if r = 0 then 0 else k.x[r]) else 0

/-- R213: write a register; x0 discards. -/
def CoreSt.set (k : CoreSt) (r : Nat) (v : Word) : CoreSt :=
  if h : r < 32 then (if r = 0 then k else { k with x := k.x.set r v h }) else k

/-- The core of cluster c changed by f. -/
def State.core (s : State) (c : Cl) (f : CoreSt → CoreSt) : State := s.mod c (fun k => { k with core := f k.core })

/-- R230: write an engine's result to a register and end the wait for it. -/
def State.wrRd (s : State) (c : Cl) (rd : Nat) (v : Word) : State :=
  s.core c (fun k => { k.set rd v with awaiting := nsDel k.awaiting rd })

/-! ### Engine queues and faults (R228 to R242) -/

/-- The queue number of a unit (R256: ENGINE). -/
def unitNo : EngUnit → Nat
  | .tile => 0 | .array => 1 | .vector => 2 | .stream => 3 | .sync => 4

/-- The queue of unit u. -/
def Cluster.unit (k : Cluster) (u : EngUnit) : UnitQs :=
  match u with
  | .tile => k.uq[0] | .array => k.uq[1] | .vector => k.uq[2] | .stream => k.uq[3] | .sync => k.uq[4]

/-- Change the queue of unit u. -/
def Cluster.setUnit (k : Cluster) (u : EngUnit) (q : UnitQs) : Cluster :=
  { k with uq :=
    match u with
    | .tile => k.uq.set 0 q | .array => k.uq.set 1 q | .vector => k.uq.set 2 q | .stream => k.uq.set 3 q
    | .sync => k.uq.set 4 q }

/-- The head instruction of unit u. -/
def Cluster.head (k : Cluster) (u : EngUnit) : Option QInsn := (k.unit u).q.head?

/-- Take the head instruction of unit u. -/
def Cluster.popUnit (k : Cluster) (u : EngUnit) : Cluster :=
  k.setUnit u { (k.unit u) with q := (k.unit u).q.tail }

/-- R241: whether unit u is discarding. -/
def Cluster.pend (k : Cluster) (u : EngUnit) : Bool := bit (k.r CL_FLT_INFO) (4 + unitNo u)

/-- The rd field of an engine instruction that has one (R223): 0 for those without. -/
def QInsn.rd (q : QInsn) : Nat :=
  let op := bits q.word.toNat 6 0
  let f3 := bits q.word.toNat 14 12
  let rd := bits q.word.toNat 11 7
  if op = 0x0B ∧ f3 ≠ 0 then 0           -- tile.ld, tile.rel
  else if op = 0x2B ∧ f3 = 0 then 0      -- mx.load
  else if op = 0x7B ∧ f3 = 0 then 0      -- sy.sig
  else rd

/-- R230: all ones, for a faulting or discarded instruction. -/
def allOnes : Word := BitVec.allOnes 64

/-- R230, R232: a sy.wait or sy.waitinv that faults or is discarded no longer holds the core. -/
def State.endWait (s : State) (c : Cl) (q : QInsn) : State :=
  let f3 := bits q.word.toNat 14 12
  if bits q.word.toNat 6 0 = 0x7B ∧ (f3 = 1 ∨ f3 = 3) then s.core c (fun k => { k with stall := .none }) else s

/-- R240: instruction q faults at unit u with a status: PEND, the capture, and its rd. -/
def State.engFault (s : State) (c : Cl) (u : EngUnit) (q : QInsn) (status : Nat) : State :=
  let s := s.mod c (fun k =>
    let old := k.r CL_FLT_INFO
    let k := if bit old 3 then k else
      ((((k.w CL_FLT_INFO (place 2 0 (unitNo u) + 8 + place 8 4 (bits old 8 4) + place 31 16 status
        + place 47 32 q.seq)).w CL_FLT_INSN q.word.toNat).w CL_FLT_RS1 q.rs1.toNat).w CL_FLT_RS2 q.rs2.toNat)
    { k.wf CL_FLT_INFO (4 + unitNo u) (4 + unitNo u) 1 with fltSt := amIns k.fltSt (unitNo u) status })
  (s.wrRd c q.rd allOnes).endWait c q

/-- R240: the head of unit u faults. -/
def State.faultHead (s : State) (c : Cl) (u : EngUnit) (q : QInsn) (status : Nat) : State :=
  (s.mod c (fun k => k.popUnit u)).engFault c u q status

/-- R746: the cluster makes progress. -/
def State.progressed (s : State) (c : Cl) : State := s.mod c (fun k => { k with hangAt := s.timebase, hung := false })

/-- The head of unit u is accepted, with v for its rd. -/
def State.acceptHead (s : State) (c : Cl) (u : EngUnit) (q : QInsn) (v : Word) : State :=
  ((s.mod c (fun k => k.popUnit u)).wrRd c q.rd v).progressed c

/-- R243: raise local interrupt cause n. -/
def State.irq (s : State) (c : Cl) (n : Nat) : State := s.core c (fun k => { k with irqs := nsIns k.irqs n })

/-! ### Cues and local counters (R371 to R390) -/

/-- R226, R383: a cue word. -/
def cueWord (value : Nat) (sat exp ab : Bool) : Word :=
  word (value % 2 ^ 48 + b2n sat * 2 ^ 48 + b2n exp * 2 ^ 49 + b2n ab * 2 ^ 50)

/-- R380, R383: the cue due at an evaluation at value v and time now. -/
def Watch.eval (w : Watch) (v now : Nat) (ab : Bool) : Option Word :=
  if !w.registered || w.done then none
  else
    let sat := decide (w.value ≤ v)
    let exp := match w.deadline with | some d => decide (d ≤ now) | none => false
    if sat || exp || ab then some (cueWord v sat exp ab) else none

/-- R404: count a cue of any counter; sc is the scope of the change that caused it, none without one (R386). -/
def State.countCue (s : State) (cue : Word) (wscope : Nat) (sc : Option Nat) : State :=
  let n := cue.toNat
  let s := if bit n 49 && !(bit n 48) then s.dinc SY_CNT_EXPIRED 1 else s
  let s := if bit n 50 then s.dinc SY_CNT_ABANDON 1 else s
  match sc with
  | some a => if bit n 48 && decide (a < wscope) then s.dinc SY_CNT_SCOPEMIS 1 else s
  | none => s

/-- Send a cue on its way. -/
def State.sendCue (s : State) (d : CueDest) (w : Word) : State :=
  { s with sy := { s.sy with cues := s.sy.cues ++ [⟨d, w⟩] } }

/-- A local counter's value. -/
def Cluster.ctr (k : Cluster) (n : Nat) : Nat := amGet 0 k.lctr n

/-- Evaluate watch slot i of cluster c if it watches counter n (R380). -/
def State.evalSlot (s : State) (c : Cl) (n : Nat) (ab : Bool) (sc : Option Nat) (i : Fin 16) : State :=
  match (s.cl c).ws[i.val] with
  | .armed w cc =>
    if w.ctr = .loc n then
      match w.eval ((s.cl c).ctr n) s.timebase ab with
      | some cue =>
        ((s.mod c (fun k => { k with ws := k.ws.set i.val (.armed { w with done := true } cc) i.isLt })).sendCue
          (.slot c.val i.val) cue).countCue cue w.scope sc
      | none => s
    else s
  | _ => s

/-- Evaluate the wait entry of cluster c if it watches counter n (R380). -/
def State.evalWait (s : State) (c : Cl) (n : Nat) (ab : Bool) (sc : Option Nat) : State :=
  match (s.cl c).wait with
  | some e =>
    if e.watch.ctr = .loc n then
      match e.watch.eval ((s.cl c).ctr n) s.timebase ab with
      | some cue =>
        ((s.mod c (fun k => { k with wait := some { e with watch := { e.watch with done := true } } })).sendCue
          (.wait c.val) cue).countCue cue e.watch.scope sc
      | none => s
    else s
  | none => s

/-- R374: evaluate every watch on local counter n, slots first, then the wait entry (R527, kind 3). -/
def State.evalLocal (s : State) (c : Cl) (n : Nat) (ab : Bool) (sc : Option Nat) : State :=
  ((List.finRange 16).foldl (fun s i => s.evalSlot c n ab sc i) s).evalWait c n ab sc

/-- R390: whether an increment to value v of local counter n breaks an enabled pair. -/
def Cluster.pairBroken (k : Cluster) (n v : Nat) : Bool :=
  (List.range 8).any (fun i =>
    let p := k.r (CL_SY_PAIR + 8 * i)
    bit p 12 && bits p 11 6 == n && decide (k.ctr (bits p 5 0) < v))

/-- The cluster that makes a change, for the FROM fields (R401, R403). -/
def ChgSrc.from_ : ChgSrc → Nat
  | .core c _ => c | .engine c => c | .host => 63 | .curtain => 63 | .chip _ k => k

/-- R374, R376: increment local counter n of cluster c, or refuse. -/
def State.incLocal (s : State) (c : Cl) (n inc sc : Nat) (src : ChgSrc) : State :=
  let v := (s.cl c).ctr n + inc
  let cause := if 2 ^ 48 ≤ v then 1 else if (s.cl c).pairBroken n v then 2 else 0
  if cause = 0 then
    (s.mod c (fun k => { k with lctr := amSet 0 k.lctr n v })).evalLocal c n false (some sc)
  else
    let s := (s.ccap c CL_SY_ERR 14 (n + place 7 6 cause + place 13 8 src.from_)).cinc c CL_SY_CNT_REFUSED 1
    let s := s.logErr { source := 9, cls := LOST, cause := cause, unit := c.val, ctx := some (s.cl c).owner,
                        info := word (s.cr c CL_SY_ERR) }
    match src with
    | .core a q => match toCl a with | some b => s.engFault b .sync q FAULT | none => s
    | _ => s

/-- R358: an engine's own increment of a local counter, a release at ring scope. -/
def State.engInc (s : State) (c : Cl) (n : Nat) : State := s.incLocal c n 1 2 (.engine c.val)

/-! ### Handle queues (R233 to R239) -/

/-- R234: the queue bound to port k: 0 ARRAY_IN, 1 ARRAY_RET, 2 VX_IN, 3 VX_RET, 4 VX_EMPTY, 5 VX_OUT. -/
def Cluster.port (k : Cluster) (p : Nat) : Nat := bits (k.r CL_Q_ROUTE) (4 * p + 2) (4 * p)

/-- The entries of queue n. -/
def Cluster.queue (k : Cluster) (n : Nat) : List HEntry := if h : n < 8 then k.hq[n] else []

/-- Change queue n. -/
def Cluster.setQueue (k : Cluster) (n : Nat) (q : List HEntry) : Cluster :=
  if h : n < 8 then { k with hq := k.hq.set n q h } else k

/-- R233: whether queue n has room. -/
def Cluster.room (k : Cluster) (n : Nat) : Bool := decide ((k.queue n).length < 16)

/-- R239: push onto queue n, which has room, with its signal. -/
def State.pushQ (s : State) (c : Cl) (n : Nat) (e : HEntry) : State :=
  let s := s.mod c (fun k => k.setQueue n (k.queue n ++ [e]))
  let sig := s.cr c CL_Q_SIG
  if bit sig (8 * n + 6) then s.engInc c (bits sig (8 * n + 5) (8 * n)) else s

/-- Pop the head of queue n. -/
def State.popQ (s : State) (c : Cl) (n : Nat) : State := s.mod c (fun k => k.setQueue n (k.queue n).tail)

/-- R233: the handle an entry names. -/
def HEntry.handle (e : HEntry) : Nat := bits e.word.toNat 5 0

/-- R275: the buffer handle h names now; an entry without VALID has size 0. -/
def Cluster.prop (k : Cluster) (h : Nat) : Buf :=
  let p := k.r (CL_PROP + 8 * h)
  if bit p 27 then ⟨bits p 12 0 * 64, bits p 26 13 * 64⟩ else ⟨bits p 12 0 * 64, 0⟩

/-! ### Scratchpad (R259 to R268) -/

/-- n bytes of the scratchpad. -/
def Cluster.spRead (k : Cluster) (a n : Nat) : List Byte := amGetMany 0 k.sp a n

/-- R267: the poisoned words that n bytes from a touch. -/
def Cluster.spBad (k : Cluster) (a n : Nat) : List Nat :=
  k.bad.filter (fun w => decide (w * 8 < a + n) && decide (a < w * 8 + 8))

/-- R263, R265, R268: write bytes: words written whole lose their poison, and any write ends a reservation. -/
def Cluster.spWrite (k : Cluster) (a : Nat) (bs : List Byte) : Cluster :=
  let hit := match k.core.resv with
    | some (true, w) => decide (w * 8 < a + bs.length) && decide (a < w * 8 + 8)
    | _ => false
  { k with
    sp := amSetMany 0 k.sp a bs
    bad := k.bad.filter (fun w => !(decide (a ≤ w * 8) && decide (w * 8 + 8 ≤ a + bs.length)))
    core := if hit then { k.core with resv := none } else k.core }

/-- Poison words by index (R267, R340). -/
def Cluster.spPoison (k : Cluster) (ws : List Nat) : Cluster := { k with bad := ws.foldl nsIns k.bad }

/-- R268: an encounter with a poisoned word: counted, captured, recorded. by: 0 port, 1 scrubber, 2 copy. -/
def State.spEncounter (s : State) (c : Cl) (by_ w : Nat) : State :=
  let s := (s.cinc c CL_SP_CNT_UE 1).ccap c CL_SP_ERR 18 (w + by_ * 65536)
  s.logErr { source := 5, cls := POISON, cause := 1, unit := c.val, ctx := some (s.cl c).owner,
             info := word (s.cr c CL_SP_ERR) }

/-- R268: encounters with several words. -/
def State.spEncounters (s : State) (c : Cl) (by_ : Nat) (ws : List Nat) : State :=
  ws.foldl (fun s w => s.spEncounter c by_ w) s

/-- R266, R267: what the check bits of scratchpad words read by a port show: a corrected word counts and awaits its
write-back, an uncorrectable one becomes poisoned. -/
def State.spEcc (s : State) (c : Cl) (e : Ecc) : State :=
  match e with
  | .clean => s
  | .corrected w => (s.cinc c CL_SP_CNT_CE 1).mod c (fun k => { k with fix := nsIns k.fix w })
  | .uncorrectable w => s.mod c (fun k => k.spPoison [w])

/-! ### The cluster cache (R284 to R296, R350) -/

/-- R284: the set of a line number (address / 64). -/
def ccSet (line : Nat) : Nat := line % 512

/-- The way of the set in which a line stands. -/
def Cluster.ccWay (k : Cluster) (line : Nat) : Option Nat :=
  (List.range 8).find? (fun w => match k.cc.find? (fun p => p.1 == ccSet line * 8 + w) with
    | some p => p.2.tag == line | none => false)

/-- The line, if cached. -/
def Cluster.ccLine (k : Cluster) (line : Nat) : Option CLine := (k.cc.map (·.2)).find? (fun l => l.tag == line)

/-- R290: age the set of a line when its way w is hit or filled. -/
def ccAge (cc : List (Nat × CLine)) (line w : Nat) : List (Nat × CLine) :=
  cc.map (fun p => if p.1 / 8 = ccSet line then
    (if p.1 % 8 = w then (p.1, { p.2 with age := 0 }) else (p.1, { p.2 with age := min (p.2.age + 1) 7 })) else p)

/-- The bytes of 64-bit word i of a line. -/
def wordOf (l : List Byte) (i : Nat) : List Byte := (l.drop (8 * i)).take 8

/-- R350: the dirty words of a line performed at their home, in the owner's space. -/
def State.ccPut (s : State) (c : Cl) (l : CLine) : State :=
  match s.translate l.ctx (gOff (l.tag * 64)) with
  | .at_ p _ => (List.range 8).foldl (fun s i =>
      if bit l.dirty i then
        let s := s.hbmWrite (p + 8 * i) (wordOf l.data i)
        if bit l.bad i then s.hbmPoison (p / 8 + i) else s
      else s) (s.cinc c CL_CC_CNT_WB 1)
  | _ => s.cinc c CL_CC_CNT_WB 1

/-- Write a line back if it is dirty, and keep it clean. -/
def State.ccClean (s : State) (c : Cl) (l : CLine) : State :=
  if l.dirty = 0 then s
  else (s.ccPut c l).mod c (fun k => { k with
    cc := k.cc.map (fun p => if p.2.tag = l.tag then (p.1, { p.2 with dirty := 0 }) else p) })

/-- Write back and drop a line; a prefetched line never used counts (R296). -/
def State.ccDrop (s : State) (c : Cl) (l : CLine) : State :=
  let s := s.ccClean c l
  let s := if l.pf then s.cinc c CL_CC_CNT_PFUNUSED 1 else s
  s.mod c (fun k => { k with cc := k.cc.filter (fun p => p.2.tag ≠ l.tag) })

/-- R254, R286: write back and invalidate the lines that satisfy p, counting each. -/
def State.ccInv (s : State) (c : Cl) (p : CLine → Bool) : State :=
  (((s.cl c).cc.map (·.2)).filter p).foldl (fun s l => (s.ccDrop c l).cinc c CL_CC_CNT_INV 1) s

/-- R254: the lines holding any byte of [lo, lo + len), which ends at the top of the address space. -/
def lineIn (lo len : Nat) (l : CLine) : Bool :=
  let hi := min (lo + len) (2 ^ 64)
  len != 0 && decide (l.tag * 64 < hi) && decide (lo < l.tag * 64 + 64)

/-- R253: every dirty line written back. -/
def State.ccFlush (s : State) (c : Cl) : State :=
  (((s.cl c).cc.map (·.2)).filter (fun l => l.dirty ≠ 0)).foldl (fun s l => s.ccClean c l) s

/-- R290: the victim way for a fill. -/
def ccVictim (k : Cluster) (line : Nat) : Nat :=
  let at_ := fun w => (k.cc.find? (fun p => p.1 == ccSet line * 8 + w)).map (·.2)
  match (List.range 8).find? (fun w => (at_ w).isNone) with
  | some w => w
  | none =>
    (List.range 8).foldl (fun best w =>
      match at_ w, at_ best with
      | some a, some b => if a.hint < b.hint ∨ (a.hint = b.hint ∧ b.age < a.age) then w else best
      | _, _ => best) 0

/-- R285, R290: fill a line from its home. Poisoned words come poisoned. -/
def State.ccFill (s : State) (c : Cl) (line cls hint : Nat) (pf : Bool) : State :=
  match s.translate (s.cl c).owner (gOff (line * 64)) with
  | .at_ p _ =>
    let w := ccVictim (s.cl c) line
    let s := match (s.cl c).cc.find? (fun q => q.1 == ccSet line * 8 + w) with
      | some q => s.ccDrop c q.2 | none => s
    let bad := (List.range 8).foldl (fun m i => if (s.mem.bad ++ s.mem.cbad).contains (p / 8 + i) then m + 2 ^ i else m) 0
    s.mod c (fun k => { k with cc := ccAge (amIns k.cc (ccSet line * 8 + w)
      ⟨line, s.hbmRead p 64, 0, bad, cls, hint, k.owner, 0, pf⟩) line w })
  | _ => s

/-- R291, R296: a demand hit. -/
def State.ccHit (s : State) (c : Cl) (line hint : Nat) : State :=
  let s := s.cinc c CL_CC_CNT_HIT 1
  let s := match (s.cl c).ccLine line with
    | some l => if l.pf then s.cinc c CL_CC_CNT_PFUSED 1 else s | none => s
  s.mod c (fun k =>
    let w := (k.ccWay line).getD 0
    { k with cc := ccAge (k.cc.map (fun p => if p.2.tag = line then
        (p.1, { p.2 with hint := max p.2.hint hint, pf := false }) else p)) line w })

/-! ### The prefetcher (R295, R296) -/

/-- R295: the sequences after a demand miss of line l, and the stride along which to prefetch if two misses in a row agree. -/
def trackMiss (q : List MissSeq) (l : Nat) : List MissSeq × Option Int :=
  let near := fun (m : MissSeq) => let d : Int := (l : Int) - m.last; d != 0 && decide (-16 ≤ d) && decide (d ≤ 16)
  match q.find? near with
  | some m =>
    let d : Int := (l : Int) - m.last
    (q.map (fun y => if y == m then ⟨l, d⟩ else y), if m.stride = d then some d else none)
  | none => ((if q.length < 8 then q else q.tail) ++ [⟨l, 0⟩], none)

/-- R295: after a demand miss, prefetch up to PFDEPTH lines ahead that are neither cached nor on their way. -/
def State.prefetch (s : State) (c : Cl) (l : Nat) : State :=
  let depth := bits (s.cr c CL_CC_CTRL) 3 0
  let r := trackMiss (s.cl c).seqs l
  let s := s.mod c (fun k => { k with seqs := r.1 })
  match r.2 with
  | none => s
  | some d =>
    (upFrom 1 depth).foldl (fun (s : State) (i : Nat) =>
      let t : Int := (l : Int) + d * (i : Int)
      let k := s.cl c
      if t < 0 ∨ gKind (t.toNat * 64) ≠ 1 ∨ (k.ccLine t.toNat).isSome ∨ k.misses.any (fun m => m.line == t.toNat)
          ∨ 8 ≤ k.misses.length then s
      else (s.cinc c CL_CC_CNT_PFISS 1).mod c (fun k => { k with misses := k.misses ++ [⟨t.toNat, [], true⟩] })) s

/-- R287: before a store-stream write or an atomic touches a line, the cluster's own cache gives it up. -/
def State.ccYield (s : State) (c : Cl) (addr n : Nat) : State :=
  (((s.cl c).cc.map (·.2)).filter (lineIn addr n)).foldl (fun s l => s.ccDrop c l) s

/-- The cluster cache's dirty lines (R357). -/
def Cluster.dirtyLines (k : Cluster) : Nat := (k.cc.filter (fun p => p.2.dirty ≠ 0)).length

end Sys2Proof.Machine
end

