-- ==== Sys2Proof/Machine/Operands.lean ====
section
/-! DEFINITION. Sys2Proof/Machine/Operands.lean: every operand form the engines decode: the configurations of tile and
array instructions, chain and stream descriptors, counter designators, and the byte layouts of tiles and rows. -/

namespace Sys2Proof.Machine

/-! ### Instruction fields (R129, R223) -/

/-- The register operand fields of an instruction word. -/
def rs1Of (w : BitVec 32) : Nat := bits w.toNat 19 15
def rs2Of (w : BitVec 32) : Nat := bits w.toNat 24 20
def rdOf (w : BitVec 32) : Nat := bits w.toNat 11 7

/-- R223: the tile register field of tile.ld. -/
def tileLdReg (q : QInsn) : Nat := bits q.word.toNat 9 7

/-- R130: t, PACK code and REP of mx.load. -/
def mxLoadT (q : QInsn) : Nat := bits q.word.toNat 22 20
def mxLoadPack (q : QInsn) : Nat := bits q.word.toNat 24 23
def mxLoadRep (q : QInsn) : Bool := bit q.word.toNat 25

/-- R130: P of a packing code. -/
def packP (code : Nat) : Nat := 2 ^ code

/-! ### Shapes (R139 to R141, R181) -/

/-- R139: the bytes of a row of a register's shape. -/
def rowBytes (shape : Nat) (f : Fmt) (pair : Bool) : Nat :=
  match shape with
  | 2 => if f.cls = .c16 then 2048 else 1024
  | 4 => if pair then 64 else 32
  | _ => if f.elemBits = 6 then 48 else if f.cls = .c16 then 64 else 32

/-- R139: whether the shape, format and pairing stand in the table. -/
def shapeFits (shape : Nat) (f : Fmt) (pair : Bool) : Bool :=
  match shape with
  | 1 => pair == (f.elemBits == 6 || f.cls == .c16)
  | 2 => pair == (f.cls == .c16)
  | 3 => if f.elemBits = 6 ∨ f.cls = .c16 then true else !pair
  | 4 => true
  | _ => false

/-- R139: the largest row count. -/
def maxRows (shape : Nat) (f : Fmt) (pair : Bool) : Nat :=
  match shape with
  | 2 => 32
  | 3 => if pair then 1024 else if f.elemBits = 6 then 682 else if f.cls = .c16 then 512 else 1024
  | _ => 1024

/-- R141: scale bytes of a row. -/
def scaleBytes (shape : Nat) (f : Fmt) : Nat :=
  if f.mx = false then 0
  else match shape with
    | 2 => 32
    | 1 | 3 => if f.cls = .c46 then 2 else 1
    | _ => 0

/-- R140: elements of a row (EPR of R181). -/
def rowElems (shape : Nat) (f : Fmt) (pair : Bool) : Nat :=
  match shape with
  | 1 | 3 => if f.cls = .c46 then 64 else 32
  | 2 => 1024
  | _ =>
    let b := if pair then 64 else 32
    if f.elemBits = 6 then (if pair then 84 else 40) else b * 8 / f.elemBits

/-- R104: the piece size of a skewed shape. -/
def pieceBytes (pair : Bool) : Nat := if pair then 64 else 32

/-- R104, R140: where byte j of row r lies in the register's (or pair's) data space. -/
def rowOffset (shape : Nat) (f : Fmt) (pair : Bool) (r j : Nat) : Nat :=
  let pb := pieceBytes pair
  match shape with
  | 1 =>
    let g := r / 32
    let v := r % 32
    ((v + g) % 32) * (32 * pb) + g * pb + j
  | 2 =>
    let seg := if f.cls = .c16 then 64 else 32
    let g := j / seg
    ((r + g) % 32) * (32 * pb) + g * pb + j % seg
  | _ => r * rowBytes shape f pair + j

/-- R54: bit position of element i in a packed run of elements. -/
def elemAt (f : Fmt) (bs : List Byte) (i : Nat) : Nat :=
  let b := f.elemBits
  fieldB bs (i * b / 8) (if b = 6 then 2 else (b + 7) / 8) / 2 ^ (i * b % 8) % 2 ^ b

/-- R54: put element i into a packed run of elements. -/
def elemPut (f : Fmt) (bs : List Byte) (i v : Nat) : List Byte :=
  let b := f.elemBits
  let n := if b = 6 then 2 else (b + 7) / 8
  let o := i * b / 8
  let sh := i * b % 8
  let old := fieldB bs o n
  let new := leBytes n (setBits old (sh + b - 1) sh v)
  (bs.take o) ++ (new.take (bs.length - o)) ++ bs.drop (o + n)

/-! ### Tile registers as operands -/

/-- Tile register t. -/
def Cluster.tile (k : Cluster) (t : Nat) : Tile := if h : t < 8 then k.tiles[t] else {}

/-- Change tile register t. -/
def Cluster.setTile (k : Cluster) (t : Nat) (x : Tile) : Cluster :=
  if h : t < 8 then { k with tiles := k.tiles.set t x h } else k

/-- A byte of the data space of register t, or of its pair (R104, R140). -/
def Cluster.tileByte (k : Cluster) (t o : Nat) : Byte :=
  if o < 32768 then amGet 0 (k.tile t).data o else amGet 0 (k.tile (t + 1)).data (o - 32768)

/-- Whether the 64-bit word holding a data byte is poisoned. -/
def Cluster.tileBadAt (k : Cluster) (t o : Nat) : Bool :=
  if o < 32768 then (k.tile t).badData.contains (o / 8) else (k.tile (t + 1)).badData.contains ((o - 32768) / 8)

/-- Write a byte of the data space of register t or its pair. -/
def Cluster.putTileByte (k : Cluster) (t o : Nat) (b : Byte) : Cluster :=
  if o < 32768 then k.setTile t { k.tile t with data := amSet 0 (k.tile t).data o b }
  else k.setTile (t + 1) { k.tile (t + 1) with data := amSet 0 (k.tile (t + 1)).data (o - 32768) b }

/-- R163: the bytes of row r of register t; a byte of a poisoned word reads zero. -/
def Cluster.tileRow (k : Cluster) (t r : Nat) : List Byte :=
  let x := k.tile t
  (List.range (rowBytes x.shape x.fmt x.pair)).map (fun j =>
    let o := rowOffset x.shape x.fmt x.pair r j
    if k.tileBadAt t o then 0 else k.tileByte t o)

/-- R141, R163: the scale bytes of row r of register t. -/
def Cluster.tileScales (k : Cluster) (t r : Nat) : List Byte :=
  let x := k.tile t
  let sb := scaleBytes x.shape x.fmt
  (List.range sb).map (fun b =>
    let o := sb * r + b
    if x.badScale.contains (o / 8) then 0 else amGet 0 x.scale o)

/-- Whether any word of row r, elements or scales, is poisoned. -/
def Cluster.tileRowBad (k : Cluster) (t r : Nat) : Bool :=
  let x := k.tile t
  (List.range (rowBytes x.shape x.fmt x.pair)).any (fun j => k.tileBadAt t (rowOffset x.shape x.fmt x.pair r j))
    || (List.range (scaleBytes x.shape x.fmt)).any (fun b => x.badScale.contains ((scaleBytes x.shape x.fmt * r + b) / 8))

/-- R137: mark rows whose elements (or scales) are now written, valid once both are. -/
def Tile.mark (x : Tile) (elem : Bool) (r : Nat) : Tile :=
  let x := if elem then { x with elemW := nsIns x.elemW r } else { x with scaleW := nsIns x.scaleW r }
  if x.elemW.contains r && (x.fmt.mx == false || x.shape == 4 || x.scaleW.contains r) then
    { x with valid := nsIns x.valid r } else x

/-- Write the element bytes of row r of register t in its layout (R105); poisoned words of the data by flag. -/
def Cluster.putTileRow (k : Cluster) (t r : Nat) (bs : List Byte) : Cluster :=
  let x := k.tile t
  let k := ((List.range bs.length).zip bs).foldl (fun k p =>
    k.putTileByte t (rowOffset x.shape x.fmt x.pair r p.1) p.2) k
  let offs := (List.range bs.length).map (rowOffset x.shape x.fmt x.pair r)
  let clr := fun (y : Tile) (base : Nat) => { y with
    badData := y.badData.filter (fun w => !(offs.contains (base + w * 8))) }
  let k := k.setTile t ((clr (k.tile t) 0).mark true r)
  if x.pair then k.setTile (t + 1) (clr (k.tile (t + 1)) 32768) else k

/-- Write the scale bytes of row r of register t. -/
def Cluster.putTileScales (k : Cluster) (t r : Nat) (bs : List Byte) : Cluster :=
  let x := k.tile t
  let sb := scaleBytes x.shape x.fmt
  let y := { x with scale := amSetMany 0 x.scale (sb * r) bs,
                    badScale := x.badScale.filter (fun w => !(decide (sb * r ≤ w * 8) && decide (w * 8 + 8 ≤ sb * r + bs.length))) }
  k.setTile t (if bs.isEmpty then y else y.mark false r)

/-- R138: the leading valid rows. -/
def Tile.heldRows (x : Tile) : Nat := ((List.range x.rows).takeWhile (fun r => x.valid.contains r)).length

/-- R137. -/
def Tile.full (x : Tile) : Bool := x.shape != 0 && x.heldRows == x.rows

/-! ### mx.run (R131, R132) -/

/-- The run descriptor and source of an mx.run. -/
structure RunDesc where
  count : Nat
  base  : Nat
  clr   : Bool
  swap  : Bool
  axis  : Bool
  cb    : Nat
  wfmt  : Nat
  kind  : Bool
  treg  : Nat
  rsv   : Bool
  deriving DecidableEq, Repr

/-- R131, R132. -/
def runDesc (q : QInsn) : RunDesc :=
  let a := q.rs1.toNat
  let b := q.rs2.toNat
  ⟨bits a 10 0, bits a 17 11, bit a 18, bit a 19, bit a 20, bits a 25 21, bits a 29 26, bit b 0, bits b 3 1,
   bits a 63 30 != 0 || bits b 63 4 != 0⟩

/-! ### vx.chain (R184 to R188) -/

/-- R185: a tensor descriptor. -/
structure TensorD where
  space  : Nat
  raw    : Bool
  fmt    : Nat
  rnd    : Nat
  d0s    : Nat
  trans  : Bool
  clr    : Bool
  site   : Nat
  base   : Nat
  handle : Nat
  s1     : Int
  s2     : Int
  s3     : Int
  scoff  : Nat
  rsv    : Bool
  deriving DecidableEq, Repr

/-- R185: tensor k of a chain descriptor. -/
def tensorD (d : List Byte) (k : Nat) : TensorD :=
  let o := 192 + 32 * k
  let b0 := fieldB d o 1
  let b1 := fieldB d (o + 1) 1
  let h := fieldB d (o + 8) 1
  let sp := bits b0 2 0
  ⟨sp, bit b0 3, bits b0 7 4, bits b1 1 0, bits b1 2 2, bit b1 3, bit b1 4, fieldB d (o + 2) 2, fieldB d (o + 4) 4,
   (if sp = 3 then bits h 2 0 else bits h 5 0), sgn 32 (fieldB d (o + 12) 4), sgn 32 (fieldB d (o + 16) 4),
   sgn 32 (fieldB d (o + 20) 4), fieldB d (o + 24) 4,
   bits b1 7 5 != 0 || (if sp = 1 then bits h 7 6 != 0 else if sp = 3 then bits h 7 3 != 0 else h != 0)
     || fieldB d (o + 9) 3 != 0 || fieldB d (o + 28) 4 != 0⟩

/-- R188: a stage slot. -/
structure StageD where
  op    : Nat
  bsel  : Nat
  csel  : Nat
  fmt   : Nat
  rnd   : Nat
  tslot : Nat
  tload : Bool
  shift : Int
  immb  : BitVec 32
  immc  : BitVec 32
  site  : Nat
  handle : Nat
  nseg  : Nat
  offset : Nat
  rsv   : Bool
  deriving DecidableEq, Repr

/-- R188: stage slot i (from 0) of a chain descriptor. The bytes an operation does not use must be zero. -/
def stageD (d : List Byte) (i : Nat) : StageD :=
  let o := 64 + 16 * i
  let op := fieldB d o 1
  let b1 := fieldB d (o + 1) 1
  let b2 := fieldB d (o + 2) 1
  let tbl := op == 0x14
  let cvt := op == 0x15
  ⟨op, bits b1 1 0, bits b1 3 2, bits b1 7 4, bits b2 1 0, bits b2 3 2, bit b2 4, sgn 8 (fieldB d (o + 3) 1),
   BitVec.ofNat 32 (fieldB d (o + 4) 4), BitVec.ofNat 32 (fieldB d (o + 8) 4), fieldB d (o + 8) 2,
   bits (fieldB d (o + 8) 1) 5 0, fieldB d (o + 9) 1 + 1, fieldB d (o + 12) 4,
   bits b2 7 5 != 0 || (!tbl && fieldB d (o + 3) 1 != 0)
     || (if tbl then bits (fieldB d (o + 8) 1) 7 6 != 0 || fieldB d (o + 10) 2 != 0
         else if cvt then fieldB d (o + 10) 6 != 0 else fieldB d (o + 12) 4 != 0)⟩

/-- R184: the chain header. -/
structure ChainD where
  nstage : Nat
  kind   : Bool
  popres : Bool
  rd1    : Bool
  tree   : Nat
  rsink  : Nat
  grec   : Nat
  e0 : Nat
  e1 : Nat
  e2 : Nat
  e3 : Nat
  lbase  : Nat
  l0 : Int
  l1 : Int
  l2 : Int
  l3 : Int
  rsv : Bool
  deriving DecidableEq, Repr

/-- R184: the header of a chain descriptor. -/
def chainD (d : List Byte) : ChainD :=
  let b0 := fieldB d 0 1
  let b1 := fieldB d 1 1
  ⟨bits b0 3 0, bit b0 4, bit b0 5, bit b0 6, bits b1 3 0, bits b1 5 4, fieldB d 2 2, fieldB d 4 2, fieldB d 6 2,
   fieldB d 8 2, fieldB d 10 2, fieldB d 16 8, sgn 32 (fieldB d 24 4), sgn 32 (fieldB d 28 4), sgn 32 (fieldB d 32 4),
   sgn 32 (fieldB d 36 4),
   bit b0 7 || bits b1 7 6 != 0 || fieldB d 12 4 != 0 || (List.range 24).any (fun i => fieldB d (40 + i) 1 != 0)⟩

/-! ### Streams (R306) -/

/-- R306: a stream descriptor. -/
structure StreamD where
  dir    : Nat
  idx    : Bool
  mcast  : Bool
  inject : Bool
  cls    : Nat
  hint   : Nat
  cc     : Bool
  pfs    : Bool
  sigen  : Bool
  loc    : Nat
  ctr    : Nat
  eq     : Nat
  fq     : Nat
  la     : Nat
  handle : Nat
  ihandle : Nat
  addr   : Nat
  l0     : Nat
  n1     : Nat
  n2     : Nat
  n3     : Nat
  first  : Nat
  bufb   : Nat
  sb     : Nat
  s1     : Int
  s2     : Int
  s3     : Int
  mask   : Nat
  ioff   : Nat
  ilim   : Nat
  rsv    : Bool
  deriving DecidableEq, Repr

/-- R306: decode 64 bytes; rsv tells a reserved bit, or a field that the stream's kind does not use, not zero. -/
def streamD (d : List Byte) : StreamD :=
  let b0 := fieldB d 0 1
  let b1 := fieldB d 1 1
  let b2 := fieldB d 2 1
  let b4 := fieldB d 4 1
  let b5 := fieldB d 5 1
  let b6 := fieldB d 6 1
  let b7 := fieldB d 7 1
  let loc := bits b2 2 0
  let idx := bit b0 2
  let mc := bit b0 3
  ⟨bits b0 1 0, idx, mc, bit b0 4, bits b1 1 0, bits b1 3 2, bit b1 4, bit b1 5, bit b1 6, loc,
   bits (fieldB d 3 1) 5 0, bits b4 2 0, bits b4 6 4, bits b5 4 0, (if loc = 1 then bits b6 5 0 else bits b6 2 0),
   bits b7 5 0, fieldB d 8 8, fieldB d 16 3, fieldB d 20 2, fieldB d 22 2, fieldB d 24 2, bits (fieldB d 26 2) 9 0,
   fieldB d 28 2, fieldB d 30 2, sgn 40 (fieldB d 32 5), sgn 40 (fieldB d 37 5), sgn 40 (fieldB d 42 5), fieldB d 48 5,
   fieldB d 56 4, fieldB d 60 4,
   bits b0 7 5 != 0 || bit b1 7 || bits b2 7 3 != 0 || bits (fieldB d 3 1) 7 6 != 0 || bit b4 3 || bit b4 7
     || bits b5 7 5 != 0 || bits b7 7 6 != 0 || fieldB d 19 1 != 0 || fieldB d 47 1 != 0 || fieldB d 53 3 != 0
     || bits (fieldB d 26 2) 15 10 != 0
     || (loc != 0 && b4 != 0)
     || (loc == 0 && b6 != 0) || (loc == 1 && bits b6 7 6 != 0) || (loc != 1 && loc != 0 && bits b6 7 3 != 0)
     || (!idx && (b7 != 0 || fieldB d 56 4 != 0 || fieldB d 60 4 != 0))
     || (loc != 2 && loc != 3 && fieldB d 26 2 != 0)
     || (idx && fieldB d 37 10 != 0)
     || (!mc && fieldB d 48 5 != 0)⟩

/-- R307: bytes of a run. -/
def StreamD.run (d : StreamD) : Nat := d.l0 * 8
/-- R307: bytes of the sequence. -/
def StreamD.total (d : StreamD) : Nat := d.run * (d.n1 * d.n2 * d.n3)
/-- R308: bytes of a whole fill. -/
def StreamD.fillB (d : StreamD) : Nat := d.bufb * 64
/-- R308: the number of fills. -/
def StreamD.fills (d : StreamD) : Nat := if d.fillB = 0 then 0 else (d.total + d.fillB - 1) / d.fillB
/-- R308: the bytes of fill f. -/
def StreamD.fillLen (d : StreamD) (f : Nat) : Nat := min d.fillB (d.total - f * d.fillB)
/-- R306, R315: the lookahead. -/
def StreamD.look (d : StreamD) : Nat := if d.la = 0 then 4 else d.la

/-- R307: the address of run k; idx gives index k of an index-driven stream. -/
def StreamD.runAddr (d : StreamD) (k idx : Nat) : Nat :=
  if d.idx then wrapInt 64 (d.addr + idx * d.s1)
  else
    let i1 := k % d.n1
    let i2 := k / d.n1 % d.n2
    let i3 := k / (d.n1 * d.n2)
    wrapInt 64 (d.addr + i1 * d.s1 + i2 * d.s2 + i3 * d.s3)

/-! ### Synchronisation operands (R225, R226) -/

/-- R225: a counter designator. -/
structure CtrD where
  num    : Nat
  space  : Nat
  clus   : Nat
  chip   : Nat
  scope  : Nat
  cuectr : Nat
  rsv    : Bool
  deriving DecidableEq, Repr

/-- R225. -/
def ctrD (w : Word) : CtrD :=
  let a := w.toNat
  ⟨bits a 11 0, bits a 13 12, bits a 19 14, bits a 31 20, bits a 33 32, bits a 39 34, bits a 63 40 != 0⟩

end Sys2Proof.Machine
end

