-- ==== Sys2Proof/Machine/TileUnit.lean ====
section
/-! DEFINITION. Sys2Proof/Machine/TileUnit.lean: the tile-register scoreboard (R144), tile.cfg, tile.ld and tile.rel at
their unit (R136 to R152, R770), and the discarding of instructions (R241). -/

namespace Sys2Proof.Machine

/-! ### The scoreboard (R144, R145) -/

/-- R144: the registers that an operation on t stands for; a pair counts as one. -/
def Cluster.regsOf (k : Cluster) (t : Nat) : List Nat :=
  if (k.tile t).member then [t - 1, t] else if (k.tile t).pair then [t, t + 1] else [t]

/-- Tile registers a chain descriptor reads and writes. -/
def chainRegs (d : List Byte) : List (Nat × Bool) :=
  let rs := (chainD d).rsink
  (List.range 4).filterMap (fun i =>
    let t := tensorD d i
    if t.space = 3 then some (t.handle % 8, decide (i = 3) || decide (i = rs)) else none)

/-- Tile registers a stream descriptor reads or writes. -/
def streamRegs (d : List Byte) : List (Nat × Bool) :=
  let x := streamD d
  if x.loc = 2 ∨ x.loc = 3 then [(x.handle % 8, x.dir = 0)] else []

/-- The registers an instruction names, with whether it writes them; tile.cfg and tile.rel count as writers of all they
name. -/
def Cluster.insnRegs (k : Cluster) (u : EngUnit) (q : QInsn) : List (Nat × Bool) :=
  let f3 := bits q.word.toNat 14 12
  let own :=
    match u with
    | .tile =>
      if f3 = 0 then
        let t := bits q.rs1.toNat 2 0
        (t, true) :: (if bit q.rs1.toNat 10 then [(t + 1, true)] else [])
      else if f3 = 1 then [(tileLdReg q, true)]
      else [(bits q.rs1.toNat 2 0, true)]
    | .array =>
      if f3 = 0 then [(mxLoadT q, false)]
      else if f3 = 1 ∧ (runDesc q).kind then [((runDesc q).treg, false)] else []
    | .vector => chainRegs (k.spRead (bits q.rs1.toNat 18 0) 320)
    | .stream => streamRegs (k.spRead (bits q.rs1.toNat 18 0) 64)
    | .sync => []
  own.flatMap (fun p => (k.regsOf p.1).map (fun t => (t, p.2)))

/-- Whether two sets of uses conflict: one register, one of them writing. -/
def clash (a b : List (Nat × Bool)) : Bool := a.any (fun p => b.any (fun q => p.1 == q.1 && (p.2 || q.2)))

/-- The beats of a chain (R175). -/
def ChainD.beats (d : ChainD) : Nat := ((d.e0 + 255) / 256) * d.e1 * d.e2 * d.e3

/-- Whether a chain still has beats to take. -/
def Chain.busy (x : Chain) : Bool := !x.stopped && decide (x.beat < (chainD x.desc).beats)

/-- R90, R111: the KiB an mx.load moves, one per step. -/
def loadKib (f : Fmt) : Nat := if f.elemBits = 6 then 48 else if f.cls = .c16 then 64 else 32

/-- R91, R145: whether an mx.load still reads its tile registers. -/
def MxLoad.reading (l : MxLoad) : Bool := match l.started with | some n => decide (n < loadKib l.fmt) | none => true

/-- Tile registers of the operations that have passed their wait, with their issue tickets. -/
def Cluster.activeRegs (k : Cluster) : List (Nat × (Nat × Bool)) :=
  let ex := fun (tk t : Nat) (w : Bool) => (k.regsOf t).map (fun r => (tk, (r, w)))
  (k.lds.flatMap (fun l => ex l.tk l.t true))
    ++ (k.arr.loads.flatMap (fun l =>
        if l.reading
        then ex l.tk l.t false else []))
    ++ (k.arr.runs.flatMap (fun r => match r.treg with
        | some t => if r.admitted < r.count then ex r.tk t false else []
        | none => []))
    ++ (k.vx.chains.flatMap (fun x => if x.busy then (chainRegs x.desc).flatMap (fun p => ex x.tk p.1 p.2) else []))
    ++ (k.st.slots.flatMap (fun p => (streamRegs p.2.desc).flatMap (fun q => ex p.2.tk q.1 q.2)))

/-- R144: whether an instruction of ticket tk that uses regs must wait for an earlier one, queued or active. -/
def Cluster.mustWait (k : Cluster) (tk : Nat) (regs : List (Nat × Bool)) : Bool :=
  ([EngUnit.tile, .array, .vector, .stream, .sync].any (fun u =>
      !(k.pend u) && ((k.unit u).q.any (fun q => decide (q.tk < tk) && clash (k.insnRegs u q) regs))))
    || k.activeRegs.any (fun p => decide (p.1 < tk) && clash [p.2] regs)

/-- R171: BUSY of register t. -/
def Cluster.tileBusy (k : Cluster) (t : Nat) : Bool := k.activeRegs.any (fun p => p.2.1 == t)

/-- R171: the value of CL_TILE_CFGn; the odd member of a pair mirrors the even one. -/
def Cluster.tileCfg (k : Cluster) (n : Nat) : Nat :=
  let m := (k.tile n).member
  let x := if m then k.tile (n - 1) else k.tile n
  if x.shape = 0 then b2n (k.tileBusy n) * 2 ^ 32
  else place 2 0 x.shape + place 6 3 x.fmt.code + place 7 7 (b2n x.pair) + place 8 8 (b2n m) + place 19 9 x.rows
    + place 30 20 x.heldRows + place 31 31 (b2n x.full) + place 32 32 (b2n (k.tileBusy n)) + place 33 33 (b2n x.poison)

/-- Whether the head of unit u is an instruction with funct3 f that the unit may check now: not discarding, and past the
wait of R144. -/
def Cluster.ready (k : Cluster) (u : EngUnit) (f : Nat) : Option QInsn :=
  match k.head u with
  | some q =>
    if bits q.word.toNat 14 12 = f && !(k.pend u) && !k.wiping && !(k.mustWait q.tk (k.insnRegs u q)) then some q else none
  | none => none

/-! ### tile.cfg and tile.rel -/

/-- R142: the outcome of tile.cfg: a fault status, no effect, or go. -/
inductive Check
  | fault (status : Nat)
  | noEffect
  | pass
  deriving DecidableEq, Repr

/-- R142: the checks of tile.cfg, in order. -/
def tileCfgCheck (k : Cluster) (q : QInsn) : Check :=
  let a := q.rs1.toNat
  let t := bits a 2 0
  let sh := bits a 5 3
  let pair := bit a 10
  let rows := bits a 21 11
  match Fmt.ofCode (bits a 9 6) with
  | none => .fault SHAPE
  | some f =>
    if bits a 63 22 ≠ 0 ∨ sh = 0 ∨ 5 ≤ sh then .fault SHAPE
    else if (f = .fp32 ∧ sh ≠ 4) ∨ (sh = 2 ∧ f.cls = .c46) then .fault SHAPE
    else if (pair ∧ t % 2 = 1) ∨ shapeFits sh f pair = false then .fault SHAPE
    else if (k.tile t).member then .fault SHAPE
    else if (sh = 1 ∨ sh = 4) ∧ rows ≠ 0 then .fault SHAPE
    else if (sh = 2 ∨ sh = 3) ∧ rows = 0 then .noEffect
    else if maxRows sh f pair < rows then .fault EXTENT
    else .pass

/-- A register with nothing in it but its stored bytes. -/
def Tile.unset (x : Tile) : Tile :=
  { x with shape := 0, pair := false, member := false, rows := 0, valid := [], elemW := [], scaleW := [], poison := false,
           badData := [], badScale := [] }

/-- R143: what a passing tile.cfg does. -/
def Cluster.configure (k : Cluster) (a : Nat) (f : Fmt) : Cluster :=
  let t := bits a 2 0
  let sh := bits a 5 3
  let pair := bit a 10
  let old := k.tile t
  let k := if old.pair && !pair then k.setTile (t + 1) (k.tile (t + 1)).unset else k
  let rows := if sh = 1 ∨ sh = 4 then 1024 else bits a 21 11
  let k := k.setTile t { old.unset with shape := sh, fmt := f, pair := pair, rows := rows }
  if pair then
    let k := if (k.tile (t + 1)).pair then k.setTile (t + 2) (k.tile (t + 2)).unset else k
    k.setTile (t + 1) { (k.tile (t + 1)).unset with member := true }
  else k

/-- R142, R143: the tile unit takes tile.cfg. -/
def execTileCfgAccept (c : Cl) (s : State) : Res :=
  match (s.cl c).ready .tile 0 with
  | none => waits s
  | some q =>
    let old := word ((s.cl c).tileCfg (bits q.rs1.toNat 2 0) % 2 ^ 32)
    match tileCfgCheck (s.cl c) q with
    | .fault st => .next (s.faultHead c .tile q st)
    | .noEffect => .next (s.acceptHead c .tile q old)
    | .pass =>
      match Fmt.ofCode (bits q.rs1.toNat 9 6) with
      | some f => .next ((s.acceptHead c .tile q old).mod c (fun k => k.configure q.rs1.toNat f))
      | none => waits s

/-- R146: the tile unit takes tile.rel. -/
def execTileRelAccept (c : Cl) (s : State) : Res :=
  match (s.cl c).ready .tile 2 with
  | none => waits s
  | some q =>
    let t := bits q.rs1.toNat 2 0
    let x := (s.cl c).tile t
    if bits q.rs1.toNat 63 3 ≠ 0 ∨ x.member then .next (s.faultHead c .tile q SHAPE)
    else
      .next ((s.acceptHead c .tile q 0).mod c (fun k =>
        let k := k.setTile t x.unset
        if x.pair then k.setTile (t + 1) (k.tile (t + 1)).unset else k))

/-! ### tile.ld -/

/-- R148: the checks of tile.ld, in order. -/
def tileLdCheck (k : Cluster) (q : QInsn) : Check :=
  let d := q.rs2.toNat
  let x := k.tile (tileLdReg q)
  if q.rs1.toNat % 16 ≠ 0 ∨ bits d 39 21 % 16 ≠ 0 ∨ (x.fmt.mx = false ∧ bits d 63 40 ≠ 0 ∧ x.shape ≠ 0) then .fault SHAPE
  else if x.shape = 0 ∨ x.member then .fault SHAPE
  else if bits d 20 10 = 0 then .noEffect
  else if x.rows < bits d 9 0 + bits d 20 10 then .fault EXTENT
  else .pass

/-- R148, R149: the tile unit takes tile.ld. -/
def execTileLdAccept (c : Cl) (s : State) : Res :=
  match (s.cl c).ready .tile 1 with
  | none => waits s
  | some q =>
    match tileLdCheck (s.cl c) q with
    | .fault st => .next (s.faultHead c .tile q st)
    | .noEffect => .next (s.acceptHead c .tile q 0)
    | .pass =>
      let d := q.rs2.toNat
      .next ((s.acceptHead c .tile q 0).mod c (fun k => { k with lds := k.lds ++
        [{ tk := q.tk, t := tileLdReg q, addr := q.rs1.toNat, first := bits d 9 0, count := bits d 20 10,
           stride := bits d 39 21, scoff := bits d 63 40 }] }))

/-- R289, R285: read n bytes at a global HBM address through the cluster cache, filling lines that miss; the bytes, and
whether any word of them is poisoned. -/
def State.ccRead (s : State) (c : Cl) (cls hint a n : Nat) : List Byte × Bool × State :=
  let lines := upFrom (a / 64) ((a % 64 + n + 63) / 64)
  let s := lines.foldl (fun s l =>
    if ((s.cl c).ccLine l).isSome then s.ccHit c l hint
    else ((s.cinc c CL_CC_CNT_MISS 1).ccFill c l cls hint false).prefetch c l) s
  let k := s.cl c
  let at_ := fun (x : Nat) => match k.ccLine (x / 64) with
    | some l => (l.data.getD (x % 64) 0, bit l.bad (x % 64 / 8))
    | none => (0, false)
  ((upFrom a n).map (fun x => (at_ x).1), (upFrom a n).any (fun x => (at_ x).2), s)

/-- Whether n bytes at a global HBM address are all resident. -/
def State.resident (s : State) (x a n : Nat) : Bool :=
  (upFrom (gOff a / 2097152) ((gOff a % 2097152 + n - 1) / 2097152 + 1)).all (fun p =>
    match s.translate x (p * 2097152) with | .at_ _ _ => true | _ => false)

/-- R149, R150: the answer to the row read k of a tile.ld. -/
def State.ldRead (s : State) (c : Cl) (l : TileLd) (k : Nat) : LdRow × State :=
  let x := (s.cl c).tile l.t
  let n := rowBytes x.shape x.fmt x.pair
  let sb := scaleBytes x.shape x.fmt
  let a := wrapInt 64 (l.addr + k * l.stride)
  let sa := wrapInt 64 (l.addr + l.scoff + k * sb)
  let own := (s.cl c).owner
  if gKind a ≠ 1 ∨ s.inSpace own a n = false ∨ (sb ≠ 0 ∧ (gKind sa ≠ 1 ∨ s.inSpace own sa sb = false)) then
    (⟨k, [], [], 1⟩, s)
  else if s.resident own a n = false ∨ (sb ≠ 0 ∧ s.resident own sa sb = false) then (⟨k, [], [], 2⟩, s)
  else
    let r := s.ccRead c 1 1 a n
    let q := if sb = 0 then ([], false, r.2.2) else r.2.2.ccRead c 1 1 sa sb
    if r.2.1 || q.2.1 then (⟨k, [], [], 3⟩, q.2.2) else (⟨k, r.1, q.1, 0⟩, q.2.2)

/-- R150: a failed row: captured, counted, and an interrupt if enabled. -/
def State.ldFail (s : State) (c : Cl) (t row cause : Nat) : State :=
  let s := (s.ccap c CL_TILE_LDERR 15 (t + place 12 3 row + place 14 13 cause)).cinc c CL_TILE_CNT_LDFAULT 1
  if bit (s.cr c CL_TILE_CTRL) 0 then s.irq c 18 else s

/-- R150: write, in row order, the rows of a tile.ld that are back; stop at a failed one. fuel bounds the rows. -/
def State.ldCommit (s : State) (c : Cl) (l : TileLd) : Nat → State × Option TileLd
  | 0 => (s, some l)
  | fuel + 1 =>
    if l.done = l.count then (s, none)
    else
      match l.back.find? (fun r => r.k == l.done) with
      | none => (s, some l)
      | some r =>
        if r.cause ≠ 0 then (s.ldFail c l.t (l.first + r.k) r.cause, none)
        else
          let s := s.mod c (fun k =>
            (k.putTileRow l.t (l.first + r.k) r.bytes).putTileScales l.t (l.first + r.k) r.sc)
          (s.cinc c CL_TILE_CNT_LDROWS 1).ldCommit c
            { l with done := l.done + 1, back := l.back.filter (fun y => y.k ≠ r.k) } fuel

/-- R149: whether the tile-load unit has issued row k of l, 16 reads being outstanding at most. -/
def TileLd.issuedRow (l : TileLd) (k : Nat) : Bool :=
  decide (l.done ≤ k) && decide (k < l.count) && decide (k < l.done + l.back.length + 16) && !(l.back.any (fun r => r.k == k))

/-- R149: the loads that may have reads outstanding: one after another has issued its last row. -/
def ldsOpen : List TileLd → List TileLd
  | [] => []
  | l :: t => l :: (if l.count ≤ l.done + l.back.length + 16 then ldsOpen t else [])

/-- R149 to R151: row read `row` of the running tile.ld comes back. -/
def execTileLdRowArrive (c : Cl) (row : Nat) (s : State) : Res :=
  match (ldsOpen (s.cl c).lds).find? (fun l => decide (l.first ≤ row) && l.issuedRow (row - l.first)) with
  | none => waits s
  | some l =>
    let r := s.ldRead c l (row - l.first)
    let l' := { l with back := l.back ++ [r.1] }
    let w := r.2.ldCommit c l' (l.count + 1)
    .next ((w.1.progressed c).mod c (fun k => { k with lds := k.lds.flatMap (fun y =>
      if y.tk = l.tk then (match w.2 with | some z => [z] | none => []) else [y]) }))

/-! ### Discarding (R241) -/

/-- R241: a unit whose PEND bit is set takes its head instruction and discards it. -/
def execInstructionDiscard (c : Cl) (u : EngUnit) (s : State) : Res :=
  match (s.cl c).head u with
  | none => waits s
  | some q =>
    if (s.cl c).pend u = false then waits s
    else
      let s := (s.acceptHead c u q allOnes).endWait c q
      let i := s.cr c CL_FLT_INFO
      if bit i 3 && bits i 2 0 == unitNo u then
        .next (s.cwf c CL_FLT_INFO 63 48 (min (bits i 63 48 + 1) 65535))
      else .next s

end Sys2Proof.Machine
end

