-- ==== Sys2Proof/Machine/ArrayUnit.lean ====
section
/-! DEFINITION. Sys2Proof/Machine/ArrayUnit.lean: the matrix array of a cluster (R88 to R135, R153 to R169, R768,
R769). -/

namespace Sys2Proof.Machine

/-- The array of a cluster changed by f. -/
def State.arr (s : State) (c : Cl) (f : MxArray → MxArray) : State := s.mod c (fun k => { k with arr := f k.arr })

/-- A stationary store by number. -/
def MxArray.store (a : MxArray) (i : Nat) : Store := if i = 0 then a.st0 else a.st1

/-- Change a stationary store. -/
def MxArray.setStore (a : MxArray) (i : Nat) (x : Store) : MxArray := if i = 0 then { a with st0 := x } else { a with st1 := x }

/-- R89: the number of the shadow store. -/
def MxArray.shadow (a : MxArray) : Nat := 1 - a.active

/-! ### Operands (R90 to R104) -/

/-- R92: reduction elements of a row or slice. -/
def sliceElems (f : Fmt) : Nat := if f.cls = .c46 then 64 else 32

/-- R90, R104: the bytes of slice u of a stationary tile. -/
def Store.slice (st : Store) (u : Nat) : List Byte :=
  let pair := loadKib st.fmt != 32
  (List.range (rowBytes 1 st.fmt pair)).map (fun j => amGet 0 st.data (rowOffset 1 st.fmt pair u j))

/-- R53, R60, R141: element i of slice u with its block scale. -/
def Store.elem (st : Store) (u i : Nat) : Val :=
  let v := st.fmt.decode (elemAt st.fmt (st.slice u) i)
  let sb := scaleBytes 1 st.fmt
  if sb = 0 then v else v.withScale (amGet 0 st.scale (sb * u + i / 32)).toNat

/-- R53, R60, R94: element i of a stream row with its block scale. -/
def RowOps.elem (r : RowOps) (f : Fmt) (i : Nat) : Val :=
  let v := f.decode (elemAt f r.elems i)
  if f.mx then v.withScale (r.scales.getD (i / 32) 0).toNat else v

/-- R123: whether a tile holds a NaN, an infinity or a scale of 0xFF. -/
def Store.special (st : Store) : Bool :=
  (List.range 1024).any (fun u => (List.range (sliceElems st.fmt)).any (fun i =>
    match st.elem u i with | .fin _ _ _ => false | _ => true))

/-- R97: the slice that unit u holds under packing P. -/
def Store.unitSlice (st : Store) (u : Nat) : Nat := if st.rep then u % (1024 / packP st.pack) else u

/-- R92: the products of unit u with a stream row, in lane order. -/
def unitProducts (st : Store) (f : Fmt) (r : RowOps) (u : Nat) : List Val :=
  (List.range (sliceElems f)).map (fun i => (st.elem (st.unitSlice u) i).mul (r.elem f i))

/-- R100: the products of unit (g, w) with segment g of a wide row. -/
def wideProducts (st : Store) (f : Fmt) (r : RowOps) (g w : Nat) : List Val :=
  (List.range 32).map (fun i => (st.elem (32 * g + i) w).mul (r.elem f (32 * g + i)))

/-- R122: a wrong product. -/
def slipProducts (ps : List Val) (sl : Option Slip) (unit : Nat) : List Val :=
  match sl with
  | some x => if x.unit.val = unit then
      (List.range ps.length).zip ps |>.map (fun p => if p.1 = x.lane.val then p.2.add (.fin x.neg 1 x.exp) else p.2)
    else ps
  | none => ps

/-- R107: a run's peak report over more products. -/
def Peak.see (p : Peak) (ps : List Val) : Peak :=
  ps.foldl (fun p v => match v with
    | .nan => { p with nan := true }
    | .inf _ => { p with inf := true }
    | .fin _ m e =>
      if m = 0 then p
      else
        let t := topExp m e
        if p.any then { p with hi := max p.hi t, lo := min p.lo t } else { p with any := true, hi := t, lo := t }) p

/-- R107: the register's report joined with a run's. -/
def Peak.join (a b : Peak) : Peak :=
  { any := a.any || b.any, nan := a.nan || b.nan, inf := a.inf || b.inf,
    hi := if a.any && b.any then max a.hi b.hi else if a.any then a.hi else b.hi,
    lo := if a.any && b.any then min a.lo b.lo else if a.any then a.lo else b.lo }

/-! ### Accumulator memory (R153 to R165) -/

/-- R154: the record of block b of row r, if HELD. -/
def MxArray.blockRec (a : MxArray) (r b : Nat) : Option Gauge :=
  let v := amGet 0 a.blocks (32 * r + b)
  if bit v 16 then some (.ofCode (v % 65536)) else none

/-- R154: an entry as it reads: zero in a CLEARED block. -/
def MxArray.entry (a : MxArray) (i : Nat) : AccEnt :=
  match a.blockRec (i / 1024) (i % 1024 / 32) with | some _ => amGet {} a.acc i | none => {}

/-- R156: clear a block. -/
def MxArray.clearBlock (a : MxArray) (r b : Nat) : MxArray :=
  { a with blocks := amDel a.blocks (32 * r + b), acc := amErase a.acc (1024 * r + 32 * b) (1024 * r + 32 * b + 32) }

/-- R154: set a block HELD with a record, if it is CLEARED. -/
def MxArray.hold (a : MxArray) (r b : Nat) (g : Gauge) : MxArray :=
  match a.blockRec r b with
  | some _ => a
  | none => { a with blocks := amIns a.blocks (32 * r + b) (g.code + 65536),
                     acc := amErase a.acc (1024 * r + 32 * b) (1024 * r + 32 * b + 32) }

/-- R92, R154, R769: one run's products of one step into block b of row r. cols lists each column with its products. -/
def MxArray.update (a : MxArray) (run : MxRun) (r b : Nat) (nan : Bool) (cols : List (Nat × List Val)) : MxArray :=
  let a := if run.clr then a.clearBlock r b else a
  let a := a.hold r b run.gauge
  let other := a.blockRec r b != some run.gauge
  { a with acc := cols.foldl (fun m p =>
      let e := accStep run.gauge (amGet {} m (1024 * r + p.1)) p.2
      amSet {} m (1024 * r + p.1) (if nan || other then { e with nan := true } else e)) a.acc }

/-- R164, R165: an uncorrectable entry (below 131,072) or block record becomes value 0 with NAN; a lost record is taken
from the next update. -/
def MxArray.spoil (a : MxArray) (at_ : Nat) : MxArray :=
  if at_ < 131072 then { a with acc := amSet {} a.acc at_ { nan := true } }
  else
    let b := at_ - 131072
    { a with acc := amSetMany {} (amErase a.acc (32 * b) (32 * b + 32)) (32 * b) (List.replicate 32 { nan := true }) }

/-! ### mx.load and mx.gauge (R89 to R91, R106, R111, R125, R133, R768) -/

/-- R768: the two stores (active, shadow) as they will stand after every accepted array instruction. -/
def MxArray.future (a : MxArray) : Store × Store :=
  let loadIn := fun (p : Store × Store) (l : MxLoad) =>
    (p.1, { held := true, fmt := l.fmt, pack := l.pack, rep := l.rep, tk := l.tk : Store })
  match a.runs.find? (fun r => !r.begun && r.swap && r.count != 0) with
  | none => a.loads.foldl loadIn (a.store a.active, a.store a.shadow)
  | some r =>
    let p := (a.loads.filter (fun l => decide (l.tk < r.tk))).foldl loadIn (a.store a.active, a.store a.shadow)
    (a.loads.filter (fun l => decide (r.tk < l.tk))).foldl loadIn (p.2, p.1)

/-- R125: the checks of mx.load. -/
def mxLoadOk (k : Cluster) (q : QInsn) : Bool :=
  let x := k.tile (mxLoadT q)
  x.shape == 1 && !x.member && x.full && !(x.pair && mxLoadT q % 2 == 1)

/-- R125, R768: the array takes mx.load. -/
def execMxLoadAccept (c : Cl) (s : State) : Res :=
  match (s.cl c).ready .array 0 with
  | none => waits s
  | some q =>
    if (s.cl c).arr.loads.any (fun l => l.started.isNone) then waits s
    else if mxLoadOk (s.cl c) q = false then .next (s.faultHead c .array q SHAPE)
    else
      .next ((s.acceptHead c .array q 0).arr c (fun a => { a with loads := a.loads ++
        [{ tk := q.tk, t := mxLoadT q, pack := mxLoadPack q, rep := mxLoadRep q,
           fmt := ((s.cl c).tile (mxLoadT q)).fmt }] }))

/-- R106, R133: the array takes mx.gauge. -/
def execMxGaugeAccept (c : Cl) (s : State) : Res :=
  match (s.cl c).ready .array 2 with
  | none => waits s
  | some q =>
    let a := q.rs1.toNat
    if bits a 63 16 ≠ 0 then .next (s.faultHead c .array q SHAPE)
    else
      .next ((s.acceptHead c .array q (word (s.cl c).arr.gauge.code)).arr c (fun m =>
        { m with gauge := Gauge.ofCode a }))

/-- R163: uncorrectable words met in register t: POISON, counted, recorded, an interrupt if enabled. -/
def State.tileUe (s : State) (c : Cl) (t : Nat) (n : Nat) : State :=
  if n = 0 then s
  else
    let s := s.mod c (fun k => k.setTile t { k.tile t with poison := true })
    let s := s.cinc c CL_TILE_CNT_UE n
    let s := s.logErr { source := 2, cls := POISON, cause := 1, unit := c.val, ctx := some (s.cl c).owner, info := word t }
    if bit (s.cr c CL_TILE_CTRL) 1 then s.irq c 18 else s

/-- R162, R163: what the check bits of a tile-register word show: words 0 to 4,095 are the data store of t, 4,096 to
8,191 that of t + 1, above that the scale store. -/
def State.tileEcc (s : State) (c : Cl) (t : Nat) (e : Ecc) : State :=
  match e with
  | .clean => s
  | .corrected _ => s.cinc c CL_TILE_CNT_CE 1
  | .uncorrectable w =>
    s.mod c (fun k =>
      if w < 4096 then k.setTile t { k.tile t with badData := nsIns (k.tile t).badData w }
      else if w < 8192 then k.setTile (t + 1) { k.tile (t + 1) with badData := nsIns (k.tile (t + 1)).badData (w - 4096) }
      else k.setTile t { k.tile t with badScale := nsIns (k.tile t).badScale (w - 8192) })

/-- R111: the last group of a sub-array under a packing code. -/
def lastGroup (pack : Nat) : Nat := 32 / packP pack - 1

/-- R108: whether a flight's rows still read their store. -/
def Flight.reads (f : Flight) (r : MxRun) : Bool :=
  decide (f.age ≤ (if r.axis then 31 else lastGroup r.pack) + (if r.fmt.cls = .c16 then 1 else 0))

/-- R111: whether a row in flight, or still to enter, reads store i. -/
def MxArray.storeInUse (a : MxArray) (i : Nat) : Bool :=
  a.runs.any (fun r => r.begun && r.store == i && (decide (r.admitted < r.count) ||
    a.flights.any (fun f => f.tk == r.tk && f.reads r)))

/-- R111, R119: the load that may start its transfer now. -/
def MxArray.startable (a : MxArray) : Option MxLoad :=
  match a.loads with
  | l :: _ =>
    if l.started.isNone && !(a.runs.any (fun r => decide (r.tk < l.tk) && !r.begun && r.count != 0)) && !(a.storeInUse a.shadow)
    then some l else none
  | [] => none

/-- R90, R163: the tile of register t, its poisoned words read as zero. -/
def Cluster.tileCopy (k : Cluster) (t : Nat) : List (Nat × Byte) × List (Nat × Byte) :=
  let x := k.tile t
  let good := fun (y : Tile) (p : Nat × Byte) => !(y.badData.contains (p.1 / 8))
  let lo := x.data.filter (good x)
  let hi := if x.pair then ((k.tile (t + 1)).data.filter (good (k.tile (t + 1)))).map (fun p => (p.1 + 32768, p.2)) else []
  (lo ++ hi, x.scale.filter (fun p => !(x.badScale.contains (p.1 / 8))))

/-- R111: an accepted mx.load starts moving its tile. -/
def execMxLoadTransferStart (c : Cl) (ecc : Ecc) (s : State) : Res :=
  match (s.cl c).arr.startable with
  | none => waits s
  | some l =>
    let s := s.tileEcc c l.t ecc
    let k := s.cl c
    let n := (k.tile l.t).badData.length + (k.tile l.t).badScale.length
      + (if (k.tile l.t).pair then (k.tile (l.t + 1)).badData.length else 0)
    let cp := k.tileCopy l.t
    let st : Store := ⟨true, l.fmt, l.pack, l.rep, n != 0, l.tk, cp.1, cp.2⟩
    .next ((s.tileUe c l.t n).arr c (fun a =>
      { a with loads := a.loads.map (fun y => if y.tk = l.tk then { y with started := some 0, tile := st } else y) }))

/-- R111: the load has moved its tile and formed its checksums. -/
def execMxLoadComplete (c : Cl) (s : State) : Res :=
  match (s.cl c).arr.loads with
  | l :: _ =>
    match l.started with
    | some n => whenever s (decide (loadKib l.fmt + 4 ≤ n)) ((s.progressed c).arr c (fun a =>
        { a.setStore a.shadow l.tile with loads := a.loads.tail }))
    | none => waits s
  | [] => waits s

/-! ### mx.run (R92 to R99, R126, R768) -/

/-- R96, R99, R102: the (row, block) pairs that stream row j of a run adds into. -/
def rowTargets (base cb pack : Nat) (axis : Bool) (j : Nat) : List (Nat × Nat) :=
  if axis then [(base + j, cb)]
  else
    let p := packP pack
    (upFrom (32 * (j % p) / p) (32 / p)).map (fun b => (base + j / p, b))

/-- Whether a run has (r, b) among its targets. -/
def MxRun.targets (x : MxRun) (r b : Nat) : Bool :=
  if x.axis then decide (x.base ≤ r) && decide (r < x.base + x.count) && b == x.cb
  else
    let p := packP x.pack
    decide (x.base ≤ r) && decide ((r - x.base) * p + b * p / 32 < x.count)

/-- R768: the record block (r, b) will hold once every accepted run has taken effect. -/
def MxArray.futureRec (a : MxArray) (r b : Nat) : Option Gauge :=
  a.runs.foldl (fun g x => if x.targets r b && x.count != 0 then (if x.clr then some x.gauge else
    match g with | some y => some y | none => some x.gauge) else g) (a.blockRec r b)

/-- R94: element and scale bytes of a stream row. -/
def streamBytes (f : Fmt) : Nat := rowBytes 3 f true
def streamScales (f : Fmt) : Nat := scaleBytes 3 f

/-- R94: the place of the scale plane after n rows. -/
def scalePlane (f : Fmt) (n : Nat) : Nat := (n * streamBytes f + 7) / 8 * 8

/-- R94, R275: whether n rows fit in a buffer. -/
def rowsFit (f : Fmt) (size n : Nat) : Bool :=
  decide ((if f.mx then scalePlane f n + n * streamScales f else n * streamBytes f) ≤ size)

/-- R275: the rows a buffer holds. -/
def bufRows (f : Fmt) (size : Nat) : Nat :=
  ((List.range (size / streamBytes f + 1)).filter (fun n => rowsFit f size n)).foldl max 0

/-- R126: the checks of mx.run before the source is counted: order 1 to 6. -/
def mxRunCheck1 (k : Cluster) (d : RunDesc) : Check :=
  match Fmt.ofCode d.wfmt with
  | none => .fault SHAPE
  | some f =>
    if d.rsv ∨ f = .fp32 then .fault SHAPE
    else if d.count = 0 then .noEffect
    else
      let st := if d.swap then k.arr.future.2 else k.arr.future.1
      let x := k.tile d.treg
      let p := packP st.pack
      if st.held = false then .fault SHAPE
      else if f.cls ≠ st.fmt.cls ∨ (d.kind ∧ (x.shape ≠ (if d.axis then 2 else 3) ∨ x.fmt ≠ f)) then .fault SHAPE
      else if (d.axis ∧ (p ≠ 1 ∨ f.cls = .c46 ∨ d.kind = false)) ∨ (d.axis = false ∧ d.cb ≠ 0) then .fault SHAPE
      else if 128 < d.base + (if d.axis then d.count else (d.count + p - 1) / p) then .fault EXTENT
      else .pass

/-- The run an mx.run becomes. -/
def mkRun (k : Cluster) (q : QInsn) (d : RunDesc) (f : Fmt) (h : Option HEntry) (b : Buf) : MxRun :=
  let st := if d.swap then k.arr.future.2 else k.arr.future.1
  { tk := q.tk, num := k.arr.nextRun, count := d.count, base := d.base, clr := d.clr, swap := d.swap, axis := d.axis,
    cb := d.cb, fmt := f, gauge := k.arr.gauge, pack := st.pack, treg := if d.kind then some d.treg else none,
    handle := h, buf := b, accepted := k.steps }

/-- R126: checks 7 and 8 over the run that would be accepted. -/
def mxRunCheck2 (k : Cluster) (r : MxRun) : Check :=
  let rows := match r.treg with | some t => (k.tile t).heldRows | none => bufRows r.fmt r.buf.size
  if rows < r.count then .fault EXTENT
  else if !r.clr && (List.range r.count).any (fun j => (rowTargets r.base r.cb r.pack r.axis j).any (fun p =>
      match k.arr.futureRec p.1 p.2 with | some g => g != r.gauge | none => false)) then .fault SHAPE
  else .pass

/-- R126, R132: accept a run: its number, its place, and the handle of its buffer popped. -/
def State.acceptRun (s : State) (c : Cl) (q : QInsn) (r : MxRun) : State :=
  let s := if r.handle.isSome then s.popQ c ((s.cl c).port 0) else s
  let s := if r.gauge.mode then s.mod c (fun k => { k with flags := Nat.lor k.flags 1 }) else s
  (s.acceptHead c .array q (word r.num)).arr c (fun a =>
    { a with runs := a.runs ++ [r], nextRun := (a.nextRun + 1) % 65536 })

/-- R126, R768: the array takes mx.run. -/
def mxRunAccept (c : Cl) (s : State) : Res :=
  let k := s.cl c
  match k.ready .array 1 with
  | none => waits s
  | some q =>
    if k.arr.runs.any (fun r => !r.begun && r.count != 0) then waits s
    else
      let d := runDesc q
      match mxRunCheck1 k d, Fmt.ofCode d.wfmt with
      | .fault st, _ => .next (s.faultHead c .array q st)
      | .noEffect, some f => .next (s.acceptRun c q { mkRun k q d f none ⟨0, 0⟩ with treg := none })
      | .pass, some f =>
        if d.kind then
          let r := mkRun k q d f none ⟨0, 0⟩
          match mxRunCheck2 k r with
          | .fault st => .next (s.faultHead c .array q st)
          | _ => .next (s.acceptRun c q r)
        else
          match k.queue (k.port 0) with
          | [] => waits s
          | h :: _ =>
            let r := mkRun k q d f (some h) (k.prop h.handle)
            match mxRunCheck2 k r with
            | .fault st => .next (s.faultHead c .array q st)
            | _ => .next (s.acceptRun c q r)
      | _, none => waits s

/-! ### Admission (R98, R108, R112 to R116) -/

/-- R116: the ramp as it stands in this step for a due row: running, or starting now. -/
def MxArray.rampNow (a : MxArray) : Ramp := if a.ramp.active then a.ramp else if 16 ≤ a.idle then ⟨true, 0, 0⟩ else a.ramp

/-- R116: the credit after this step's level is added. -/
def Ramp.credit1 (r : Ramp) : Nat := min (r.credit + (r.i / 4 + 1)) 16

/-- R116: the cost of an admission. -/
def rampCost (f : Fmt) : Nat := if f.cls = .c16 then 16 else 8

/-- The run whose rows enter next. -/
def MxArray.current (a : MxArray) : Option MxRun := a.runs.find? (fun r => decide (r.admitted < r.count))

/-- R98: the stream rows that enter together. -/
def MxRun.nextRows (r : MxRun) : List Nat := upFrom r.admitted (min (if r.axis then 1 else packP r.pack) (r.count - r.admitted))

/-- R116: whether a run is due to let a row in in this step, apart from ramp, hazard and load. -/
def Cluster.due (k : Cluster) (r : MxRun) : Bool :=
  k.arr.admitted.isNone && decide (r.accepted + 4 ≤ k.steps)
    && !(k.arr.flights.any (fun f => f.age < 2 && r.fmt.cls == .c16 && k.arr.runs.any (fun x => x.tk == f.tk && x.fmt.cls == .c16)))

/-- R114: the accumulator hazard: a target also targeted by a row admitted one or two steps earlier. -/
def MxArray.hazard (a : MxArray) (r : MxRun) : Bool :=
  a.flights.any (fun f => decide (f.age < 3) && a.runs.any (fun x => x.tk == f.tk &&
    (List.range f.rows.length).any (fun i => (rowTargets x.base x.cb x.pack x.axis (f.j + i)).any (fun t =>
      r.nextRows.any (fun j => (rowTargets r.base r.cb r.pack r.axis j).contains t)))))

/-- R111: a swapping run that awaits its load. -/
def MxArray.loadWait (a : MxArray) (r : MxRun) : Bool :=
  !r.begun && r.swap && (a.loads.any (fun l => decide (l.tk < r.tk)) || !(a.store a.shadow).held)

/-- R116: whether the ramp withholds the row. -/
def MxArray.rampHolds (a : MxArray) (r : MxRun) : Bool :=
  a.rampNow.active && decide (a.rampNow.credit1 < rampCost r.fmt)

/-- R112, R113: the run that may let rows in in this step. -/
def Cluster.admissible (k : Cluster) : Option MxRun :=
  match k.arr.current with
  | some r =>
    if k.due r && k.arr.pushes.isEmpty && !(k.arr.hazard r) && !(k.arr.loadWait r) && !(k.arr.rampHolds r) then some r else none
  | none => none

/-- R94, R267: the operand bytes of stream row j from the scratchpad; a poisoned word reads zero and marks the row. -/
def Cluster.feedRow (k : Cluster) (r : MxRun) (j : Nat) : RowOps × List Nat :=
  let n := bufRows r.fmt r.buf.size
  let eb := streamBytes r.fmt
  let sb := streamScales r.fmt
  let get := fun (a len : Nat) => (upFrom a len).map (fun x => if k.bad.contains (x / 8) then 0 else amGet 0 k.sp x)
  let ea := r.buf.base + j * eb
  let sa := r.buf.base + scalePlane r.fmt n + j * sb
  let bad := k.spBad ea eb ++ (if sb = 0 then [] else k.spBad sa sb)
  (⟨get ea eb, get sa sb, !bad.isEmpty⟩, bad)

/-- The operand bytes of stream row j from a tile register. -/
def Cluster.regRow (k : Cluster) (t j : Nat) : RowOps := ⟨k.tileRow t j, k.tileScales t j, false⟩

/-- R98: the rows that are due enter the array; the first row of a swapping run swaps the stores (R89); the last row of a
buffer makes its handle due (R95). -/
def State.admitRows (s : State) (c : Cl) (r : MxRun) (ecc : Ecc) : State :=
  let js := r.nextRows
  let fresh := !r.begun
  let s := match r.treg with
    | none => s.spEcc c ecc
    | some t =>
      let s := s.tileEcc c t ecc
      s.tileUe c t (js.filter (fun j => (s.cl c).tileRowBad t j)).length
  let k := s.cl c
  let rows := js.map (fun j => match r.treg with | some t => (k.regRow t j, []) | none => k.feedRow r j)
  let s := s.spEncounters c 0 (rows.flatMap (·.2))
  let s := s.cinc c CL_MX_CNT_ROWS js.length
  s.arr c (fun a =>
    let a := if fresh && r.swap then { a with active := a.shadow } else a
    let r' := if fresh then { r with begun := true, store := a.active, tile := a.store a.active } else r
    let r' := { r' with admitted := r.admitted + js.length }
    let last := r'.admitted == r'.count
    let a := { a with
      runs := a.runs.map (fun x => if x.tk = r.tk then r' else x)
      flights := a.flights ++ [⟨r.tk, r.admitted, 0, rows.map (·.1), [], []⟩]
      admitted := some (rampCost r.fmt) }
    match last, r.handle with
    | true, some h => { a with pushes := a.pushes ++ [.handle { h with own := none }] }
    | _, _ => a)

/-- R98, R108: up to P stream rows enter in this step. -/
def execArrayRowAdmit (c : Cl) (ecc : Ecc) (s : State) : Res :=
  match (s.cl c).admissible with
  | some r => .next (s.admitRows c r ecc)
  | none => waits s

/-! ### The pipeline step (R108 to R113, R121 to R124) -/

/-- R233: a result entry. -/
def MxRun.result (r : MxRun) : BitVec 32 :=
  let p := packP r.pack
  BitVec.ofNat 32 (place 15 0 r.num + place 22 16 r.base
    + place 30 23 (if r.axis then r.count else (r.count + p - 1) / p) + place 31 31 (b2n (r.count == 0)))

/-- Whether the first due push finds room. -/
def Cluster.pushRoom (k : Cluster) : Bool :=
  match k.arr.pushes with
  | .handle _ :: _ => k.room (k.port 1)
  | .result _ :: _ => decide (k.resq.length < 8)
  | [] => false

/-- R110: whether the oldest run is complete but has not been completed yet. -/
def MxArray.completable (a : MxArray) : Option MxRun :=
  match a.runs with
  | r :: _ => if r.verdicts = r.count then some r else none
  | [] => none

/-- R112: a step frozen by backpressure; by starvation. -/
def Cluster.backpressure (k : Cluster) : Bool := !k.arr.pushes.isEmpty && !k.pushRoom
def Cluster.starved (k : Cluster) : Bool := k.admissible.isSome

/-- R108, R109: how old a row is when its group g (from the sub-array's first) is written, and at its verdict. -/
def writeAge (r : MxRun) (g : Nat) : Nat :=
  let h := if r.fmt.cls = .c16 then 1 else 0
  if r.axis then 37 + h else g + 5 + h
def verdictAge (r : MxRun) : Nat :=
  let h := if r.fmt.cls = .c16 then 1 else 0
  if r.axis then 41 + h else lastGroup r.pack + 9 + h

/-- R92, R102: the block that row i of a flight writes at its age, with the products of each column. -/
def flightWrite (r : MxRun) (f : Flight) (i : Nat) (sl : Option Slip) : Option (Nat × Nat × List (Nat × List Val)) :=
  match f.rows[i]? with
  | none => none
  | some ops =>
    let j := f.j + i
    if r.axis then
      if f.age = writeAge r 0 then
        some (r.base + j, r.cb, (List.range 32).map (fun w => (32 * r.cb + w,
          (List.range 32).flatMap (fun g => slipProducts (wideProducts r.tile r.fmt ops g w) sl (32 * g + w)))))
      else none
    else
      let p := packP r.pack
      let h := if r.fmt.cls = .c16 then 6 else 5
      let g := f.age - h
      if h ≤ f.age ∧ g < 32 / p then
        let b := 32 * (j % p) / p + g
        some (r.base + j / p, b, (List.range 32).map (fun w =>
          (32 * b + w, slipProducts (unitProducts r.tile r.fmt ops (32 * b + w)) sl (32 * b + w))))
      else none

/-- Whether a slip falls on a unit of a write. -/
def slipHits (r : MxRun) (b : Nat) (sl : Option Slip) : Bool :=
  match sl with | some x => r.axis || x.unit.val / 32 == b | none => false

/-- One row's write of this step: accumulators, peak, and what the checksum will see. -/
def MxArray.stepRow (a : MxArray) (f : Flight) (i : Nat) (sl : Option Slip) : MxArray :=
  match a.runs.find? (fun r => r.tk == f.tk) with
  | none => a
  | some r =>
    match flightWrite r f i sl with
    | none => a
    | some w =>
      let ps := w.2.2.flatMap (·.2)
      let nan := match f.rows[i]? with | some o => o.nan | none => false
      let a := a.update r w.1 w.2.1 nan w.2.2
      let odd := ps.any (fun v => match v with | .fin _ _ _ => false | _ => true)
      { a with
        runs := a.runs.map (fun x => if x.tk = r.tk then { x with peak := x.peak.see ps } else x)
        flights := a.flights.map (fun y => if y.tk = f.tk ∧ y.j = f.j then
          { y with unchk := if odd then nsIns y.unchk i else y.unchk,
                   slips := if slipHits r w.2.1 sl then nsIns y.slips i else y.slips } else y) }

/-- The blocks written in this step, for the check bits of R164 and R165. -/
def MxArray.writes (a : MxArray) : List Nat :=
  a.flights.flatMap (fun f => match a.runs.find? (fun r => r.tk == f.tk) with
    | some r => (List.range f.rows.length).filterMap (fun i => (flightWrite r f i none).map (fun w => 32 * w.1 + w.2.1))
    | none => [])

/-- R162, R164, R165: the check bits of an accumulator entry or block record read in this step. -/
def State.accEcc (s : State) (c : Cl) (ecc : Ecc) (blocks : List Nat) : State :=
  match ecc with
  | .clean => s
  | .corrected w => if blocks.contains (if w < 131072 then w / 32 else w - 131072) then s.cinc c CL_ACC_CNT_CE 1 else s
  | .uncorrectable w =>
    let b := if w < 131072 then w / 32 else w - 131072
    if blocks.contains b = false then s
    else
      let s := s.arr c (fun a =>
        let a := if w < 131072 then a else { a with blocks := amDel a.blocks b }
        a.spoil w)
      let row := b / 32
      let col := if w < 131072 then w % 1024 else 32 * (b % 32)
      let s := s.ccap c CL_ACC_ERR 18 (row + place 16 7 col + place 17 17 (b2n (decide (131072 ≤ w))))
      let s := (s.cinc c CL_ACC_CNT_UE 1).logErr { source := 3, cls := POISON,
                                                        cause := if w < 131072 then 1 else 2, unit := c.val,
                                                        ctx := some (s.cl c).owner, info := word (s.cr c CL_ACC_ERR) }
      if bit (s.cr c CL_TILE_CTRL) 1 then s.irq c 18 else s

/-- R124: a checksum mismatch of row j of a run. -/
def State.mismatch (s : State) (c : Cl) (r : MxRun) (j : Nat) : State :=
  let p := packP r.pack
  let info := place 15 0 r.num + place 26 16 j + place 33 27 (if r.axis then r.base + j else r.base + j / p)
    + place 36 34 (if r.axis then 0 else j % p) + place 37 37 (b2n r.axis) + 2 ^ 38
  let s := if bit (s.cr c CL_MX_STATUS) 4 then s.cwf c CL_MX_STATUS 5 5 1
    else (s.cwf c CL_MX_STATUS 4 4 1).mod c (fun k => k.w CL_MX_CKINFO info)
  let s := s.cinc c CL_MX_CNT_CKERR 1
  let s := s.arr c (fun a =>
    let st := a.store r.store
    if st.tk = r.tile.tk then a.setStore r.store { st with flagged := true } else a)
  let s := s.logErr { source := 1, cls := POISON, cause := 1, unit := c.val, ctx := some (s.cl c).owner,
                      info := word (s.cr c CL_MX_CKINFO) }
  if bit (s.cr c CL_MX_CTRL) 0 then s.irq c 17 else s

/-- R121 to R124: the verdicts of a flight. -/
def State.verdict (s : State) (c : Cl) (f : Flight) : State :=
  match (s.cl c).arr.runs.find? (fun r => r.tk == f.tk) with
  | none => s
  | some r =>
    if f.age = verdictAge r then
      let special := r.tile.special
      let s := (List.range f.rows.length).foldl (fun s i =>
        if special || f.unchk.contains i then s.cinc c CL_MX_CNT_UNCHK 1
        else if f.slips.contains i then s.mismatch c r (f.j + i) else s) s
      s.arr c (fun a => { a with
        runs := a.runs.map (fun x => if x.tk = r.tk then { x with verdicts := x.verdicts + f.rows.length } else x)
        flights := a.flights.filter (fun y => !(y.tk == f.tk && y.j == f.j)) })
    else s

/-- R116: the ramp after this step, which was not frozen. -/
def MxArray.rampNext (a : MxArray) (due : Bool) : Ramp :=
  let r := if a.ramp.active || due || a.admitted.isSome then a.rampNow else a.ramp
  if r.active then
    let i := r.i + 1
    if i = 32 then ⟨false, 0, 0⟩ else ⟨true, i, r.credit1 - a.admitted.getD 0⟩
  else r

/-- Whether a row would be due now but for ramp, hazard or load wait. -/
def Cluster.heldRow (k : Cluster) : Option MxRun :=
  match k.arr.current with
  | some r => if k.due r && k.arr.pushes.isEmpty && (k.arr.hazard r || k.arr.loadWait r || k.arr.rampHolds r) then some r else none
  | none => none

/-- The parts of a step that pass whether or not the array is frozen: the transfer of an mx.load, the idle count. -/
def MxArray.passStep (a : MxArray) : MxArray :=
  { a with
    loads := a.loads.map (fun l => { l with started := l.started.map (· + 1) })
    idle := if a.admitted.isSome then 0 else a.idle + 1
    admitted := none }

/-- R112: a frozen step. -/
def State.frozenStep (s : State) (c : Cl) (ctr : Nat) : State :=
  (s.cinc c ctr 1).arr c (fun a => { a.passStep with frozen := true })

/-- R108 to R111, R121: a step that is not frozen. -/
def State.liveStep (s : State) (c : Cl) (slip : Option Slip) (ecc : Ecc) : State :=
  let k := s.cl c
  let due := match k.arr.current with | some r => k.due r | none => false
  let s := if k.arr.flights.isEmpty then s else s.cinc c CL_MX_CNT_BUSY 1
  let s := match k.heldRow with
    | some r => (s.cinc c CL_MX_CNT_HOLD 1).cinc c CL_MX_CNT_HAZARD (b2n (k.arr.hazard r))
    | none => s
  let s := s.accEcc c ecc k.arr.writes
  let fl := (s.cl c).arr.flights
  let s := s.arr c (fun a => fl.foldl (fun a f => (List.range f.rows.length).foldl (fun a i => a.stepRow f i slip) a) a)
  let s := (s.cl c).arr.flights.foldl (fun s f => s.verdict c f) s
  s.arr c (fun a =>
    { a.passStep with
      ramp := a.rampNext due
      frozen := false
      flights := a.flights.map (fun f => { f with age := f.age + 1 }) })

/-- Whether the step can pass: a due push that finds room, and the completion of a finished run, come first (R112). -/
def Cluster.stepReady (k : Cluster) : Bool := !k.pushRoom && k.arr.completable.isNone

/-- R108 to R113: the array's part of one step of the cluster. -/
def State.arrayStep (s : State) (c : Cl) (slip : Option Slip) (ecc : Ecc) : State :=
  if (s.cl c).backpressure then s.frozenStep c CL_MX_CNT_BP
  else if (s.cl c).starved then s.frozenStep c CL_MX_CNT_STARVE
  else s.liveStep c slip ecc

/-! ### Completion and hand-off (R95, R110, R112, R117) -/

/-- R95, R112: the first due push is made once its queue has room. -/
def execArrayHandlePush (c : Cl) (s : State) : Res :=
  if (s.cl c).pushRoom = false then waits s
  else
    match (s.cl c).arr.pushes with
    | .handle h :: _ =>
      .next ((s.pushQ c ((s.cl c).port 1) h).arr c (fun a => { a with pushes := a.pushes.tail }))
    | .result w :: _ =>
      .next ((s.mod c (fun k => { k with resq := k.resq ++ [w] })).arr c (fun a => { a with pushes := a.pushes.tail }))
    | [] => waits s

/-- R107, R110, R119: the oldest run completes. -/
def execRunComplete (c : Cl) (s : State) : Res :=
  match (s.cl c).arr.completable with
  | none => waits s
  | some r => .next ((s.progressed c).arr c (fun a => { a with
      runs := a.runs.tail
      lastRun := r.num
      peak := if r.count = 0 then a.peak else a.peak.join r.peak
      peakRun := if r.count = 0 then a.peakRun else r.num
      pushes := a.pushes ++ [.result r.result] }))

/-- R134: PEAKCLR. -/
def State.peakClear (s : State) (c : Cl) : State := s.arr c (fun a => { a with peak := {}, peakRun := 0 })

end Sys2Proof.Machine
end

