-- ==== Sys2Proof/Machine/CoreDecode.lean ====
section
/-! DEFINITION. Sys2Proof/Machine/CoreDecode.lean: the control core's instruction words: the compressed forms and the
base forms they stand for (R213), the engine extension's encodings (R129, R223), and the registers a word names (R230). -/

namespace Sys2Proof.Machine

/-! ### Fields of a 32-bit word -/

def iOp (w : Nat) : Nat := bits w 6 0
def iRd (w : Nat) : Nat := bits w 11 7
def iF3 (w : Nat) : Nat := bits w 14 12
def iRs1 (w : Nat) : Nat := bits w 19 15
def iRs2 (w : Nat) : Nat := bits w 24 20
def iF7 (w : Nat) : Nat := bits w 31 25

/-- Immediates of the base forms. -/
def immI (w : Nat) : Int := sgn 12 (bits w 31 20)
def immS (w : Nat) : Int := sgn 12 (bits w 31 25 * 32 + bits w 11 7)
def immB (w : Nat) : Int := sgn 13 (bits w 31 31 * 4096 + bits w 7 7 * 2048 + bits w 30 25 * 32 + bits w 11 8 * 2)
def immU (w : Nat) : Int := sgn 32 (bits w 31 12 * 4096)
def immJ (w : Nat) : Int := sgn 21 (bits w 31 31 * 1048576 + bits w 19 12 * 4096 + bits w 20 20 * 2048 + bits w 30 21 * 2)

/-! ### Building words -/

def encR (f7 rs2 rs1 f3 rd op : Nat) : Nat := place 31 25 f7 + place 24 20 rs2 + place 19 15 rs1 + place 14 12 f3 + place 11 7 rd + op
def encI (imm rs1 f3 rd op : Nat) : Nat := place 31 20 imm + place 19 15 rs1 + place 14 12 f3 + place 11 7 rd + op
def encS (imm rs2 rs1 f3 op : Nat) : Nat :=
  place 31 25 (imm / 32) + place 24 20 rs2 + place 19 15 rs1 + place 14 12 f3 + place 11 7 imm + op
def encB (imm rs1 f3 : Nat) : Nat :=
  place 31 31 (imm / 4096) + place 30 25 (imm / 32) + place 19 15 rs1 + place 14 12 f3 + place 11 8 (imm / 2)
    + place 7 7 (imm / 2048) + 0x63
def encU (imm20 rd op : Nat) : Nat := place 31 12 imm20 + place 11 7 rd + op
def encJ (imm rd : Nat) : Nat :=
  place 31 31 (imm / 1048576) + place 30 21 (imm / 2) + place 20 20 (imm / 2048) + place 19 12 (imm / 4096) + place 11 7 rd + 0x6F

/-! ### The C extension (R213) -/

/-- A 6-bit compressed immediate, sign-extended to 12 bits. -/
def cImm6 (h : Nat) : Nat := wrapInt 12 (sgn 6 (bits h 12 12 * 32 + bits h 6 2))

/-- Quadrant 0. -/
def rvc0 (h : Nat) : Option Nat :=
  let rd := 8 + bits h 4 2
  let rs1 := 8 + bits h 9 7
  let w := bits h 12 10 * 8 + bits h 6 6 * 4 + bits h 5 5 * 64
  let d := bits h 12 10 * 8 + bits h 6 5 * 64
  match bits h 15 13 with
  | 0 =>
    let imm := bits h 12 11 * 16 + bits h 10 7 * 64 + bits h 6 6 * 4 + bits h 5 5 * 8
    if imm = 0 then none else some (encI imm 2 0 rd 0x13)
  | 2 => some (encI w rs1 2 rd 0x03)
  | 3 => some (encI d rs1 3 rd 0x03)
  | 6 => some (encS w rd rs1 2 0x23)
  | 7 => some (encS d rd rs1 3 0x23)
  | _ => none

/-- The arithmetic of quadrant 1, function 4. -/
def rvc1Alu (h : Nat) : Option Nat :=
  let rd := 8 + bits h 9 7
  let rs2 := 8 + bits h 4 2
  let sh := bits h 12 12 * 32 + bits h 6 2
  match bits h 11 10 with
  | 0 => some (encI sh rd 5 rd 0x13)
  | 1 => some (encI (sh + 0x400) rd 5 rd 0x13)
  | 2 => some (encI (cImm6 h) rd 7 rd 0x13)
  | _ =>
    match bits h 12 12, bits h 6 5 with
    | 0, 0 => some (encR 0x20 rs2 rd 0 rd 0x33)
    | 0, 1 => some (encR 0 rs2 rd 4 rd 0x33)
    | 0, 2 => some (encR 0 rs2 rd 6 rd 0x33)
    | 0, _ => some (encR 0 rs2 rd 7 rd 0x33)
    | _, 0 => some (encR 0x20 rs2 rd 0 rd 0x3B)
    | _, 1 => some (encR 0 rs2 rd 0 rd 0x3B)
    | _, _ => none

/-- Quadrant 1. -/
def rvc1 (h : Nat) : Option Nat :=
  let rd := bits h 11 7
  let b := wrapInt 13 (sgn 9 (bits h 12 12 * 256 + bits h 11 10 * 8 + bits h 6 5 * 64 + bits h 4 3 * 2 + bits h 2 2 * 32))
  match bits h 15 13 with
  | 0 => some (encI (cImm6 h) rd 0 rd 0x13)
  | 1 => if rd = 0 then none else some (encI (cImm6 h) rd 0 rd 0x1B)
  | 2 => some (encI (cImm6 h) 0 0 rd 0x13)
  | 3 =>
    if rd = 2 then
      let imm := bits h 12 12 * 512 + bits h 6 6 * 16 + bits h 5 5 * 64 + bits h 4 3 * 128 + bits h 2 2 * 32
      if imm = 0 then none else some (encI (wrapInt 12 (sgn 10 imm)) 2 0 2 0x13)
    else
      let imm := bits h 12 12 * 32 + bits h 6 2
      if imm = 0 then none else some (encU (wrapInt 20 (sgn 6 imm)) rd 0x37)
  | 4 => rvc1Alu h
  | 5 =>
    let j := bits h 12 12 * 2048 + bits h 11 11 * 16 + bits h 10 9 * 256 + bits h 8 8 * 1024 + bits h 7 7 * 64
      + bits h 6 6 * 128 + bits h 5 3 * 2 + bits h 2 2 * 32
    some (encJ (wrapInt 21 (sgn 12 j)) 0)
  | 6 => some (encB b (8 + bits h 9 7) 0)
  | _ => some (encB b (8 + bits h 9 7) 1)

/-- Quadrant 2. -/
def rvc2 (h : Nat) : Option Nat :=
  let rd := bits h 11 7
  let rs2 := bits h 6 2
  match bits h 15 13 with
  | 0 => some (encI (bits h 12 12 * 32 + rs2) rd 1 rd 0x13)
  | 2 => if rd = 0 then none else some (encI (bits h 12 12 * 32 + bits h 6 4 * 4 + bits h 3 2 * 64) 2 2 rd 0x03)
  | 3 => if rd = 0 then none else some (encI (bits h 12 12 * 32 + bits h 6 5 * 8 + bits h 4 2 * 64) 2 3 rd 0x03)
  | 4 =>
    if bits h 12 12 = 0 then
      if rs2 = 0 then (if rd = 0 then none else some (encI 0 rd 0 0 0x67)) else some (encR 0 rs2 0 0 rd 0x33)
    else if rs2 = 0 then (if rd = 0 then some 0x00100073 else some (encI 0 rd 0 1 0x67))
    else some (encR 0 rs2 rd 0 rd 0x33)
  | 6 => some (encS (bits h 12 9 * 4 + bits h 8 7 * 64) rs2 2 2 0x23)
  | 7 => some (encS (bits h 12 10 * 8 + bits h 9 7 * 64) rs2 2 3 0x23)
  | _ => none

/-- The base word that a 16-bit instruction stands for; none if it is reserved, or of an extension the core lacks. -/
def rvcExpand (h : Nat) : Option Nat :=
  match bits h 1 0 with
  | 0 => rvc0 h
  | 1 => rvc1 h
  | 2 => rvc2 h
  | _ => none

/-! ### The engine extension (R129, R223) -/

/-- The instructions of the engine extension. -/
inductive EngOp
  | tileCfg | tileLd | tileRel | mxLoad | mxRun | mxGauge | vxChain | stPost | stResume
  | sySig | syWait | syWatch | syWaitinv | fenceEng | fenceKern | cacheInv
  deriving DecidableEq, Repr

/-- R129, R223: the engine instruction of a word whose fields marked 0 are zero. -/
def engOp (w : Nat) : Option EngOp :=
  let f7 := iF7 w == 0
  let rs2 := iRs2 w == 0
  let rs1 := iRs1 w == 0
  let rd := iRd w == 0
  let take := fun (ok : Bool) (e : EngOp) => if ok then some e else none
  match iOp w, iF3 w with
  | 0x0B, 0 => take (f7 && rs2) .tileCfg
  | 0x0B, 1 => take (f7 && bits w 11 10 == 0) .tileLd
  | 0x0B, 2 => take (f7 && rs2 && rd) .tileRel
  | 0x2B, 0 => take (bits w 31 26 == 0 && rs1 && rd) .mxLoad
  | 0x2B, 1 => take f7 .mxRun
  | 0x2B, 2 => take (f7 && rs2) .mxGauge
  | 0x5B, 0 => take f7 .vxChain
  | 0x5B, 1 => take (f7 && rs2) .stPost
  | 0x5B, 2 => take (f7 && rs2) .stResume
  | 0x7B, 0 => take (f7 && rd) .sySig
  | 0x7B, 1 => take f7 .syWait
  | 0x7B, 2 => take f7 .syWatch
  | 0x7B, 3 => take f7 .syWaitinv
  | 0x7B, 4 => take (f7 && rs2 && rd) .fenceEng
  | 0x7B, 5 => take (f7 && rs2 && rs1 && rd) .fenceKern
  | 0x7B, 6 => take (f7 && rd) .cacheInv
  | _, _ => none

/-- The integer registers an engine instruction reads and writes: rs1, rs2, rd (0 for none). -/
def EngOp.regs (e : EngOp) (w : Nat) : Nat × Nat × Nat :=
  match e with
  | .tileCfg => (iRs1 w, 0, iRd w)
  | .tileLd => (iRs1 w, iRs2 w, 0)
  | .tileRel => (iRs1 w, 0, 0)
  | .mxLoad => (0, 0, 0)
  | .mxRun => (iRs1 w, iRs2 w, iRd w)
  | .mxGauge => (iRs1 w, 0, iRd w)
  | .vxChain => (iRs1 w, iRs2 w, iRd w)
  | .stPost => (iRs1 w, 0, iRd w)
  | .stResume => (iRs1 w, 0, iRd w)
  | .sySig => (iRs1 w, iRs2 w, 0)
  | .syWait => (iRs1 w, iRs2 w, iRd w)
  | .syWatch => (iRs1 w, iRs2 w, iRd w)
  | .syWaitinv => (iRs1 w, iRs2 w, iRd w)
  | .fenceEng => (iRs1 w, 0, 0)
  | .fenceKern => (0, 0, 0)
  | .cacheInv => (iRs1 w, iRs2 w, 0)

/-- R230: the registers a word reads or writes. -/
def wordRegs (w : Nat) : List Nat :=
  match engOp w with
  | some e => let r := e.regs w; [r.1, r.2.1, r.2.2]
  | none =>
    match iOp w with
    | 0x03 => [iRs1 w, iRd w]
    | 0x13 => [iRs1 w, iRd w]
    | 0x1B => [iRs1 w, iRd w]
    | 0x67 => [iRs1 w, iRd w]
    | 0x17 => [iRd w]
    | 0x37 => [iRd w]
    | 0x6F => [iRd w]
    | 0x23 => [iRs1 w, iRs2 w]
    | 0x63 => [iRs1 w, iRs2 w]
    | 0x33 => [iRs1 w, iRs2 w, iRd w]
    | 0x3B => [iRs1 w, iRs2 w, iRd w]
    | 0x2F => [iRs1 w, iRs2 w, iRd w]
    | 0x73 => if iF3 w = 0 then [] else if 4 ≤ iF3 w then [iRd w] else [iRs1 w, iRd w]
    | _ => []

end Sys2Proof.Machine
end

