-- ==== Sys2Proof/Machine/VectorNum.lean ====
section
/-! DEFINITION. Sys2Proof/Machine/VectorNum.lean: the arithmetic of the vector engine's lanes (R173, R189, R191), the
random words of stochastic rounding (R519) and CRC-32C. -/

namespace Sys2Proof.Machine

/-! ### Philox-4x32-10 (R519) -/

/-- One evaluation's four counter words, over the rounds still to run. -/
def philoxRounds : Nat → Nat → Nat → Nat → Nat → Nat → Nat → Nat × Nat × Nat × Nat
  | 0, _, _, c0, c1, c2, c3 => (c0, c1, c2, c3)
  | n + 1, k0, k1, c0, c1, c2, c3 =>
    let p0 := 0xD2511F53 * c0
    let p1 := 0xCD9E8D57 * c2
    philoxRounds n ((k0 + 0x9E3779B9) % 2 ^ 32) ((k1 + 0xBB67AE85) % 2 ^ 32)
      (Nat.xor (Nat.xor (p1 / 2 ^ 32) c1) k0) (p1 % 2 ^ 32) (Nat.xor (Nat.xor (p0 / 2 ^ 32) c3) k1) (p0 % 2 ^ 32)

/-- R519: the word of (seed, site, domain, idx). -/
def philox (seed site domain idx : Nat) : BitVec 32 :=
  let r := philoxRounds 10 (seed % 2 ^ 32) (seed / 2 ^ 32 % 2 ^ 32) (idx / 4 % 2 ^ 32) (idx / 2 ^ 34 % 2 ^ 32)
    (site % 2 ^ 16 + domain % 2 ^ 16 * 2 ^ 16) 0
  BitVec.ofNat 32 (match idx % 4 with | 0 => r.1 | 1 => r.2.1 | 2 => r.2.2.1 | _ => r.2.2.2)

/-! ### CRC-32C -/

/-- Bit steps of the reflected polynomial. -/
def crcBits : Nat → Nat → Nat
  | 0, c => c
  | n + 1, c => if c % 2 = 1 then crcBits n (Nat.xor (c / 2) 0x82F63B78) else crcBits n (c / 2)

/-- CRC-32C of bytes: initial value and final complement all ones. -/
def crc32c (bs : List Byte) : BitVec 32 :=
  BitVec.ofNat 32 (Nat.xor (bs.foldl (fun c b => crcBits 8 (Nat.xor c b.toNat)) 0xFFFFFFFF) 0xFFFFFFFF)

/-! ### FP32 words -/

def nan32 : BitVec 32 := 0x7FC00000#32
def inf32 (neg : Bool) : BitVec 32 := if neg then 0xFF800000#32 else 0x7F800000#32
def one32 : BitVec 32 := 0x3F800000#32

/-- Whether a word is a NaN. -/
def isNan (w : BitVec 32) : Bool := match f32Val w with | .nan => true | _ => false

/-- A NaN in canonical form, other words unchanged (R173). -/
def quiet (w : BitVec 32) : BitVec 32 := if isNan w then nan32 else w

/-- Sign of a word. -/
def negOf (w : BitVec 32) : Bool := w.getLsbD 31

/-- An integer that orders the words that are not NaN as their values, −0 below +0. -/
def ordKey (w : BitVec 32) : Int := if negOf w then -((w.toNat % 2 ^ 31 : Nat) : Int) - 1 else (w.toNat : Int)

/-- Strict comparison of values: false with a NaN; −0 equals +0. -/
def fgt (a b : BitVec 32) : Bool :=
  match f32Val a, f32Val b with
  | .nan, _ => false
  | _, .nan => false
  | .fin _ 0 _, .fin _ 0 _ => false
  | _, _ => decide (ordKey b < ordKey a)

/-- R189: sums, products, and the fused form, each rounded once. -/
def fadd (a b : BitVec 32) : BitVec 32 := f32Round (Val.add (f32Val a) (f32Val b))
def fsub (a b : BitVec 32) : BitVec 32 := f32Round (Val.add (f32Val a) (f32Val b).neg)
def fmul (a b : BitVec 32) : BitVec 32 := f32Round (Val.mul (f32Val a) (f32Val b))
def ffma (a b c : BitVec 32) : BitVec 32 := f32Round (Val.add (Val.mul (f32Val a) (f32Val b)) (f32Val c))

/-- R189: the larger, with +0 above −0; the smaller, with −0 below +0; NaN if either is NaN. -/
def fmax (a b : BitVec 32) : BitVec 32 :=
  if isNan a || isNan b then nan32 else if ordKey a < ordKey b then b else a
def fmin (a b : BitVec 32) : BitVec 32 :=
  if isNan a || isNan b then nan32 else if ordKey b < ordKey a then b else a

/-- The integer square root, bit by bit from bit n. -/
def isqrtFrom (v : Nat) : Nat → Nat → Nat
  | 0, r => if (r + 1) * (r + 1) ≤ v then r + 1 else r
  | n + 1, r => isqrtFrom v n (if (r + 2 ^ (n + 1)) * (r + 2 ^ (n + 1)) ≤ v then r + 2 ^ (n + 1) else r)

/-- The largest r with r² ≤ v. -/
def isqrt (v : Nat) : Nat := isqrtFrom v (v.log2 / 2) 0

/-- A truncated magnitude q of 2^e with a sticky bit below it, as a value that rounds as the exact one. -/
def sticky (neg : Bool) (q : Nat) (rest : Bool) (e : Int) : Val := .fin neg (2 * q + b2n rest) (e - 1)

/-- R189: 1 / in. -/
def frecip (a : BitVec 32) : BitVec 32 :=
  match f32Val a with
  | .nan => nan32
  | .inf s => f32Round (.fin s 0 0)
  | .fin s m e =>
    if m = 0 then inf32 s
    else
      let k := 40 + m.log2
      f32Round (sticky s (2 ^ k / m) (2 ^ k % m != 0) (-e - k))

/-- A positive magnitude as m · 2^(2 h). -/
def evenExp (m : Nat) (e : Int) : Nat × Int := if e % 2 = 0 then (m, e / 2) else (2 * m, (e - 1) / 2)

/-- R189: √in. -/
def fsqrt (a : BitVec 32) : BitVec 32 :=
  match f32Val a with
  | .nan => nan32
  | .inf s => if s then nan32 else inf32 false
  | .fin s m e =>
    if m = 0 then a
    else if s then nan32
    else
      let p := evenExp m e
      let v := p.1 * 2 ^ 80
      let r := isqrt v
      f32Round (sticky false r (r * r != v) (p.2 - 40))

/-- R189: 1 / √in. -/
def frsqrt (a : BitVec 32) : BitVec 32 :=
  match f32Val a with
  | .nan => nan32
  | .inf s => if s then nan32 else 0#32
  | .fin s m e =>
    if m = 0 then inf32 s
    else if s then nan32
    else
      let p := evenExp m e
      let r := isqrt (2 ^ 128 / p.1)
      f32Round (sticky false r (r * r * p.1 != 2 ^ 128) (-p.2 - 64))

/-! EXP2 and LOG2 are computed in fixed point far below the FP32 place (assumption 20): their values at arguments that are
not special are irrational, so the truncated value with a sticky bit rounds as the exact one. -/

/-- The product of the roots 2^(2^−i), i from 1, over the bits of a fraction of n bits, in fixed point of 192 bits. root
holds 2^(2^−i) for the next bit. -/
def exp2Frac : Nat → Nat → Nat → Nat → Nat
  | 0, _, _, acc => acc
  | n + 1, f, root, acc =>
    let r := isqrt (root * 2 ^ 192)
    exp2Frac n f r (if bit f n then acc * r / 2 ^ 192 else acc)

/-- R189: 2^in. -/
def fexp2 (a : BitVec 32) : BitVec 32 :=
  match f32Val a with
  | .nan => nan32
  | .inf s => if s then 0#32 else inf32 false
  | .fin s m e =>
    if m = 0 ∨ topExp m e < -26 then one32
    else if 8 ≤ topExp m e then (if s then 0#32 else inf32 false)
    else
      -- in = i · 2^−50 exactly
      let i := alignTo s m e (-50)
      let n := i / 2 ^ 50
      let f := (i % 2 ^ 50).toNat
      if f = 0 then f32Round (.fin false 1 n)
      else f32Round (sticky false (exp2Frac 50 f (2 * 2 ^ 192) (2 ^ 192)) true (n - 192))

/-- The next n bits of log2 of y / 2^p, y of fixed point p in [1, 2). -/
def log2Frac (p : Nat) : Nat → Nat → Nat → Nat
  | 0, _, acc => acc
  | n + 1, y, acc =>
    let q := y * y / 2 ^ p
    if 2 ^ (p + 1) ≤ q then log2Frac p n (q / 2) (2 * acc + 1) else log2Frac p n q (2 * acc)

/-- R189: log2(in). -/
def flog2 (a : BitVec 32) : BitVec 32 :=
  match f32Val a with
  | .nan => nan32
  | .inf s => if s then nan32 else inf32 false
  | .fin s m e =>
    if m = 0 then inf32 true
    else if s then nan32
    else
      let k := m.log2
      let n : Int := k + e
      if m = 2 ^ k then f32Round (.ofInt n 0)
      else
        let fr := log2Frac 400 128 (m * 2 ^ (400 - k)) 0
        -- the value lies strictly between t and t + 1 units of 2^−128
        let t := n * 2 ^ 128 + fr
        f32Round (.ofInt (2 * t + 1) (-129))

/-- R189: the largest integer not above; the nearest integer, ties to even; a zero keeps its sign. -/
def ffloor (a : BitVec 32) : BitVec 32 :=
  match f32Val a with
  | .nan => nan32
  | .inf _ => a
  | .fin s m e => if 0 ≤ e ∨ m = 0 then a else
      let i := floorVal s m e
      if i = 0 then (if s then 0x80000000#32 else 0#32) else f32Round (.ofInt i 0)
def frint (a : BitVec 32) : BitVec 32 :=
  match f32Val a with
  | .nan => nan32
  | .inf _ => a
  | .fin s m e => if 0 ≤ e ∨ m = 0 then a else f32Round (.fin s (roundUnits .nearest s m e 0) 0)

/-- R189: the operations that read B, and C. -/
def opReadsB (op : Nat) : Bool := (1 ≤ op && op ≤ 8) || op == 0x12 || op == 0x13
def opReadsC (op : Nat) : Bool := op == 5 || op == 8 || op == 0x13

/-- R189: a stage of codes 0x00 to 0x13 on one lane. -/
def stageOp (op : Nat) (a b c : BitVec 32) : BitVec 32 :=
  match op with
  | 0x00 => quiet a
  | 0x01 => fadd a b
  | 0x02 => fsub a b
  | 0x03 => fsub b a
  | 0x04 => fmul a b
  | 0x05 => ffma a b c
  | 0x06 => fmax a b
  | 0x07 => fmin a b
  | 0x08 => fmin (fmax a b) c
  | 0x09 => quiet (a &&& 0x7FFFFFFF#32)
  | 0x0A => quiet (a ^^^ 0x80000000#32)
  | 0x0B => frecip a
  | 0x0C => fsqrt a
  | 0x0D => frsqrt a
  | 0x0E => fexp2 a
  | 0x0F => flog2 a
  | 0x10 => ffloor a
  | 0x11 => frint a
  | 0x12 => if fgt a b then one32 else 0#32
  | _ => if isNan a || (a &&& 0x7FFFFFFF#32) != 0#32 then quiet b else quiet c

/-- R199 DIVZ: RECIP or RSQRT of ±0, LOG2 of ±0. -/
def opDivz (op : Nat) (a : BitVec 32) : Bool :=
  (op == 0x0B || op == 0x0D || op == 0x0F) && (a &&& 0x7FFFFFFF#32) == 0#32

/-- R191: the piecewise-linear interpolation over the entries t of a slot. -/
def tableOp (t : List (BitVec 32)) (n : Nat) (x0 : BitVec 32) (sh : Int) (x : BitVec 32) : BitVec 32 :=
  let y := f32Round ((f32Val (fsub x x0)).scale sh)
  let nw := f32Round (.ofInt n 0)
  let ent := fun i => t.getD i 0#32
  let at_ := fun (i : Nat) (f : BitVec 32) => ffma f (fsub (ent (i + 1)) (ent i)) (ent i)
  if isNan x then nan32
  else if fgt y 0#32 = false then at_ 0 0#32
  else if fgt nw y = false then at_ (n - 1) one32
  else
    match f32Val y with
    | .fin s m e =>
      let i := (floorVal s m e).toNat
      at_ i (fsub y (f32Round (.ofInt i 0)))
    | _ => at_ 0 0#32

end Sys2Proof.Machine
end

