-- ==== Sys2Proof/Machine/Compress.lean ====
section
/-! DEFINITION. Sys2Proof/Machine/Compress.lean: the compressor and the expander of the link interfaces (R469 to R474). -/

namespace Sys2Proof.Machine

/-- Cut a list into parts of n, the last one shorter; fuel bounds the parts. -/
def cutF {α : Type} (n : Nat) : Nat → List α → List (List α)
  | 0, _ => []
  | _, [] => []
  | f + 1, l => l.take n :: cutF n f (l.drop n)

/-- Cut a list into parts of n, the last one shorter. -/
def cut {α : Type} (n : Nat) (l : List α) : List (List α) := cutF n (l.length + 1) l

/-- Zero bytes up to a multiple of n. -/
def padTo (n : Nat) (l : List Byte) : List Byte := l ++ List.replicate ((n - l.length % n) % n) 0

/-- R472: the exponent field [hi:lo] of an EFMT code. -/
def expField : Nat → Nat × Nat
  | 1 => (6, 3) | 2 => (6, 2) | 3 => (14, 10) | 4 => (14, 7) | 5 => (30, 23) | _ => (0, 0)

/-- R472: the EW code that an EFMT fixes. -/
def efmtWidth : Nat → Nat
  | 1 => 0 | 2 => 0 | 3 => 1 | 4 => 1 | _ => 2

/-- R473: maximal runs of zero and of non-zero elements. -/
def runsOf (xs : List Nat) : List (Bool × List Nat) :=
  xs.foldr (fun x acc =>
    match acc with
    | (z, ys) :: t => if z == (x == 0) then (z, x :: ys) :: t else (x == 0, [x]) :: acc
    | [] => [(x == 0, [x])]) []

/-- R473: tokens: runs of two or more zeros, and the literal runs between them, split at 128 elements. -/
def tokensOf (xs : List Nat) : List (Bool × List Nat) :=
  let marked := (runsOf xs).map (fun p => (p.1 && decide (2 ≤ p.2.length), p.2))
  let merged := marked.foldr (fun p (acc : List (Bool × List Nat)) =>
    match acc with
    | (false, ys) :: t => if p.1 then p :: acc else (false, p.2 ++ ys) :: t
    | _ => p :: acc) []
  merged.flatMap (fun p => (cut 128 p.2).map (fun l => (p.1, l)))

/-- R471: a token byte. -/
def tokenByte (t : Bool × List Nat) : Byte := BitVec.ofNat 8 (t.2.length - 1 + b2n t.1 * 128)

/-- R472: values of w bits packed least significant bit first, padded to whole bytes. -/
def packBits (w : Nat) (vs : List Nat) : List Byte :=
  leBytes ((w * vs.length + 7) / 8) (vs.foldr (fun v acc => v % 2 ^ w + acc * 2 ^ w) 0)

/-- R472: n values of w bits unpacked. -/
def unpackBits (w n : Nat) (bs : List Byte) : List Nat :=
  let v := leNat bs
  (List.range n).map (fun i => v / 2 ^ (i * w) % 2 ^ w)

/-- R471: a ZRUN body. -/
def zrunBody (eb : Nat) (ts : List (Bool × List Nat)) : List Byte :=
  padTo 8 (ts.flatMap (fun t => tokenByte t :: (if t.1 then [] else t.2.flatMap (leBytes eb))))

/-- R472: a ZEXP body. -/
def zexpBody (eb efmt : Nat) (ts : List (Bool × List Nat)) : List Byte :=
  let f := expField efmt
  let lits := ts.flatMap (fun t => if t.1 then [] else t.2)
  let es := lits.map (fun x => bits x f.1 f.2)
  let base := es.foldl min (es.headD 0)
  let top := es.foldl max 0
  let ebits := if lits.isEmpty ∨ top = base then 0 else Nat.log2 (top - base) + 1
  let rems := lits.map (fun x => x % 2 ^ f.2 + x / 2 ^ (f.1 + 1) * 2 ^ f.2)
  padTo 8 (ts.map tokenByte ++ [BitVec.ofNat 8 base, BitVec.ofNat 8 ebits]
    ++ packBits ebits (es.map (· - base)) ++ packBits (8 * eb - (f.1 + 1 - f.2)) rems)

/-- R470, R473: the encoded block of a source block. -/
def encodeBlock (ew efmt : Nat) (src : List Byte) : List Byte :=
  let eb := 2 ^ ew
  let xs := (cut eb src).map leNat
  let ts := tokensOf xs
  let z := zrunBody eb ts
  let pick := if efmt = 0 then (1, z) else
    let e := zexpBody eb efmt ts
    if e.length < z.length then (2, e) else (1, z)
  let r := if src.length ≤ pick.2.length then (0, src) else pick
  leBytes 8 (place 1 0 r.1 + place 3 2 ew + place 6 4 efmt + place 17 8 (src.length / 8) + place 27 18 (r.2.length / 8)
    + (crc32c src).toNat * 2 ^ 32) ++ r.2

/-- R471: the elements of a token sequence with literals in line; none if n elements are overrun or the bytes end. -/
def readZrun (eb : Nat) : Nat → Nat → List Byte → Option (List Nat)
  | _, 0, _ => some []
  | 0, _, _ => none
  | _, _, [] => none
  | f + 1, n, t :: bs =>
    let l := t.toNat % 128 + 1
    if n < l then none
    else if bit t.toNat 7 then (readZrun eb f (n - l) bs).map (List.replicate l 0 ++ ·)
    else if bs.length < l * eb then none
    else (readZrun eb f (n - l) (bs.drop (l * eb))).map (((cut eb (bs.take (l * eb))).map leNat) ++ ·)

/-- R472: the tokens of a ZEXP body, and the bytes after them. -/
def readTokens : Nat → Nat → List Byte → Option (List (Bool × Nat) × List Byte)
  | _, 0, bs => some ([], bs)
  | 0, _, _ => none
  | _, _, [] => none
  | f + 1, n, t :: bs =>
    let l := t.toNat % 128 + 1
    if n < l then none
    else (readTokens f (n - l) bs).map (fun r => ((bit t.toNat 7, l) :: r.1, r.2))

/-- R472: fill the literal places of tokens. -/
def fillTokens : List (Bool × Nat) → List Nat → List Nat
  | [], _ => []
  | (true, l) :: t, xs => List.replicate l 0 ++ fillTokens t xs
  | (false, l) :: t, xs => xs.take l ++ fillTokens t (xs.drop l)

/-- R472: the elements of a ZEXP body. -/
def readZexp (eb efmt n : Nat) (body : List Byte) : Option (List Nat) :=
  match readTokens (body.length + 1) n body with
  | none => none
  | some (ts, r) =>
    let f := expField efmt
    let base := fieldB r 0 1
    let ebits := fieldB r 1 1
    let k := (ts.filter (fun t => !t.1)).foldl (fun m t => m + t.2) 0
    let w := 8 * eb - (f.1 + 1 - f.2)
    let p1 := (ebits * k + 7) / 8
    let p2 := (w * k + 7) / 8
    if r.length < 2 ∨ 8 < ebits ∨ r.length < 2 + p1 + p2 then none
    else
      let es := unpackBits ebits k ((r.drop 2).take p1)
      let rs := unpackBits w k ((r.drop (2 + p1)).take p2)
      some (fillTokens ts ((es.zip rs).map (fun p =>
        p.2 % 2 ^ f.2 + place f.1 f.2 (p.1 + base) + p.2 / 2 ^ f.2 * 2 ^ (f.1 + 1))))

/-- R474: decode an encoded block; none if it is in error. -/
def decodeBlock (b : List Byte) : Option (List Byte) :=
  let h := fieldB b 0 8
  let m := bits h 1 0
  let ew := bits h 3 2
  let efmt := bits h 6 4
  let sw := bits h 17 8
  let cw := bits h 27 18
  let eb := 2 ^ ew
  let body := b.drop 8
  if b.length < 8 ∨ 3 ≤ m ∨ 3 ≤ ew ∨ 6 ≤ efmt ∨ bit h 7 ∨ bits h 31 28 ≠ 0 ∨ sw = 0 ∨ 512 < sw ∨ 512 < cw
      ∨ body.length < 8 * cw ∨ (m = 2 ∧ efmt = 0) ∨ (efmt ≠ 0 ∧ efmtWidth efmt ≠ ew) ∨ (m = 0 ∧ cw ≠ sw) then none
  else
    let body := body.take (8 * cw)
    let n := sw * 8 / eb
    let xs := if m = 1 then readZrun eb (body.length + 1) n body
      else if m = 2 then readZexp eb efmt n body else some ((cut eb body).map leNat)
    match xs with
    | none => none
    | some xs =>
      let out := xs.flatMap (leBytes eb)
      if (crc32c out).toNat = bits h 63 32 ∧ out.length = 8 * sw then some out else none

end Sys2Proof.Machine
end

