-- ==== Sys2Proof/Machine/LinkOps.lean ====
section
/-! DEFINITION. Sys2Proof/Machine/LinkOps.lean: the links of a grouping, routes, and the frames this device originates
(R405 to R407, R415 to R419, R435, R450 to R454, R469). -/

namespace Sys2Proof.Machine

/-! ### Ports and links -/

/-- A register of port p. -/
def portReg (r p : Nat) : Nat := r + 0x1000 * p

/-- Port p. -/
def State.port (s : State) (p : Nat) : PortSt := if h : p < 8 then s.ports[p] else {}

/-- Change port p. -/
def State.modPort (s : State) (p : Nat) (f : PortSt → PortSt) : State :=
  if h : p < 8 then { s with ports := s.ports.set p (f s.ports[p]) h } else s

/-- Link k (0 to 3: A to D). -/
def State.link (s : State) (k : Nat) : LinkSt := if h : k < 4 then s.links[k] else {}

/-- Change link k. -/
def State.modLink (s : State) (k : Nat) (f : LinkSt → LinkSt) : State :=
  if h : k < 4 then { s with links := s.links.set k (f s.links[k]) h } else s

/-- R445, R481: the STATE of a port: 0 OFF, 1 TRAIN, 2 OPEN, 3 SESSION, 4 KEYED, 5 HELD. -/
def State.portState (s : State) (p : Nat) : Nat := bits (s.dr (portReg LK_PORT_STATUS p)) 2 0

/-- R405: the ports of the links of a grouping code. -/
def groupLinks : Nat → List (List Nat)
  | 0 => [[0, 1, 2, 3], [4, 5, 6, 7]]
  | 1 => [[0, 1], [2, 3], [4, 5], [6, 7]]
  | 2 => [[0, 1, 2, 3, 4, 5], [6, 7]]
  | 3 => [[0, 1, 2, 3], [4, 5], [6, 7]]
  | 4 => [[0, 1, 2, 3, 4, 5, 6, 7]]
  | _ => []

/-- R405: the clockwise link. -/
def cwLink (g : Nat) : Nat := if g = 3 then 1 else 0
/-- R405: the anticlockwise link. -/
def acwLink (g : Nat) : Nat := match g with | 0 => 1 | 1 => 1 | 3 => 2 | _ => 0

/-- The ports of link k under the accepted grouping. -/
def State.linkPorts (s : State) (k : Nat) : List Nat := (groupLinks s.group).getD k []

/-- The link that holds port p. -/
def State.linkOf (s : State) (p : Nat) : Nat :=
  ((List.range 4).find? (fun k => (s.linkPorts k).contains p)).getD 0

/-- The revolve link of a direction: 0 clockwise, 1 anticlockwise. -/
def State.dirLink (s : State) (dir : Nat) : Nat := if dir = 0 then cwLink s.group else acwLink s.group

/-! ### Errors of the links and the revolve -/

/-- R481, R726: a link error: captured in LK_ERR, recorded with its class, and told in a link event to context 0
(R564). -/
def State.linkErr (s : State) (p cause off cls : Nat) : State :=
  let s := s.dcap LK_ERR 16 (p + place 6 3 cause + place 15 7 off)
  s.logErr { source := 13, cls := cls, cause := cause, unit := p, info := word (s.dr LK_ERR) }

/-- R564: a link event: port and cause, with the link's REKEYREQ. -/
def State.linkEvent (s : State) (p cause : Nat) : State :=
  s.event 0 9 0 s.timebase [BitVec.ofNat 8 p, BitVec.ofNat 8 cause,
    BitVec.ofNat 8 (bits (s.dr (LK_LINK_STATUS + 0x100 * s.linkOf p)) 5 5), 0]

/-- R417, R726: a frame dropped by the routing rules: counted in cnt and recorded. -/
def State.rvDrop (s : State) (cnt cause chip : Nat) : State :=
  (s.dinc cnt 1).logErr { source := 14, cls := LOST, cause := cause, info := word chip }

/-! ### Routes (R407, R417) -/

/-- R407: whether a port is up for a frame. -/
def State.portUp (s : State) (p slice vc : Nat) : Bool :=
  s.portState p == 4 || (s.portState p == 3 && slice == 0 && vc == 3)

/-- The n-th of a list of ports, counted modulo their number. -/
def pickPort (ps : List Nat) (n : Nat) : Option Nat := if ps.isEmpty then none else ps[n % ps.length]?

/-- R407: the port for a routed frame under a port mask: the first link with a port of the mask up. -/
def State.maskPort (s : State) (mask src slice vc : Nat) : Option Nat :=
  let up := fun k => (s.linkPorts k).filter (fun p => bit mask p && s.portUp p slice vc)
  match (List.range 4).find? (fun k => !(up k).isEmpty) with
  | some k => pickPort (up k) (src + vc)
  | none => none

/-- R417: the default management route: the clockwise link. -/
def State.mgmtPort (s : State) (src slice vc : Nat) : Option Nat :=
  if slice = 0 ∧ vc = 3 ∧ bit (s.dr LK_RV_STATUS) 2 then
    pickPort ((s.linkPorts (cwLink s.group)).filter (fun p => s.portUp p slice vc)) (src + vc)
  else none

/-- R417: the port on which a routed frame leaves for a chip, if there is one. -/
def State.route (s : State) (src dst slice vc : Nat) : Option Nat :=
  let e := s.dr (LK_RT_ENT + 8 * dst)
  let own := if bit e 20 && bit (bits e 11 8) vc then s.maskPort (bits e 7 0) src slice vc else none
  match own with
  | some p => some p
  | none => s.mgmtPort src slice vc

/-- R407: the n-th of the KEYED ports of a link, counted modulo their number; while none is KEYED frames wait at its lowest
port. -/
def State.keyedPort (s : State) (k n : Nat) : Option Nat :=
  match pickPort ((s.linkPorts k).filter (fun p => s.portState p == 4)) n with
  | some p => some p
  | none => (s.linkPorts k).head?

/-- R407: the port of a weight frame or end mark on a link. -/
def State.weightPort (s : State) (k pos piece : Nat) : Option Nat := s.keyedPort k (pos + piece)

/-- Queue a frame for sending on a port. -/
def State.enqueue (s : State) (p : Nat) (f : Frame) : State := s.modPort p (fun q => { q with txq := q.txq ++ [f] })

/-! ### Routed frames (R452 to R454) -/

/-- R452: the TFIELD of a routed frame. -/
def routedTf (src dst slice hop op off kind clus xslot : Nat) : Nat :=
  place 11 0 src + place 23 12 dst + place 31 24 slice + place 43 32 hop + place 47 44 op + place 95 48 off
    + place 99 96 kind + place 105 100 clus + place 108 106 xslot

/-- The fields of a routed frame. -/
def Frame.src (f : Frame) : Nat := bits f.tf 11 0
def Frame.dst (f : Frame) : Nat := bits f.tf 23 12
def Frame.hop (f : Frame) : Nat := bits f.tf 43 32
def Frame.op (f : Frame) : Nat := bits f.tf 47 44
def Frame.off (f : Frame) : Nat := bits f.tf 95 48
def Frame.kind (f : Frame) : Nat := bits f.tf 99 96
def Frame.clus (f : Frame) : Nat := bits f.tf 105 100
def Frame.xslot (f : Frame) : Nat := bits f.tf 108 106

/-- The slice of a frame: routed, or of the revolve and broadcasts. -/
def Frame.slice (f : Frame) : Nat := if f.ty = 1 then bits f.tf 31 24 else bits f.tf 19 12

/-- REMAIN of a weight frame, end mark or broadcast. -/
def Frame.remain (f : Frame) : Nat := bits f.tf 31 20
/-- SRCPOS of a weight frame or end mark. -/
def Frame.pos (f : Frame) : Nat := bits f.tf 43 32
/-- LAYER of a weight frame or end mark. -/
def Frame.layer (f : Frame) : Nat := bits f.tf 59 44
/-- PIECE of a weight frame, or the number of pieces of an end mark. -/
def Frame.piece (f : Frame) : Nat := bits f.tf 75 60
/-- POFF of a weight frame. -/
def Frame.poff (f : Frame) : Nat := bits f.tf 107 76
/-- BOP of a ring broadcast. -/
def Frame.bop (f : Frame) : Nat := bits f.tf 35 32

/-- R417: send a routed frame that this device originates; without a route it is dropped. -/
def State.sendRouted (s : State) (dst slice vc : Nat) (f : Frame) : State :=
  match s.route s.chip dst slice vc with
  | some p => s.enqueue p f
  | none => s.rvDrop LK_RV_CNT_NOROUTE 2 dst

/-- HOPMAX (R417). -/
def State.hopMax (s : State) : Nat := bits (s.dr LK_RV_CTRL) 11 0

/-- R453: send one routed operation of one frame. -/
def State.sendOp (s : State) (dst slice vc op off kind clus xslot : Nat) (data : List Byte) : State :=
  let tf := routedTf s.chip dst slice s.hopMax op off kind clus xslot
  s.sendRouted dst slice vc { ty := 1, vc := vc, xend := true, data := padTo 8 data, tf := tf }

/-- R469: the frames of a message: payload cut into 464 bytes, or encoded block by block; each with CMP, BFIRST, BLAST and the
offset it names. en, ew and efmt are the channel's compression. -/
def messageFrames (en : Bool) (ew efmt : Nat) (msg : List Byte) : List (Bool × Bool × Bool × Nat × List Byte) :=
  if en then
    ((List.range msg.length).zip (cut 4096 msg)).flatMap (fun b =>
      let parts := cut 464 (encodeBlock ew efmt b.2)
      ((List.range parts.length).zip parts).map (fun p =>
        (true, decide (p.1 = 0), decide (p.1 + 1 = parts.length), 4096 * b.1, p.2)))
  else ((List.range msg.length).zip (cut 464 msg)).map (fun p => (false, false, false, 464 * p.1, p.2))

/-- R469, R470: the compression in force on a channel: enabled, EW, EFMT. -/
def State.cmpOf (s : State) (vc : Nat) : Bool × Nat × Nat :=
  let w := s.dr LK_CMP_CTRL
  if vc = 0 then (bit w 0, bits w 2 1, bits w 5 3) else if vc = 1 then (bit w 8, bits w 10 9, bits w 13 11)
  else (false, 0, 0)

/-- R469, R482: count what enters and leaves the compressor of a port. -/
def State.countCmp (s : State) (p vc : Nat) (msg : List Byte) (fs : List (Bool × Bool × Bool × Nat × List Byte)) : State :=
  if (s.cmpOf vc).1 then
    (s.dinc (portReg LK_CNT_CMPIN p) (msg.length / 8)).dinc (portReg LK_CNT_CMPOUT p)
      ((fs.map (fun f => f.2.2.2.2.length)).foldl (· + ·) 0 / 8)
  else s

/-- R454, R469: send a WRITE transfer of words to another chip's scratchpad: XEND on its last frame. -/
def State.sendWrite (s : State) (dst slice addr clus xslot : Nat) (data : List Byte) : State :=
  let c := s.cmpOf 1
  let fs := messageFrames c.1 c.2.1 c.2.2 data
  match s.route s.chip dst slice 1 with
  | none => s.rvDrop LK_RV_CNT_NOROUTE 2 dst
  | some p =>
    let s := s.countCmp p 1 data fs
    ((List.range fs.length).zip fs).foldl (fun s f =>
      s.enqueue p { ty := 1, vc := 1, cmp := f.2.1, bfirst := f.2.2.1, blast := f.2.2.2.1,
                    xend := decide (f.1 + 1 = fs.length), data := f.2.2.2.2.2,
                    tf := routedTf s.chip dst slice s.hopMax 0 (gOff addr + f.2.2.2.2.1) (gKind addr) clus xslot }) s

/-- R436, R453: send a management message on slice 0, in frames of at most 464 bytes, XEND on the last. -/
def State.sendMgmt (s : State) (dst : Nat) (msg : List Byte) : State :=
  match s.route s.chip dst 0 3 with
  | none => s.rvDrop LK_RV_CNT_NOROUTE 2 dst
  | some p =>
    let parts := cut 464 (padTo 8 msg)
    ((List.range parts.length).zip parts).foldl (fun s f =>
      s.enqueue p { ty := 1, vc := 3, xend := decide (f.1 + 1 = parts.length), data := f.2,
                    tf := routedTf s.chip dst 0 s.hopMax 3 0 0 63 0 }) s

/-! ### Ring broadcasts (R435) -/

/-- R423, R435: REMAIN of a copy that leaves its origin in a direction. -/
def State.startRemain (s : State) (dir : Nat) : Nat := if dir = 0 then s.ringN / 2 else (s.ringN - 1) / 2

/-- R452: the TFIELD of a ring broadcast. -/
def bcastTf (src slice remain bop : Nat) : Nat := place 11 0 src + place 19 12 slice + place 31 20 remain + place 35 32 bop

/-- R435: one copy of a broadcast on a direction, if any member lies that way. -/
def State.sendBcast (s : State) (dir remain bop src : Nat) (data : List Byte) : State :=
  if remain = 0 then s
  else
    match s.keyedPort (s.dirLink dir) (src + 2) with
    | some p => s.enqueue p { ty := 4, vc := 2, dir := dir, data := data, tf := bcastTf src s.ringSlice remain bop }
    | none => s

/-- R435: the manager broadcasts a message both ways. bop: 0 READY, 1 RELEASE, 2 ABANDON. -/
def State.broadcast (s : State) (bop : Nat) (data : List Byte) : State :=
  let s := s.sendBcast 0 (s.startRemain 0) bop s.chip data
  s.sendBcast 1 (s.startRemain 1) bop s.chip data

/-- R453: the payload of an ARRIVE, or of a RELEASE: curtain and generation. -/
def curtainData (k g : Nat) : List Byte := leBytes 8 k ++ leBytes 8 g

end Sys2Proof.Machine
end

