-- ==== Sys2Proof/Machine/IbzarOps.lean ====
section
/-! DEFINITION. Sys2Proof/Machine/IbzarOps.lean: packets, commands in flight and replies (R543 to R563). -/

namespace Sys2Proof.Machine

/-! ### Packets (R548) -/

/-- OPCODE of a packet. -/
def pktOp (p : List Byte) : Nat := fieldB p 0 2
/-- LEN of a packet, in 16-byte units. -/
def pktLen (p : List Byte) : Nat := fieldB p 8 2

/-- The opcode of a command. -/
def Cmd.op (k : Cmd) : Nat := pktOp k.pkt
/-- A parameter of n bytes at a packet offset. -/
def Cmd.f (k : Cmd) (off n : Nat) : Nat := fieldB k.pkt off n
/-- A flag bit: 0 FENCE, 1 QUIET, 2 NOIRQ. -/
def Cmd.flag (k : Cmd) (n : Nat) : Bool := bit (fieldB k.pkt 2 1) n
/-- Whether a byte range of the packet is zero. -/
def Cmd.zero (k : Cmd) (off n : Nat) : Bool := (upFrom off n).all (fun o => fieldB k.pkt o 1 == 0)
/-- Two entries that are one command. -/
def Cmd.same (a b : Cmd) : Bool := a.seq == b.seq && a.origin == b.origin

/-- The commands of context x in flight. -/
def State.cmds (s : State) (x : Nat) : List Cmd := (s.cx x).cmds

/-- Change a command in flight. -/
def State.modCmd (s : State) (x : Nat) (k : Cmd) (f : Cmd → Cmd) : State :=
  s.modCx x (fun y => { y with cmds := updFirst (fun j => j.same k) f y.cmds })

/-- Remove a command in flight. -/
def State.dropCmd (s : State) (x : Nat) (k : Cmd) : State :=
  s.modCx x (fun y => { y with cmds := dropFirst (fun j => j.same k) y.cmds })

/-- R547: the reply-ring room held back for commands already taken. -/
def State.heldRoom (s : State) (x : Nat) : Nat := ((s.cmds x).map (·.room)).foldl (· + ·) 0

/-! ### Replies (R555 to R560) -/

/-- R556: the first record of a reply. -/
def replyRec (op status seq tag next x chip phase : Nat) (result : List Byte) : List Byte :=
  leBytes 2 op ++ leBytes 2 status ++ leBytes 4 seq ++ leBytes 4 tag ++ leBytes 1 (next + 128 * phase) ++ leBytes 1 x
    ++ leBytes 2 chip ++ sliceB result 0 16

/-- Where record i of the reply ring lies. -/
def State.replyAddr (s : State) (x i : Nat) : Nat :=
  let r := s.dr (cxReg MG_CX_RRING x)
  bits r 63 12 * 4096 + 32 * (i % 2 ^ bits r 4 0)

/-- R605: write the first record of a reply; its command counts as not replied while the write waits. -/
def State.hostRecord (s : State) (x a : Nat) (bs : List Byte) : State :=
  if s.mayMaster x then s.hostWrite x a bs
  else { s with pcie := { s.pcie with held := s.pcie.held ++ [⟨x, a, bs, none, true⟩] } }

/-- R547, R590: the commands of context x that are taken and not replied. -/
def State.unreplied (s : State) (x : Nat) : Nat :=
  (s.cmds x).length + (s.pcie.held.filter (fun h => h.fn == x && h.ends)).length

/-- R555, R556, R559, R560, R590: write a reply: continuation records first, then the first record, then the message. With EN
clear it is discarded. -/
def State.writeReply (s : State) (x op status seq tag chip : Nat) (noirq : Bool) (result : List Byte)
    (conts : List (List Byte)) : State :=
  if bit (s.dr (cxReg MG_CX_CTRL x)) 0 = false then s
  else
    let i := bits (s.dr (cxReg MG_CX_RRHEAD x)) 63 32
    let logn := bits (s.dr (cxReg MG_CX_RRING x)) 4 0
    let phase := Nat.xor (i / 2 ^ logn % 2) 1
    let s := ((List.range conts.length).zip conts).foldl (fun s p =>
      s.hostWrite x (s.replyAddr x (i + 1 + p.1)) (sliceB p.2 0 32)) s
    let s := s.hostRecord x (s.replyAddr x i) (replyRec op status seq tag conts.length x chip phase result)
    let s := s.dwf (cxReg MG_CX_RRHEAD x) 63 32 ((i + 1 + conts.length) % 2 ^ 32)
    let s := s.dinc (cxReg MG_CX_CNT_REPLIES x) 1
    let s := s.dinc (cxReg MG_CX_CNT_MALFORMED x) (b2n (status == MALFORMED))
    if noirq then s else s.msix x (bits (s.dr (cxReg MG_CX_CTRL x)) 6 1)

/-- The tags that tell the device's own management messages apart (assumption 28). -/
def tagRelay : Nat := 1
def tagAnswer : Nat := 2
def tagPair : Nat := 3
def tagRecord : Nat := 4
def tagAsk : Nat := 5
def tagDigests : Nat := 6
def tagCounts : Nat := 7
def tagUsEnd : Nat := 8
def tagShard : Nat := 9
def tagRepair : Nat := 10
def tagSession : Nat := 11
def tagKeys : Nat := 12

/-- The answer to a command, on its way to the host, or to the manager that relayed it (R436, R587). -/
def State.answer (s : State) (x : Nat) (k : Cmd) (status : Nat) (result : List Byte) (conts : List (List Byte)) : State :=
  match k.origin with
  | some (mgr, id) =>
    s.sendMgmt mgr (leBytes 1 tagAnswer ++ leBytes 3 conts.length ++ leBytes 4 id
      ++ replyRec k.op status k.seq (k.f 12 4) conts.length x s.chip 0 result ++ conts.flatMap (fun c => sliceB c 0 32))
  | none =>
    if k.flag 1 && status == OK then s
    else s.writeReply x k.op status k.seq (k.f 12 4) s.chip (k.flag 2) result conts

/-- A command completes: it leaves the commands in flight and is answered. -/
def State.reply (s : State) (x : Nat) (k : Cmd) (status : Nat) (result : List Byte := []) (conts : List (List Byte) := []) :
    State := (s.dropCmd x k).answer x k status result conts

/-- R551: a MALFORMED answer at an offset. -/
def State.replyMal (s : State) (x : Nat) (k : Cmd) (off : Nat) : State := s.reply x k MALFORMED (leBytes 2 off)

/-! ### Progress and shard reports (R557, R561, R563) -/

/-- R561: the progress record, in two continuation records. clus is the cluster whose end decided the status. -/
def State.progress (s : State) (k : Cmd) (clus : Option Nat) (ended : List (Nat × EndedStrm)) : List (List Byte) :=
  let c := s.clN (clus.getD 0)
  let on := fun (n : Nat) => if clus.isSome then n else 0
  let flt := c.r CL_FLT_INFO
  let first := ended.head?
  let fst := fun (g : EndedStrm → Nat) => match first with | some e => g e.2 | none => 0
  let p := leBytes 8 k.work ++ leBytes 4 (k.lastPass.getD 0xFFFFFFFF) ++ leBytes 1 (clus.getD 255)
    ++ leBytes 1 (min ended.length 255) ++ leBytes 2 (on c.arr.lastRun) ++ leBytes 2 (on c.vx.lastChain)
    ++ leBytes 2 (on (if bit flt 3 then bits flt 47 32 else 0)) ++ leBytes 2 (fst (·.num)) ++ leBytes 1 (fst (·.state))
    ++ leBytes 1 (match first with | some e => e.1 | none => 0) ++ leBytes 2 (fst (·.status)) ++ leBytes 6 0
    ++ (match first with | some e => sliceB e.2.token 0 32 | none => List.replicate 32 0)
  [p.take 32, p.drop 32]

/-- R557: whether the progress record follows ABANDONED or TIMEOUT of an opcode: LAUNCH, REVOLVE, MEM_COPY, MEM_FILL. -/
def longOp (op : Nat) : Bool := [0x0401, 0x0404, 0x0203, 0x0204].contains op

/-- A command ends with ABANDONED (R557, R571). -/
def State.replyAbandoned (s : State) (x : Nat) (k : Cmd) : State :=
  s.reply x k ABANDONED [] (if longOp k.op then s.progress k none [] else [])

/-- R563: a shard report. -/
def shardReport (id pass chip pos piece : Nat) (noend digest : Bool) : List Byte :=
  leBytes 4 id ++ leBytes 4 pass ++ leBytes 2 chip ++ leBytes 2 pos ++ leBytes 2 piece
    ++ leBytes 1 (b2n noend + 2 * b2n digest) ++ leBytes 1 0

/-! ### Starting commands (R553, R554, R572) -/

/-- R553, R704: the oldest command of context x not yet started, if it may start now; one for the security element waits while
that has no clock. -/
def State.nextCmd (s : State) (x : Nat) : Option Cmd :=
  match (s.cmds x).find? (fun k => !k.started) with
  | none => none
  | some k =>
    let first := match (s.cmds x).head? with | some h => h.same k | none => false
    let noSec := s.domStopped 56 && (k.op / 256 == 9 || k.op / 256 == 10)
    if (s.cx x).state == 2 || (k.flag 0 && !first) || noSec then none else some k

/-- The meaning of an opcode row: the next command of context x starts if it is of this opcode, and waits otherwise. f gives
what it does; a command that f leaves in flight goes on as started. -/
def command (x : Ctx) (op : Nat) (s : State) (f : Cmd → State → State) : Res :=
  match s.nextCmd x.val with
  | none => waits s
  | some k => if k.op = op then .next (f k (s.modCmd x.val k (fun j => { j with started := true }))) else waits s

/-- The started command of context x with a sequence number and opcode. -/
def State.findCmd (s : State) (x : Ctx) (seq op : Nat) : Option Cmd :=
  (s.cmds x.val).find? (fun k => k.seq == seq && k.op == op && k.started && (s.cx x.val).state != 2)

/-- R561, R581: the release of a pass is noted by every command in flight. -/
def State.notePass (s : State) (pass : Nat) : State :=
  { s with ctx := s.ctx.map (fun y => { y with cmds := y.cmds.map (fun k =>
      if k.started then { k with lastPass := some pass } else k) }) }

end Sys2Proof.Machine
end

