-- ==== Sys2Proof/Machine/Sync.lean ====
section
/-! DEFINITION. Sys2Proof/Machine/Sync.lean: counters, signals, watches, cues and curtains (R371 to R404). -/

namespace Sys2Proof.Machine

/-! ### Device counters (R371, R391) -/

/-- Virtual counter v of context x: its physical counter, if mapped. -/
def State.vmap (s : State) (x v : Nat) : Option Nat :=
  let e := s.dr (SY_VMAP + 0x8000 * x + 8 * v)
  if v < 4096 ∧ bit e 16 then some (bits e 15 0) else none

/-- The context that maps a physical counter (R373), with the virtual number. -/
def State.ctrOwner (s : State) (p : Nat) : Option (Nat × Nat) :=
  (s.regs.find? (fun r => decide (SY_VMAP ≤ r.1) && decide (r.1 < SY_VMAP + 0x80000) && r.2.toNat == p + 2 ^ 16)).map
    (fun r => ((r.1 - SY_VMAP) / 0x8000, (r.1 - SY_VMAP) % 0x8000 / 8))

/-- The physical counters that context x maps. -/
def State.ctrsOf (s : State) (x : Nat) : List Nat :=
  s.regs.filterMap (fun r =>
    if SY_VMAP + 0x8000 * x ≤ r.1 ∧ r.1 < SY_VMAP + 0x8000 * (x + 1) ∧ bit r.2.toNat 16 then some (bits r.2.toNat 15 0) else none)

/-- The value of a device counter. -/
def State.dctr (s : State) (p : Nat) : Nat := amGet 0 s.sy.ctr p

/-- Set a device counter. -/
def State.setDctr (s : State) (p v : Nat) : State := { s with sy := { s.sy with ctr := amSet 0 s.sy.ctr p v } }

/-- R390: whether an increment to value v of device counter p breaks an enabled pair. -/
def State.devPairBroken (s : State) (p v : Nat) : Bool :=
  (List.range 256).any (fun i =>
    let e := s.dr (SY_PAIR + 8 * i)
    bit e 32 && bits e 31 16 == p && decide (s.dctr (bits e 15 0) < v))

/-! ### Watches on device counters (R378 to R387) -/

/-- R380, R383: the cue due at an evaluation of a device watch. -/
def DevWatch.eval (w : DevWatch) (v now : Nat) (ab : Bool) : Option Word :=
  if !w.registered then none
  else
    let sat := decide (w.value ≤ v)
    let exp := match w.deadline with | some d => decide (d ≤ now) | none => false
    if sat || exp || ab then some (cueWord v sat exp ab) else none

/-- The slot or wait entry of a watch whose cue is on its way. -/
def State.markDone (s : State) (d : CueDest) : State :=
  match d with
  | .slot c n => s.modN c (fun k =>
      if h : n < 16 then
        (match k.ws[n] with
         | .armed w cc => { k with ws := k.ws.set n (.armed { w with done := true } cc) h }
         | _ => k)
      else k)
  | .wait c => s.modN c (fun k => { k with wait := k.wait.map (fun e => { e with watch := { e.watch with done := true } }) })
  | .host _ _ => s

/-- Evaluate one watch of the table. -/
def State.evalDev (s : State) (ab : Bool) (sc : Option Nat) (w : DevWatch) : State :=
  match w.eval (s.dctr w.ctr) s.timebase ab with
  | none => s
  | some cue =>
    let s := { s with sy := { s.sy with watches := dropFirst (fun y => y == w) s.sy.watches } }
    ((s.sendCue w.dest cue).markDone w.dest).countCue cue w.scope sc

/-- R374: evaluate every watch on device counter p. -/
def State.evalCtr (s : State) (p : Nat) (ab : Bool) (sc : Option Nat) : State :=
  (s.sy.watches.filter (fun w => w.ctr == p)).foldl (fun s w => s.evalDev ab sc w) s

/-- R384, R398: every watch on a device counter that satisfies f is cued with ABANDONED. -/
def State.abandonWatches (s : State) (f : DevWatch → Bool) : State :=
  (s.sy.watches.filter f).foldl (fun s w =>
    let w' := { w with registered := true }
    let ws := s.sy.watches.map (fun y => if y == w then w' else y)
    State.evalDev { s with sy := { s.sy with watches := ws } } true none w') s

/-- R384: the watches of cluster c on its own local counters are cued with ABANDONED. -/
def State.abandonLocal (s : State) (c : Cl) : State :=
  (List.range 64).foldl (fun s n => s.evalLocal c n true none) s

/-! ### Curtains (R393 to R398) -/

/-- A register of curtain k. -/
def curReg (r k : Nat) : Nat := r + 0x20 * k

/-- The slice of the traffic of curtain k. -/
def State.curSlice (s : State) (k : Nat) : Nat :=
  if k = 15 then s.ringSlice else (s.sliceOf (bits (s.dr (curReg SY_CUR_CFG k)) 51 48)).getD 0

/-- Put a change on its way to its counter (R388). -/
def State.sendChange (s : State) (ch : Change) : State := { s with sy := { s.sy with changes := s.sy.changes ++ [ch] } }

/-- R396: REL of curtain k is raised to g + 1. -/
def State.raiseRel (s : State) (k g : Nat) : State :=
  s.sendChange { ctr := .dev (bits (s.dr (curReg SY_CUR_CFG k)) 31 16), amt := g + 1, raise := true, scope := 2, src := .curtain }

/-- R395: the arrival of generation g of ring curtain k, to the manager's central counter. -/
def State.sendArrive (s : State) (k g : Nat) : State :=
  let r := s.dr (curReg SY_CUR_RING k)
  let st := s.dr (curReg SY_CUR_STAT k)
  let s := (s.dwf (curReg SY_CUR_STAT k) 31 0 ((bits st 31 0 + 1) % 2 ^ 32)).dinc SY_CNT_ARRIVE 1
  if bits r 27 16 = s.chip then s.sendChange { ctr := .dev (bits r 15 0), amt := 1, scope := 2, src := .curtain }
  else s.sendOp (bits r 27 16) (s.curSlice k) 2 4 0 0 63 0 (curtainData k g)

/-- R395: generation g of curtain k is complete on this device. -/
def State.generation (s : State) (k g : Nat) : State :=
  let s := { s with sy := { s.sy with sent := amSet 0 s.sy.sent k (g + 1) } }
  if bit (s.dr (curReg SY_CUR_CFG k)) 52 then s.sendArrive k g else s.raiseRel k g

/-- R395: after a change of device counter p, the generations that complete. -/
def State.checkArr (s : State) (p : Nat) : State :=
  (List.range 16).foldl (fun s k =>
    let cfg := s.dr (curReg SY_CUR_CFG k)
    if bit cfg 54 && bits cfg 15 0 == p && bits cfg 47 32 != 0 then
      let g := amGet 0 s.sy.sent k
      (upFrom g (s.dctr p / bits cfg 47 32 - g)).foldl (fun s g => s.generation k g) s
    else s) s

/-! ### Changes (R372 to R376) -/

/-- R376: an increment of device counter p is refused. -/
def State.refuseDev (s : State) (p cause : Nat) (src : ChgSrc) : State :=
  let chip := match src with | .chip h _ => h | _ => s.chip
  let s := (s.dcap SY_ERR 36 (p + place 17 16 cause + place 29 18 chip + place 35 30 src.from_)).dinc SY_CNT_REFUSED 1
  let s := s.logErr { source := 9, cls := LOST, cause := cause, ctx := (s.ctrOwner p).map (·.1), info := word (s.dr SY_ERR) }
  match src with
  | .core a q => match toCl a with | some b => s.engFault b .sync q FAULT | none => s
  | _ => s

/-- Whether p is a counter of the layer curtain, which no context maps. -/
def State.layerCtr (s : State) (p : Nat) : Bool :=
  let cfg := s.dr (curReg SY_CUR_CFG 15)
  bit cfg 54 && (bits cfg 15 0 == p || bits cfg 31 16 == p || (bit cfg 53 && bits (s.dr (curReg SY_CUR_RING 15)) 15 0 == p))

/-- R374: a change reaches device counter p. -/
def State.applyDev (s : State) (p amt : Nat) (raise : Bool) (sc : Nat) (src : ChgSrc) : State :=
  if (s.ctrOwner p).isNone && !(s.layerCtr p) then s
  else
    let old := s.dctr p
    let v := if raise then max old amt else old + amt
    let cause := if raise then 0 else if 2 ^ 48 ≤ v then 1 else if s.devPairBroken p v then 2 else 0
    if cause ≠ 0 then s.refuseDev p cause src
    else
      let s := s.setDctr p v
      let s := if raise then s.dinc SY_CNT_RELEASE (b2n (old < v)) else s.dinc SY_CNT_SIG 1
      (s.evalCtr p false (some sc)).checkArr p

/-- R374: a change reaches its counter. -/
def State.applyChange (s : State) (ch : Change) : State :=
  match ch.ctr with
  | .dev p => s.applyDev p ch.amt ch.raise ch.scope ch.src
  | .loc c n => match toCl c with | some b => s.incLocal b n ch.amt ch.scope ch.src | none => s

/-- R356: whether arrivals that the signalling core sent before its signal still wait on this chip. -/
def State.behindStores (s : State) (ch : Change) : Bool :=
  match ch.src with
  | .core c q => decide (1 ≤ ch.scope) && s.cls.toList.any (fun k =>
      let mine := fun (a : Arrival) => match a.from_ with | .core d tk => d == c && decide (tk ≤ q.tk) | _ => false
      k.waitA.any mine || k.admA.any (fun a => mine a.arr))
  | _ => false

/-- R374: whether change i is the first on its way to its counter, and may be applied. -/
def State.changeReady (s : State) (i : Nat) : Option Change :=
  match s.sy.changes[i]? with
  | none => none
  | some ch => if (s.sy.changes.take i).any (fun y => y.ctr == ch.ctr) || s.behindStores ch then none else some ch

/-! ### Signals (R375, R356) -/

/-- R375: the checks of sy.sig: a status, or none; the increment of 0 has no effect. -/
def sigCheck (s : State) (c : Cl) (q : QInsn) : Check :=
  let d := ctrD q.rs1
  let x := (s.cl c).owner
  if d.rsv ∨ bits q.rs2.toNat 63 48 ≠ 0 ∨ d.cuectr ≠ 0 ∨ d.scope = 3 ∨ (d.space ≤ 1 ∧ 63 < d.num) ∨ 39 < d.clus then
    .fault SHAPE
  else if bits q.rs2.toNat 47 0 = 0 then .noEffect
  else
    let denied := match d.space with
      | 0 => false
      | 1 => (s.clN d.clus).owner != x
      | 2 => (s.vmap x d.num).isNone
      | _ => if d.chip = s.chip then (s.vmap x d.num).isNone
             else s.role == 0 || !(bit (s.dr (LK_RT_ENT + 8 * d.chip)) 20)
    if denied then .fault DENIED else .pass

/-- R356: whether a store stream of cluster c has transfers to a chip not yet issued. -/
def Strm.sendsTo (x : Strm) (chip : Nat) : Bool :=
  let d := streamD x.desc
  d.dir == 1 && x.stop.isNone && decide (x.issued < d.total) &&
    (d.idx || (upFrom (x.issued / d.run) (d.n1 * d.n2 * d.n3 - x.issued / d.run)).any (fun k =>
      gChip (d.runAddr k 0) == chip))

/-- R231, R356: whether a ring-scope signal to another chip is held at the head. -/
def sigHeld (s : State) (c : Cl) (q : QInsn) : Bool :=
  let d := ctrD q.rs1
  let k := s.cl c
  d.scope == 2 && d.space == 3 && d.chip != s.chip &&
    ((k.unit .stream).q.any (fun y => decide (y.tk < q.tk))
      || k.st.slots.any (fun p => decide (p.2.tk < q.tk) && p.2.sendsTo d.chip))

/-- R375, R377: the accepted signal goes on its way: a change of a counter of this device, or a SIGNAL frame. -/
def State.sendSig (s : State) (c : Cl) (q : QInsn) : State :=
  let d := ctrD q.rs1
  let x := (s.cl c).owner
  let inc := bits q.rs2.toNat 47 0
  let src := ChgSrc.core c.val q
  let own := fun (s : State) => match s.vmap x d.num with
    | some p => s.sendChange { ctr := .dev p, amt := inc, scope := d.scope, src := src }
    | none => s
  match d.space with
  | 0 => s.sendChange { ctr := .loc c.val d.num, amt := inc, scope := d.scope, src := src }
  | 1 => s.sendChange { ctr := .loc d.clus d.num, amt := inc, scope := d.scope, src := src }
  | 2 => own s
  | _ =>
    if d.chip = s.chip then own s
    else s.sendOp d.chip ((s.sliceOf x).getD 0) 1 2 0 0 c.val 0 (leBytes 2 d.num ++ leBytes 6 d.scope ++ leBytes 8 inc)

/-- R375: the synchronisation block takes sy.sig; a release at device scope or wider first writes back the cluster cache
(R356). -/
def execSySigAccept (c : Cl) (s : State) : Res :=
  match (s.cl c).ready .sync 0 with
  | none => waits s
  | some q =>
    if sigHeld s c q then waits s
    else
      match sigCheck s c q with
      | .fault st => .next (s.faultHead c .sync q st)
      | .noEffect => .next ((s.acceptHead c .sync q 0).cinc c CL_SY_CNT_SIG 1)
      | .pass =>
        let s := (s.acceptHead c .sync q 0).cinc c CL_SY_CNT_SIG 1
        .next ((if 1 ≤ (ctrD q.rs1).scope then s.ccFlush c else s).sendSig c q)

/-! ### Watches of the cores (R378 to R381) -/

/-- R379: the checks of sy.wait, sy.waitinv and sy.watch. -/
def watchCheck (s : State) (c : Cl) (q : QInsn) (slot : Bool) : Check :=
  let d := ctrD q.rs1
  if d.rsv ∨ (slot = false ∧ d.cuectr ≠ 0) ∨ d.scope = 3 ∨ (d.space = 0 ∧ 63 < d.num) then .fault SHAPE
  else if d.space = 1 ∨ (d.space = 3 ∧ d.chip ≠ s.chip) then .fault SHAPE
  else if d.space ≠ 0 ∧ (s.vmap (s.cl c).owner d.num).isNone then .fault DENIED
  else if slot ∧ !((s.cl c).ws.toList.contains .free) then .fault QUOTA
  else .pass

/-- The watch that an instruction registers; a local one is at its counter at once. -/
def mkWatch (s : State) (c : Cl) (q : QInsn) : Watch :=
  let d := ctrD q.rs1
  let t := bits q.rs2.toNat 63 48
  let ctr := if d.space = 0 then CtrRef.loc d.num else .dev ((s.vmap (s.cl c).owner d.num).getD 0)
  { ctr := ctr, value := bits q.rs2.toNat 47 0, scope := d.scope, timeout := t
    deadline := if t = 0 then none else some (s.timebase + 1024 * t), registered := decide (d.space = 0) }

/-- A watch takes effect: evaluated if local, sent to the synchronisation unit otherwise. -/
def State.placeWatch (s : State) (c : Cl) (w : Watch) (dest : CueDest) : State :=
  match w.ctr with
  | .loc n => s.evalLocal c n false none
  | .dev p => { s with sy := { s.sy with watches := s.sy.watches ++
      [{ ctr := p, value := w.value, scope := w.scope, timeout := w.timeout, dest := dest, ctx := (s.cl c).owner }] } }

/-- sy.wait and sy.waitinv at the synchronisation block. -/
def waitAccept (c : Cl) (inv : Bool) (s : State) : Res :=
  match (s.cl c).ready .sync (if inv then 3 else 1) with
  | none => waits s
  | some q =>
    match watchCheck s c q false with
    | .fault st => .next (s.faultHead c .sync q st)
    | _ =>
      let w := mkWatch s c q
      let s := (s.progressed c).mod c (fun k => { k.popUnit .sync with wait := some ⟨q.rd, inv, w⟩ })
      .next (s.placeWatch c w (.wait c.val))

/-- R378: sy.wait is accepted. -/
def execSyWaitAccept (c : Cl) (s : State) : Res := waitAccept c false s

/-- R378: sy.waitinv is accepted. -/
def execSyWaitinvAccept (c : Cl) (s : State) : Res := waitAccept c true s

/-- R381: the lowest free slot. -/
def Cluster.freeSlot (k : Cluster) : Option (Fin 16) := (List.finRange 16).find? (fun i => k.ws[i.val] == .free)

/-- R381: sy.watch is accepted: it takes the lowest free slot. -/
def execSyWatchAccept (c : Cl) (s : State) : Res :=
  match (s.cl c).ready .sync 2 with
  | none => waits s
  | some q =>
    match watchCheck s c q true, (s.cl c).freeSlot with
    | .fault st, _ => .next (s.faultHead c .sync q st)
    | _, none => .next (s.faultHead c .sync q QUOTA)
    | _, some i =>
      let w := mkWatch s c q
      let s := (s.acceptHead c .sync q (word i.val)).mod c (fun k =>
        { k with ws := k.ws.set i.val (.armed w (ctrD q.rs1).cuectr) i.isLt })
      .next (s.placeWatch c w (.slot c.val i.val))

/-- R380, R382: watch i of the unit's table reaches its counter: its timer starts and it is evaluated. -/
def execWatchRegister (i : Nat) (s : State) : Res :=
  match s.sy.watches[i]? with
  | none => waits s
  | some w =>
    if w.registered then waits s
    else
      let w' := { w with registered := true
                         deadline := if w.timeout = 0 then none else some (s.timebase + 1024 * w.timeout) }
      let s := { s with sy := { s.sy with watches := s.sy.watches.set i w' } }
      .next (s.evalDev false none w')

/-- R380, R382: a watch's timer expires. Below 8,192 the number is a place in the unit's table, above it the local watches in
cluster order, 16 slots and the wait entry each. -/
def execWatchTimerExpiry (id : Nat) (s : State) : Res :=
  if id < 8192 then
    match s.sy.watches[id]? with
    | none => waits s
    | some w =>
      match w.deadline with
      | some d => if d ≤ s.timebase then .next (s.evalDev false none w) else waits s
      | none => waits s
  else
    let c := (id - 8192) / 17
    let j := (id - 8192) % 17
    match toCl c with
    | none => waits s
    | some c =>
      let w := if h : j < 16 then (match (s.cl c).ws[j] with | .armed w _ => some w | _ => none)
        else (s.cl c).wait.map (·.watch)
      match w with
      | some w =>
        (match w.deadline, w.ctr with
         | some d, .loc n => if d ≤ s.timebase ∧ w.done = false then .next (s.evalLocal c n false none) else waits s
         | _, _ => waits s)
      | none => waits s

/-- R385: a write of GO to CL_SY_WCANCEL cancels an ARMED slot whose cue is not yet due. -/
def State.cancelSlot (s : State) (c : Cl) (n : Nat) : State :=
  if h : n < 16 then
    match (s.cl c).ws[n] with
    | .armed w _ =>
      if w.done then s
      else
        let s := s.mod c (fun k => { k with ws := k.ws.set n .free h })
        { s with sy := { s.sy with watches := s.sy.watches.filter (fun y => y.dest != .slot c.val n) } }
    | _ => s
  else s

/-- R385: CL_SY_WCANCEL is written. -/
def execClSyWcancelWrite (c : Cl) (val : Word) (s : State) : Res :=
  .next (if bit val.toNat 4 then s.cancelSlot c (bits val.toNat 3 0) else s)

/-- R381: CL_SY_CUEn is read; in state CUED the read frees the slot. -/
def State.readCue (s : State) (c : Cl) (n : Fin 16) : Word × State :=
  match (s.cl c).ws[n.val] with
  | .cued w => (w, s.mod c (fun k => { k with ws := k.ws.set n.val .free n.isLt }))
  | _ => (0, s)

/-- R381: a read of CL_SY_CUEn. -/
def execClSyCueRead (c : Cl) (n : Fin 16) (s : State) : Res :=
  let r := s.readCue c n
  .next { r.2 with readData := r.1 }

/-! ### Cues (R381) -/

/-- R381: the cue reaches watch slot n of cluster c. -/
def State.cueSlot (s : State) (c : Cl) (n : Fin 16) (w : Word) : State :=
  match (s.cl c).ws[n.val] with
  | .armed v cc =>
    let s := (s.mod c (fun k => { k with ws := k.ws.set n.val (.cued w) n.isLt })).cinc c CL_SY_CNT_CUE 1
    let s := match v.ctr with | .dev _ => s.dinc SY_CNT_CUE 1 | .loc _ => s
    let s := s.incLocal c cc 1 2 (.engine c.val)
    if bit (s.cr c CL_SY_CTRL) n.val then s.irq c 20 else s
  | _ => s

/-- R232, R255: the cue reaches the core's wait entry; a sy.waitinv with SATISFIED first invalidates its window. -/
def State.cueWait (s : State) (c : Cl) (w : Word) : State :=
  match (s.cl c).wait with
  | none => s
  | some e =>
    let s := if e.inv && bit w.toNat 48 then
        let lo := s.cr c CL_EI_INVBASE
        let len := s.cr c CL_EI_INVLEN
        s.ccInv c (lineIn lo len)
      else s
    let s := (s.mod c (fun k => { k with wait := none, core := { k.core with stall := .none } })).cinc c CL_SY_CNT_CUE 1
    let s := match e.watch.ctr with | .dev _ => s.dinc SY_CNT_CUE 1 | .loc _ => s
    s.wrRd c e.rd w

/-- R381, R384: cue i reaches its destination; a cue of a pre-empted context is held. -/
def execCueDelivery (i : Nat) (s : State) : Res :=
  match s.sy.cues[i]? with
  | none => waits s
  | some q =>
    let t := { s with sy := { s.sy with cues := s.sy.cues.eraseIdx i } }
    match q.dest with
    | .slot c n =>
      (match toCl c with
       | some c => .next (if h : n < 16 then t.cueSlot c ⟨n, h⟩ q.word else t)
       | none => waits s)
    | .wait c => (match toCl c with | some c => .next (t.cueWait c q.word) | none => waits s)
    | .host x id =>
      if (s.cx x).state = 2 then waits s
      else .next ((t.event x 2 0 s.timebase (leBytes 8 id ++ leBytes 8 q.word.toNat)).dinc SY_CNT_CUE 1)

/-! ### Pairs (R389, R390) -/

/-- R390: CL_SY_PAIRn is written; enabling a pair whose consumer exceeds its producer is ignored and sets PAIRERR. -/
def State.writePair (s : State) (c : Cl) (n : Nat) (val : Nat) : State :=
  if bit val 12 && decide ((s.cl c).ctr (bits val 5 0) < (s.cl c).ctr (bits val 11 6)) then
    s.cwf c CL_SY_STATUS 33 33 1
  else s.mod c (fun k => k.w (CL_SY_PAIR + 8 * n) (val % 2 ^ 13))

/-- CL_SY_PAIRn is written. -/
def execClSyPairWrite (c : Cl) (n : Fin 8) (val : Word) (s : State) : Res := .next (s.writePair c n.val val.toNat)

/-- R390: SY_PAIRk is written. -/
def State.writeDevPair (s : State) (k val : Nat) : State :=
  if bit val 32 && decide (s.dctr (bits val 15 0) < s.dctr (bits val 31 16)) then s.dwf SY_ERR 38 38 1
  else s.dw (SY_PAIR + 8 * k) (val % 2 ^ 33)

/-- SY_PAIRk is written. -/
def execSyPairWrite (k : Fin 256) (val : Word) (s : State) : Res := .next (s.writeDevPair k.val val.toNat)

/-- R392: a translation entry is written; one that would map a counter mapped elsewhere is refused and sets MAPERR. -/
def State.writeVmap (s : State) (x v val : Nat) : State :=
  let taken := match s.ctrOwner (bits val 15 0) with | some o => o != (x, v) | none => false
  if bit val 16 && taken then s.dwf SY_ERR 39 39 1 else s.dw (SY_VMAP + 0x8000 * x + 8 * v) (val % 2 ^ 17)

/-- SY_VMAPc entry v is written. -/
def execSyVmapWrite (x : Ctx) (v : Fin 4096) (val : Word) (s : State) : Res := .next (s.writeVmap x.val v.val val.toNat)

/-- R395, R403: SY_CURk_CFG is written; EXPECT 0 with EN is ignored. An entry that becomes active starts at generation 0, and
its arrivals so far count (assumption 48). -/
def State.writeCurCfg (s : State) (k val : Nat) : State :=
  if bit val 54 && bits val 47 32 == 0 then s
  else
    let was := bit (s.dr (curReg SY_CUR_CFG k)) 54
    let s := s.dw (curReg SY_CUR_CFG k) (val % 2 ^ 55)
    if bit val 54 && !was then
      let s : State := { s with sy := { s.sy with sent := amDel s.sy.sent k, released := amDel s.sy.released k } }
      s.checkArr (bits val 15 0)
    else s

/-- SY_CURk_CFG is written. -/
def execSyCurCfgWrite (k : Fin 16) (val : Word) (s : State) : Res := .next (s.writeCurCfg k.val val.toNat)

end Sys2Proof.Machine
end

