-- ==== Sys2Proof/Machine/Scratchpad.lean ====
section
/-! DEFINITION. Sys2Proof/Machine/Scratchpad.lean: scrubbing, fill and copy, the prop table and windows, and arrivals
(R259 to R283, R453, R454). -/

namespace Sys2Proof.Machine

/-! ### Scrubbing (R266, R269) -/

/-- R269: the scrubber's pointer advances. -/
def State.scrubNext (s : State) (c : Cl) : State :=
  let r := s.cr c CL_SP_SCRUB
  let p := bits r 15 0 + 1
  s.mod c (fun k => k.w CL_SP_SCRUB (if p = 65536 then place 47 16 (bits r 47 16 + 1) else place 47 16 (bits r 47 16) + p))

/-- R269: the scrubber reads the word at its pointer. ecc names that word if its check bits show an error. -/
def execScrubWordCheck (c : Cl) (ecc : Ecc) (s : State) : Res :=
  if bit (s.cr c CL_SP_CTRL) 0 = false ∨ (s.cl c).wiping then waits s
  else
    let p := bits (s.cr c CL_SP_SCRUB) 15 0
    let mine := match ecc with | .clean => false | .corrected w => w == p | .uncorrectable w => w == p
    let s := if mine then s.spEcc c ecc else s
    let s := if (s.cl c).bad.contains p then s.spEncounter c 1 p else s
    .next (s.scrubNext c)

/-- R266: a corrected word is written back in an idle turn. -/
def execCorrectedWordWriteback (c : Cl) (s : State) : Res :=
  match (s.cl c).fix with
  | [] => waits s
  | _ :: t => .next (s.mod c (fun k => { k with fix := t }))

/-! ### Fill and copy (R270 to R273) -/

/-- R272: an operation completes with a status. -/
def State.opDone (s : State) (c : Cl) (status ctr : Nat) (sig : Bool) : State :=
  let s := s.mod c (fun k => { (k.wf CL_SP_STATUS 31 16 status).wf CL_SP_STATUS 1 1 1 with op := none })
  if sig then s.engInc c ctr else s

/-- R270, R271: CL_SP_OPCTRL is written; GO starts an operation after its checks. -/
def State.writeOpCtrl (s : State) (c : Cl) (v : Nat) : State :=
  let s := s.mod c (fun k => k.w CL_SP_OPCTRL (v % 2 ^ 28 / 8 * 8))
  if bit v 28 = false then s
  else if (s.cl c).op.isSome then s.cwf c CL_SP_STATUS 3 3 1
  else
    let len := bits v 19 3 * 8
    let copy := bit v 20
    let ctr := bits v 26 21
    let sig := bit v 27
    let dst := s.cr c CL_SP_OPDST
    let src := s.cr c CL_SP_OPSRC
    if len = 0 then s.opDone c OK ctr sig
    else if 524288 < dst + len ∨ (copy ∧ 524288 < src + len) then s.opDone c EXTENT ctr sig
    else s.mod c (fun k =>
      let held := if copy then k.spRead src len else []
      let bad := if copy then (k.spBad src len).map (fun w => w - src / 8) else []
      { k with op := some ⟨copy, dst, len, word (k.r CL_SP_OPVAL), held, bad, ctr, sig, src⟩ })

/-- CL_SP_OPCTRL is written. -/
def execFillCopyGo (c : Cl) (val : Word) (s : State) : Res := .next (s.writeOpCtrl c val.toNat)

/-- R270, R272: the running operation has written its range; words copied from poisoned ones are poisoned (R267). -/
def execFillCopyComplete (c : Cl) (s : State) : Res :=
  match (s.cl c).op with
  | none => waits s
  | some o =>
    let bytes := if o.copy then o.src else (List.range (o.len / 8)).flatMap (fun _ => leBytes 8 o.val.toNat)
    let s := s.mod c (fun k => (k.spWrite o.dst bytes).spPoison (o.bad.map (· + o.dst / 8)))
    let s := s.spEncounters c 2 (o.bad.map (· + o.srcAt / 8))
    .next (s.opDone c (if o.bad.isEmpty then OK else FAULT) o.ctr o.sig)

/-! ### The prop table and windows (R274, R283) -/

/-- R274: a prop-table entry is written. -/
def State.writeProp (s : State) (c : Cl) (h v : Nat) : State :=
  if bit v 27 && decide (524288 < (bits v 12 0 + bits v 26 13) * 64) then s.cwf c CL_SP_STATUS 4 4 1
  else s.mod c (fun k => k.w (CL_PROP + 8 * h) (v % 2 ^ 29))

/-- CL_PROPh is written. -/
def execPropTableWrite (c : Cl) (h : Fin 64) (val : Word) (s : State) : Res := .next (s.writeProp c h.val val.toNat)

/-- R283: a window is written. -/
def State.writeWindow (s : State) (c : Cl) (n v : Nat) : State :=
  if 524288 < (bits v 12 0 + bits v 26 13) * 64 then s.cwf c CL_SP_STATUS 5 5 1
  else s.mod c (fun k => k.w (CL_SP_WIN + 8 * n) (v % 2 ^ 48))

/-- CL_SP_WINn is written. -/
def execWindowWrite (c : Cl) (n : Fin 8) (val : Word) (s : State) : Res := .next (s.writeWindow c n.val val.toNat)

/-! ### Arrivals (R280 to R283) -/

/-- R280: the window that admits n bytes at an offset from a chip: the lowest that contains them and admits the chip. -/
def Cluster.admits (k : Cluster) (chip off n : Nat) : Option Nat :=
  (List.range 8).find? (fun i =>
    let w := k.r (CL_SP_WIN + 8 * i)
    bit w 47 && decide (bits w 12 0 * 64 ≤ off) && decide (off + n ≤ (bits w 12 0 + bits w 26 13) * 64)
      && (bit w 34 || bits w 46 35 == chip))

/-- R282: a rejected arrival: counted, captured and recorded. -/
def State.winReject (s : State) (c : Cl) (a : Arrival) : State :=
  let s := (s.cinc c CL_SP_CNT_WINREJ 1).ccap c CL_SP_WINREJ 32 (a.chip + place 30 12 a.off)
  s.logErr { source := 5, cls := LOST, cause := 2, unit := c.val, ctx := some (s.cl c).owner, info := word (s.cr c CL_SP_WINREJ) }

/-- The global address of an offset in a cluster of this chip. -/
def State.spAddr (s : State) (c : Cl) (off : Nat) : Nat := 2 * 2 ^ 60 + s.chip * 2 ^ 48 + c.val * 2 ^ 19 + off

/-- R454: the answer to a transfer from another chip: COMPLETE, or REJECT with an address. -/
def State.answerXfer (s : State) (chip clus xslot : Nat) (rej : Option Nat) : State :=
  let slice := bits (s.dr (LK_RT_ENT + 8 * chip)) 19 12
  match rej with
  | some a => s.sendOp chip slice 1 6 0 0 63 0 (leBytes 8 a ++ leBytes 1 clus ++ leBytes 7 xslot)
  | none => s.sendOp chip slice 1 7 0 0 63 0 (leBytes 8 0 ++ leBytes 1 clus ++ leBytes 7 xslot)

/-- Whether an arrival belongs to a transfer from another chip. -/
def Arrival.ofLink (a : Arrival) (chip clus xslot : Nat) : Bool :=
  match a.from_ with | .link h k x _ => h == chip && k == clus && x == xslot | _ => false

/-- R341, R454: one transfer of a store stream of this chip is answered: rejected or performed. -/
def State.answerOwn (s : State) (c xslot num : Nat) (rej : Bool) : State :=
  s.modN c (fun k => { k with st := { k.st with xfers := k.st.xfers.map (fun x =>
    if 4 ≤ x.slot ∧ x.xslot = xslot ∧ x.num = num then { x with ready := true, rejected := x.rejected || rej } else x) } })

/-- R454: an arrival of a transfer has been rejected, or performed; the transfer is answered once its last is done. -/
def State.arrivalEnd (s : State) (c : Cl) (a : Arrival) (rejected : Bool) : State :=
  match a.from_ with
  | .core _ _ => s
  | .host => s
  | .stream b x num => s.answerOwn b x num rejected
  | .link chip clus x last =>
    let mine := fun (r : RejXfer) => r.chip == chip && r.clus == clus && r.xslot == x
    let old := (s.cl c).rejs.find? mine
    let now := match old with
      | some r => some { r with last := r.last || last }
      | none => if rejected then some ⟨chip, clus, x, s.spAddr c a.off, last⟩ else none
    let s := s.mod c (fun k => { k with rejs := k.rejs.filter (fun r => !mine r) ++ now.toList })
    let busy := (s.cl c).admA.any (fun y => y.arr.ofLink chip clus x)
    match now with
    | some r =>
      if r.last && !busy then
        (s.mod c (fun k => { k with rejs := k.rejs.filter (fun r => !mine r) })).answerXfer chip clus x (some r.addr)
      else s
    | none => if last then s.answerXfer chip clus x none else s

/-- R280: the oldest waiting arrival is checked at its first word. -/
def execArrivalCheck (c : Cl) (s : State) : Res :=
  match (s.cl c).waitA with
  | [] => waits s
  | a :: t =>
    let s := s.mod c (fun k => { k with waitA := t })
    match (s.cl c).admits a.chip a.off (8 * a.words.length) with
    | some i =>
      let w := s.cr c (CL_SP_WIN + 8 * i)
      .next ((s.mod c (fun k => { k with admA := k.admA ++ [⟨a, bits w 32 27, bit w 33⟩] })).cinc c CL_SP_CNT_ARRIVE 1)
    | none => .next ((s.winReject c a).arrivalEnd c a true)

/-- The A extension's functions (R453): AMO funct5 on n-bit values, old and operand to new. -/
def amoOp (f n : Nat) (old v : Nat) : Nat :=
  match f with
  | 0x00 => (old + v) % 2 ^ n
  | 0x01 => v
  | 0x04 => Nat.xor old v
  | 0x08 => Nat.lor old v
  | 0x0C => Nat.land old v
  | 0x10 => if sgn n v < sgn n old then v else old
  | 0x14 => if sgn n old < sgn n v then v else old
  | 0x18 => min old v
  | 0x1C => max old v
  | _ => old

/-- The functions that amoOp gives. -/
def amoKnown (f : Nat) : Bool := [0x00, 0x01, 0x04, 0x08, 0x0C, 0x10, 0x14, 0x18, 0x1C].contains f

/-- R280, R351: the words of an admitted arrival are written, or its atomic performed at the bank. An atomic leaves a poisoned
word as it is and counts the encounter. -/
def State.arrivalWrite (s : State) (c : Cl) (a : Arrival) : State :=
  match a.amo with
  | none => s.mod c (fun k => (k.spWrite a.off (a.words.flatMap (fun w => leBytes 8 w.toNat))).spPoison
      (a.bad.map (· + a.off / 8)))
  | some f =>
    if (s.cl c).bad.contains (a.off / 8) then s.spEncounter c 0 (a.off / 8)
    else
      let old := leNat ((s.cl c).spRead a.off 8)
      s.mod c (fun k => k.spWrite a.off (leBytes 8 (amoOp f 64 old (a.words.headD 0).toNat)))

/-- R281: the oldest admitted arrival has been written: its window's counter counts it. -/
def execArrivalComplete (c : Cl) (s : State) : Res :=
  match (s.cl c).admA with
  | [] => waits s
  | m :: t =>
    let s := s.mod c (fun k => { k with admA := t })
    let s := s.arrivalWrite c m.arr
    let s := s.incLocal c m.ctr (if m.inc then m.arr.words.length else 1) 2 (.engine c.val)
    .next (s.arrivalEnd c m.arr false)

/-- R280, R767: an arrival sets out for a cluster of this chip. -/
def State.sendArrival (s : State) (n : Nat) (a : Arrival) : State :=
  s.modN n (fun k => { k with waitA := k.waitA ++ [a] })

/-! ### Launch, context change, save and reclaim (R276 to R279) -/

/-- R276: a launch clears VALID in the entries without RETAIN. -/
def Cluster.launchProps (k : Cluster) : Cluster :=
  (List.range 64).foldl (fun k h => let p := k.r (CL_PROP + 8 * h); if bit p 28 then k else k.wf (CL_PROP + 8 * h) 27 27 0) k

/-- R278: the bytes of the retained buffers, as (offset, bytes). -/
def Cluster.retained (k : Cluster) : List (Nat × List Byte) :=
  (List.range 64).filterMap (fun h =>
    let p := k.r (CL_PROP + 8 * h)
    if bit p 27 && bit p 28 then some (bits p 12 0 * 64, k.spRead (bits p 12 0 * 64) (bits p 26 13 * 64)) else none)

/-- R279: the retained scratchpad of a cluster, in 64-byte units. -/
def Cluster.retainedUnits (k : Cluster) : Nat :=
  ((List.range 64).map (fun h =>
    let p := k.r (CL_PROP + 8 * h)
    if bit p 27 && bit p 28 then bits p 26 13 else 0)).foldl (· + ·) 0

/-- R279: the retained scratchpad of a context. -/
def State.spUsed (s : State) (x : Nat) : Nat :=
  ((s.cls.toList.filter (fun k => k.owner == x)).map (·.retainedUnits)).foldl (· + ·) 0

/-- R279: reclaim entry h of a cluster: its buffer is zeroed, VALID and RETAIN cleared. -/
def Cluster.reclaimProp (k : Cluster) (h : Nat) : Cluster :=
  let p := k.r (CL_PROP + 8 * h)
  (k.spWrite (bits p 12 0 * 64) (List.replicate (bits p 26 13 * 64) 0)).wf (CL_PROP + 8 * h) 28 27 0

/-- R279: reclaim the entries of cluster c in descending handle number until the context is within its quota. -/
def State.reclaimCluster (s : State) (x : Nat) (c : Cl) : State :=
  ((List.range 64).reverse).foldl (fun s h =>
    let p := s.cr c (CL_PROP + 8 * h)
    if bit p 27 && bit p 28 && decide ((s.cx x).quota.spret < s.spUsed x) then s.mod c (fun k => k.reclaimProp h) else s) s

end Sys2Proof.Machine
end

