-- ==== Sys2Proof/Machine/WeightOps.lean ====
section
/-! DEFINITION. Sys2Proof/Machine/WeightOps.lean: shards as byte sequences: pieces, digests, schedules and stamps
(R421, R483 to R487). -/

namespace Sys2Proof.Machine

/-! ### Pieces (R421, R485) -/

/-- Fields of a piece record. -/
def recLayer (r : List Byte) : Nat := fieldB r 0 2
def recPiece (r : List Byte) : Nat := fieldB r 2 2
def recFeed (r : List Byte) : Nat := bits (fieldB r 4 1) 3 0
def recLen (r : List Byte) : Nat := fieldB r 8 4

/-- R421: the reserved bytes of a record are zero. -/
def recReserved (r : List Byte) : Bool :=
  bits (fieldB r 4 1) 7 4 == 0 && fieldB r 5 3 == 0 && fieldB r 12 4 == 0 && fieldB r 50 2 == 0

/-- R421: CHECK of a record holds. -/
def recCheck (r : List Byte) : Bool := fieldB r 60 4 == (crc32c (sliceB r 0 60)).toNat

/-- R485: the pieces of a byte sequence, as offset and bytes; none where it does not parse. -/
def pieces : Nat → Nat → List Byte → Option (List (Nat × List Byte))
  | _, _, [] => some []
  | 0, _, _ => none
  | n + 1, off, bs =>
    let len := recLen bs
    if bs.length < 64 + len ∨ len % 64 ≠ 0 ∨ recReserved bs = false then none
    else
      match pieces n (off + 64 + len) (bs.drop (64 + len)) with
      | some t => some ((off, bs.take (64 + len)) :: t)
      | none => none

/-- R485: the pieces of a shard's bytes. -/
def shardPieces (bs : List Byte) : Option (List (Nat × List Byte)) := pieces (bs.length / 64) 0 bs

/-- R484: the digest of one piece: LAYER and CHECK count as zero. -/
def pieceDigest (p : List Byte) : List Byte :=
  leBytes 32 (Config.sha3 (leBytes 2 0 ++ sliceB p 2 58 ++ leBytes 4 0 ++ p.drop 64)).toNat

/-- R484, R485: the digest of a shard's bytes; none where it does not parse. -/
def shardDigest (bs : List Byte) : Option (BitVec 256) :=
  (shardPieces bs).map (fun ps => Config.sha3 (ps.flatMap (fun p => pieceDigest p.2)))

/-- R487: a record stamped for a pass. -/
def stampRec (pass : Nat) (r : List Byte) : List Byte :=
  let b := leBytes 2 pass ++ sliceB r 2 58
  b ++ leBytes 4 (crc32c b).toNat

/-! ### The shard table (R483, R486, R488) -/

/-- A shard of context x by SHARDID: the one mapped, not a replacement. -/
def State.shard (s : State) (x id : Nat) : Option Shard :=
  s.wt.shards.find? (fun h => h.ctx == x && h.id == id && h.replaces.isNone)

/-- Two entries that are one shard; a replacement stands beside the shard it replaces, and beside its replacements for other
passes (R506). -/
def Shard.same (a b : Shard) : Bool :=
  a.ctx == b.ctx && a.id == b.id && a.replaces.isSome == b.replaces.isSome && (a.replaces.isNone || a.at_ == b.at_)

/-- Change an entry of the table. -/
def State.modShard (s : State) (h : Shard) (f : Shard → Shard) : State :=
  { s with wt := { s.wt with shards := updFirst (fun y => y.same h) f s.wt.shards } }

/-- The pages of a shard (R483). -/
def Shard.pages (h : Shard) : Nat := (h.len + 2097151) / 2097152

/-- The first page of a shard in its context's map. -/
def Shard.page0 (h : Shard) : Nat := bits h.caddr 41 21

/-- The physical address of byte off of a shard in its frames. -/
def Shard.phys (h : Shard) (off : Nat) : Nat := h.frames.getD (off / 2097152) 0 * 2097152 + off % 2097152

/-- The bytes of a shard in HBM. -/
def State.shardBytes (s : State) (h : Shard) : List Byte := (upFrom 0 h.len).map (fun o => amGet 0 s.mem.hbm (h.phys o))

/-- Write the bytes of a shard to its frames, page by page. -/
def State.shardWrite (s : State) (h : Shard) (bs : List Byte) : State :=
  (upFrom 0 h.pages).foldl (fun s i => s.hbmWrite (h.phys (2097152 * i)) ((bs.drop (2097152 * i)).take 2097152)) s

/-- The shard of context x that a page belongs to. -/
def State.shardAt (s : State) (x page : Nat) : Option Shard :=
  s.wt.shards.find? (fun h => h.ctx == x && h.replaces.isNone && decide (h.page0 ≤ page) && decide (page < h.page0 + h.pages))

/-- R486: the first pass of one schedule at or after a pass. -/
def schedNext (first period from_ : Nat) : Option Nat :=
  if period = 0 then none
  else if from_ ≤ first then some first
  else some (first + (from_ - first + period - 1) / period * period)

/-- R486: the first scheduled pass of a shard at or after a pass. -/
def Shard.next (h : Shard) (from_ : Nat) : Option Nat :=
  match schedNext h.first h.period from_, schedNext h.first2 h.period2 from_ with
  | some a, some b => some (min a b)
  | some a, none => some a
  | none, b => b

/-- R487: every record of a shard in HBM is stamped for a pass. -/
def State.stampShard (s : State) (h : Shard) (pass : Nat) : State :=
  match shardPieces (s.shardBytes h) with
  | none => s
  | some ps =>
    let s := ps.foldl (fun s p => s.hbmWrite (h.phys p.1) (stampRec pass (sliceB p.2 0 64))) s
    (s.dinc HM_WT_CNT_STAMP ps.length).modShard h (fun y => { y with stamp := some pass })

/-- R487: a shard is stamped for its next scheduled pass at or after the pass given, if it has one. -/
def State.stampNext (s : State) (h : Shard) (from_ : Nat) : State :=
  match h.next from_ with
  | some p => s.stampShard h p
  | none => s

end Sys2Proof.Machine
end

