-- ==== Sys2Proof/Machine/Streams.lean ====
section
/-! DEFINITION. Sys2Proof/Machine/Streams.lean: fetch and store streams (R302 to R346, R772, R773). -/

namespace Sys2Proof.Machine

/-! ### Descriptors and places (R306 to R313) -/

/-- Whether every number below n satisfies p. -/
def allBelow (p : Nat → Bool) : Nat → Bool
  | 0 => true
  | n + 1 => allBelow p n && p n

/-- R327: a ring-feed stream. -/
def StreamD.feed (d : StreamD) : Bool := gKind d.addr == 4

/-- R307: the number of runs. -/
def StreamD.runs (d : StreamD) : Nat := d.n1 * d.n2 * d.n3

/-- R310: the bytes of a row in the place that a TILE or TILESC stream fills or reads. -/
def StreamD.rowB (d : StreamD) (x : Tile) : Nat :=
  if d.loc = 2 then rowBytes x.shape x.fmt x.pair else scaleBytes x.shape x.fmt

/-- R308, R426: the bytes that the buffer of fill f must hold. -/
def StreamD.need (d : StreamD) (f : Nat) : Nat := if d.feed then d.fillB + 64 else d.fillLen f

/-- The stream in a slot. -/
def Cluster.strm (k : Cluster) (slot : Nat) : Option Strm := (k.st.slots.find? (fun p => p.1 == slot)).map (·.2)

/-- Change the stream in a slot. -/
def Cluster.modStrm (k : Cluster) (slot : Nat) (f : Strm → Strm) : Cluster :=
  { k with st := { k.st with slots := k.st.slots.map (fun p => if p.1 = slot then (p.1, f p.2) else p) } }

/-- The state with the stream in a slot of cluster c changed. -/
def State.strm (s : State) (c : Cl) (slot : Nat) (f : Strm → Strm) : State := s.mod c (fun k => k.modStrm slot f)

/-- R302: a free slot of a direction. -/
def Cluster.freeStrm (k : Cluster) (dir : Nat) : Option Nat :=
  (upFrom (4 * dir) 4).find? (fun n => (k.strm n).isNone)

/-! ### Checks at acceptance (R329, R330, R338) -/

/-- R326: whether cluster m is of the launch of cluster c. -/
def State.inLaunch (s : State) (c : Cl) (m : Nat) : Bool :=
  m == c.val || ((s.cl c).launch.isSome && (s.clN m).launch == (s.cl c).launch)

/-- R329, check 1. -/
def streamForm (q : QInsn) (d : StreamD) : Bool :=
  q.rs1.toNat % 64 == 0 && bits q.rs1.toNat 63 19 == 0 && !d.rsv && decide (d.dir ≤ 1) && decide (d.loc ≤ 3)
    && d.hint != 3 && decide (d.la ≤ 16) && decide (d.bufb ≤ 8192)

/-- R329, check 3: no forbidden combination. -/
def State.streamKind (s : State) (c : Cl) (d : StreamD) : Bool :=
  let still := d.s1 == 0 && d.s2 == 0 && d.s3 == 0
  (!d.mcast || (d.dir == 0 && d.loc == 0 && d.mask != 0 && (List.range 40).all (fun m => !(bit d.mask m) || s.inLaunch c m)))
    && (!d.inject || (d.dir == 0 && d.cls == 2 && gKind d.addr == 1 && gChip d.addr == s.chip))
    && (d.la == 0 || d.cls == 2) && !(d.cc && d.dir == 1) && !(d.idx && (d.n2 != 1 || d.n3 != 1))
    && !(d.loc == 3 && d.dir == 1) && !(d.loc == 2 && d.dir == 1 && ((s.cl c).tile d.handle).shape != 4)
    && (d.loc == 0) == (d.bufb != 0)
    && !(d.feed && (d.dir == 1 || d.loc != 0 || !still || d.idx)) && !(gKind d.addr == 2 && d.dir == 0)

/-- R329, check 4: the tile register. -/
def Cluster.streamTile (k : Cluster) (d : StreamD) : Bool :=
  let x := k.tile d.handle
  let rb := d.rowB x
  d.loc ≤ 1 || (x.shape != 0 && !x.member && rb != 0 && d.total % rb == 0
    && (d.dir == 0 || (upFrom d.first (d.total / rb)).all (fun r => decide (x.rows ≤ r) || x.valid.contains r)))

/-- R329, check 5: whether one run lies in the context's address space, in a kind its direction may name (R313). -/
def State.runIn (s : State) (x : Nat) (d : StreamD) (a : Nat) : Bool :=
  s.inSpace x a d.run && !(d.dir == 0 && gKind a == 2) && !(d.dir == 1 && gKind a == 4)

/-- R329, check 5. -/
def State.streamExtent (s : State) (c : Cl) (d : StreamD) : Bool :=
  let k := s.cl c
  let x := k.tile d.handle
  (if d.idx then allBelow (fun i => s.runIn k.owner d (d.runAddr 0 i)) d.ilim
   else allBelow (fun r => s.runIn k.owner d (d.runAddr r 0)) d.runs)
    && (d.loc != 1 || decide (d.total ≤ (k.prop d.handle).size))
    && (!d.idx || decide (d.ioff + 4 * d.n1 ≤ (k.prop d.ihandle).size))
    && (d.loc ≤ 1 || decide (d.first + d.total / d.rowB x ≤ x.rows))
    && decide (d.sb * 64 + 128 ≤ 524288)

/-- R329: the outcome of the checks. -/
def State.streamCheck (s : State) (c : Cl) (q : QInsn) (d : StreamD) : Check :=
  if streamForm q d = false then .fault SHAPE
  else if d.l0 = 0 ∨ d.runs = 0 then .noEffect
  else if s.streamKind c d = false ∨ (s.cl c).streamTile d = false then .fault SHAPE
  else if s.streamExtent c d = false then .fault EXTENT
  else .pass

/-! ### The state block (R331, R332, R339) -/

/-- The bytes done in order from a place on. -/
def contig : Nat → List (Nat × Nat) → Nat → Nat
  | 0, _, n => n
  | f + 1, rs, n => match rs.find? (fun r => decide (r.1 ≤ n) && decide (n < r.2)) with
    | some r => contig f rs r.2
    | none => n

/-- R339, R341, R342: BYTEPOS: bytes wholly delivered, in whole fills or rows. -/
def Cluster.bytePos (k : Cluster) (d : StreamD) (x : Strm) : Nat :=
  let n := contig (x.doneR.length + 1) x.doneR x.base
  let whole := fun (u : Nat) => if n = d.total ∨ u = 0 then n else n / u * u
  match d.loc with
  | 0 => if d.feed then n else if d.dir = 0 then min d.total (x.pushedF * d.fillB) else whole d.fillB
  | 1 => n
  | _ => whole (d.rowB (k.tile d.handle))

/-- R339: FILL. -/
def Cluster.fillNo (k : Cluster) (d : StreamD) (x : Strm) : Nat :=
  if d.loc ≠ 0 then 0 else if d.dir = 0 then x.pushedF else k.bytePos d x / d.fillB

/-- R339: bytes 64 to 127 of the state block. -/
def Cluster.stateBytes (k : Cluster) (d : StreamD) (x : Strm) (i : StopInfo) : List Byte :=
  let pos := k.bytePos d x
  let run := pos / d.run
  let tok := leBytes 8 pos ++ leBytes 4 (k.fillNo d x) ++ leBytes 2 (run % d.n1) ++ leBytes 2 (run / d.n1 % d.n2)
    ++ leBytes 2 (run / (d.n1 * d.n2)) ++ leBytes 4 (pos % d.run) ++ leBytes 2 x.num
  tok ++ leBytes 4 (crc32c (x.desc ++ tok)).toNat ++ leBytes 4 0
    ++ leBytes 2 i.state ++ leBytes 2 i.status ++ leBytes 4 i.indexPos ++ leBytes 4 i.indexVal ++ leBytes 8 i.faddr
    ++ leBytes 4 x.poison ++ leBytes 1 i.handle ++ leBytes 1 i.member ++ leBytes 6 0

/-- Write the state block's bytes 64 to 127. -/
def State.putBlock (s : State) (c : Cl) (x : Strm) (i : StopInfo) : State :=
  let d := streamD x.desc
  s.mod c (fun k => k.spWrite (d.sb * 64 + 64) (k.stateBytes d x i))

/-! ### Acceptance (R302 to R305, R331, R338) -/

/-- R331: a stream of no bytes takes a number, writes its state block and signals. -/
def State.emptyStream (s : State) (c : Cl) (q : QInsn) (bs : List Byte) (d : StreamD) : State :=
  let num := (s.cl c).st.next
  let blk := bs ++ List.replicate 32 0 ++ leBytes 2 4 ++ leBytes 2 OK ++ List.replicate 28 0
  let s := (s.acceptHead c .stream q (word num)).mod c (fun k =>
    let k := { k with st := { k.st with next := (num + 1) % 65536, last := num } }
    if d.sb * 64 + 128 ≤ 524288 then k.spWrite (d.sb * 64) blk else k)
  if d.sigen then s.engInc c d.ctr else s

/-- R304, R305, R309: a stream takes a slot and a number; base is the place in its byte sequence at which it begins. -/
def State.startStream (s : State) (c : Cl) (q : QInsn) (bs : List Byte) (d : StreamD) (slot base fill : Nat) : State :=
  let num := (s.cl c).st.next
  (s.acceptHead c .stream q (word num)).mod c (fun k =>
    let x : Strm := { num := num, tk := q.tk, desc := bs, base := base, issued := base, begun := fill, pushedF := fill,
                      hbuf := k.prop d.handle, ibuf := k.prop d.ihandle }
    let k := { k with st := { k.st with next := (num + 1) % 65536, slots := amIns k.st.slots slot x } }
    let k := k.spWrite (d.sb * 64) bs
    k.spWrite (d.sb * 64 + 64) (k.stateBytes d x { state := 1, status := OK }))

/-- The acceptance that st.post and st.resume share: checks in order, then a slot of the direction. -/
def streamAccept (c : Cl) (q : QInsn) (bs : List Byte) (base fill : Nat) (s : State) : Res :=
  let d := streamD bs
  let slot := (s.cl c).freeStrm d.dir
  if d.dir ≤ 1 ∧ slot.isNone then waits s
  else
    match s.streamCheck c q d with
    | .fault st => .next (s.faultHead c .stream q st)
    | .noEffect => .next (s.emptyStream c q bs d)
    | .pass => .next (s.startStream c q bs d (slot.getD 0) base fill)

/-- R329: st.post reaches the head of its engine. -/
def execStreamAccept (c : Cl) (s : State) : Res :=
  match (s.cl c).ready .stream 1 with
  | none => waits s
  | some q => streamAccept c q ((s.cl c).spRead (bits q.rs1.toNat 18 0) 64) 0 0 s

/-- R338: st.resume reaches the head of its engine; the state block is checked first. -/
def execStreamResumeAccept (c : Cl) (s : State) : Res :=
  match (s.cl c).ready .stream 2 with
  | none => waits s
  | some q =>
    let b := (s.cl c).spRead (bits q.rs1.toNat 18 0) 128
    let state := fieldB b 96 1
    if fieldB b 88 4 ≠ (crc32c (sliceB b 0 88)).toNat ∨ (state ≠ 3 ∧ state ≠ 5) then .next (s.faultHead c .stream q SHAPE)
    else streamAccept c q (sliceB b 0 64) (fieldB b 64 8) (fieldB b 72 4) s

/-! ### Stops (R322, R333 to R336, R341, R342, R772, R773) -/

/-- A stream stops; the fill holding byte pos is not pushed. The first reason stands. -/
def Strm.stopAt (x : Strm) (pos : Nat) (i : StopInfo) : Strm :=
  let d := streamD x.desc
  if x.stop.isSome then x
  else { x with stop := some i, halted := none, failF := if d.loc = 0 ∧ d.feed = false then some (pos / d.fillB) else x.failF }

/-- R336: the stream in a slot is cancelled. -/
def Strm.cancel (x : Strm) : Strm :=
  if x.stop.isSome then x else { x with stop := some { state := 5, status := PARTIAL }, halted := none }

/-- R336: every stream of a cluster is cancelled. -/
def Cluster.cancelAll (k : Cluster) : Cluster :=
  { k with st := { k.st with slots := k.st.slots.map (fun p => (p.1, p.2.cancel)) } }

/-- R346: every slot is freed without a state block. -/
def Cluster.freeStreams (k : Cluster) : Cluster := { k with st := { k.st with slots := [], xfers := [] } }

/-- R335, R773: the streams halted on a page of context x stop. -/
def State.stopHalted (s : State) (x page status : Nat) : State :=
  { s with cls := s.cls.map (fun k =>
      if k.owner = x then
        { k with st := { k.st with slots := k.st.slots.map (fun p =>
          if p.2.halted = some page
          then (p.1, p.2.stopAt p.2.issued { state := 3, status := status, faddr := 2 ^ 60 + s.chip * 2 ^ 48 + page * 2097152 })
          else p) } }
      else k) }

/-- R773: the streams halted on pages that have left the address space of context x stop. -/
def State.stopOutside (s : State) (x : Nat) : State :=
  let pages := s.cls.toList.flatMap (fun k => if k.owner = x then k.st.slots.filterMap (fun p => p.2.halted) else [])
  (pages.filter (fun p => !(bit (s.page x p) 0))).foldl (fun s p => s.stopHalted x p EXTENT) s

/-- R336: a write of GO to ST_CANCEL. -/
def State.writeCancel (s : State) (c : Cl) (v : Nat) : State :=
  if bit v 16 then
    s.mod c (fun k => { k with st := { k.st with slots := k.st.slots.map (fun p =>
      if p.2.num = bits v 15 0 then (p.1, p.2.cancel) else p) } })
  else s

/-- ST_CANCEL is written. -/
def execStCancelWrite (c : Cl) (val : Word) (s : State) : Res := .next (s.writeCancel c val.toNat)

/-! ### Fills (R308, R314 to R316, R323 to R325, R333) -/

/-- R323: the clusters to which a stream delivers. -/
def StreamD.members (d : StreamD) (c : Cl) : List Nat :=
  if d.mcast then (List.range 40).filter (fun m => bit d.mask m) else [c.val]

/-- R308: the queue from which a stream pops, and the one onto which it pushes. -/
def StreamD.popQ (d : StreamD) : Nat := if d.dir = 0 then d.eq else d.fq
def StreamD.pushQ (d : StreamD) : Nat := if d.dir = 0 then d.fq else d.eq

/-- R315: the fills begun for a member and not yet popped by its consumer. -/
def State.ownFills (s : State) (c : Cl) (x : Strm) (m : Nat) : Nat :=
  (x.fills.filter (fun f => !(f.pushed.contains m))).length
    + (((s.clN m).queue (streamD x.desc).fq).filter (fun e => e.own == some (c.val, x.num))).length

/-- R318: the transfers outstanding at the engine of a slot. -/
def Cluster.outstanding (k : Cluster) (slot : Nat) : Nat := (k.st.xfers.filter (fun y => y.slot / 4 == slot / 4)).length

/-- R314, R316: whether a stream would begin its next fill if its members allowed it. -/
def Cluster.wantsFill (k : Cluster) (slot : Nat) (x : Strm) : Bool :=
  let d := streamD x.desc
  d.loc == 0 && x.stop.isNone && x.halted.isNone && decide (x.issued < d.total)
    && (if d.feed then !(x.fills.any (fun f => f.len == 0))
        else decide (x.begun * d.fillB ≤ x.issued) && decide (k.outstanding slot < 8))

/-- R315, R324: whether a member holds the next fill up. -/
def State.lacks (s : State) (c : Cl) (x : Strm) (m : Nat) : Bool :=
  let d := streamD x.desc
  ((s.clN m).queue d.popQ).isEmpty || (d.cls == 2 && d.dir == 0 && decide (d.look ≤ s.ownFills c x m))

/-- R325: the members that hold the next fill of a stream up. -/
def State.lagging (s : State) (c : Cl) (slot : Nat) (x : Strm) : List Nat :=
  if (s.cl c).wantsFill slot x then ((streamD x.desc).members c).filter (s.lacks c x) else []

/-- R308, R333: the next fill of a stream begins: a handle popped from every member; a buffer too small stops it. -/
def State.beginFill (s : State) (c : Cl) (slot : Nat) (x : Strm) : State :=
  let d := streamD x.desc
  let ms := d.members c
  let hs := ms.filterMap (fun m => match ((s.clN m).queue d.popQ).head? with
    | some e => some (m, e, (s.clN m).prop e.handle) | none => none)
  let s := ms.foldl (fun s m => s.modN m (fun k => k.setQueue d.popQ (k.queue d.popQ).tail)) s
  let f : Fill := { f := x.begun, handles := hs, len := if d.feed then 0 else d.fillLen x.begun }
  let y := { x with fills := x.fills ++ [f], begun := x.begun + 1 }
  match hs.find? (fun h => decide (h.2.2.size < d.need x.begun)) with
  | none => s.strm c slot (fun _ => y)
  | some h =>
    let i : StopInfo := { state := 3, status := EXTENT, handle := h.2.1.handle, member := h.1 }
    s.strm c slot (fun _ => { y.stopAt y.issued i with failF := some x.begun })

/-- The stream in a slot begins its next fill, once queue and lookahead allow it. -/
def execStreamFillBegin (c : Cl) (slot : Fin 8) (s : State) : Res :=
  match (s.cl c).strm slot.val with
  | none => waits s
  | some x =>
    if (s.cl c).wantsFill slot.val x && (s.lagging c slot.val x).isEmpty then .next (s.beginFill c slot.val x) else waits s

/-- R308, R316, R322: whether the oldest fill of a stream may be pushed: complete, and of a fetch before the one that
failed. -/
def Strm.dueFill (x : Strm) : Option Fill :=
  match x.fills with
  | [] => none
  | f :: _ =>
    let before : Bool := match x.failF with | some n => decide (f.f < n) | none => true
    if f.len ≠ 0 ∧ f.got = f.len ∧ ((streamD x.desc).dir = 1 ∨ before) then some f else none

/-- R308, R315, R443: a completed fill is pushed to each member with room; a ring-feed fill counts. -/
def State.pushFill (s : State) (c : Cl) (slot : Nat) (x : Strm) (f : Fill) : State :=
  let d := streamD x.desc
  let mine := f.handles.filter (fun h => !(f.pushed.contains h.1) && (s.clN h.1).room d.pushQ)
  let s := mine.foldl (fun s h => match toCl h.1 with
    | some m => s.pushQ m d.pushQ ⟨BitVec.ofNat 32 (h.2.1.handle + 256 * (f.f % 2 ^ 24)),
        if d.dir = 0 then some (c.val, x.num) else none⟩
    | none => s) s
  let f' := { f with pushed := f.pushed ++ mine.map (·.1) }
  let s := if d.feed && decide (f'.pushed.length = f.handles.length) then
      let r := LK_RV_FEED + 8 * bits d.addr 3 0
      (s.dinc LK_RV_CNT_FILL 1).dwf r 47 16 (bits (s.dr r) 47 16 + 1)
    else s
  s.strm c slot (fun y =>
    if f'.pushed.length = f.handles.length then
      let n := match y.doneR.head? with | some r => r.2 | none => y.base
      { y with fills := y.fills.tail, pushedF := y.pushedF + 1,
               doneR := if d.feed then [(y.base, n + f.len)] else y.doneR }
    else { y with fills := f' :: y.fills.tail })

/-- The oldest fill of the stream in a slot is pushed. -/
def execStreamFillPush (c : Cl) (slot : Fin 8) (s : State) : Res :=
  match (s.cl c).strm slot.val with
  | none => waits s
  | some x =>
    match x.dueFill with
    | none => waits s
    | some f =>
      if f.handles.any (fun h => !(f.pushed.contains h.1) && (s.clN h.1).room (streamD x.desc).pushQ)
      then .next (s.pushFill c slot.val x f) else waits s

/-! ### Transfers (R317 to R322, R334, R773) -/

/-- R317: the bytes of the next piece at place pos, address a. -/
def StreamD.piece (d : StreamD) (pos a : Nat) : Nat :=
  let n := min (d.run - pos % d.run) (min 16384 (2097152 - a % 2097152))
  if d.loc = 0 then min n (d.fillB - pos % d.fillB) else n

/-- R321: the stream reads its indices up to run k + 64, stopping at a poisoned word. -/
def Cluster.readIdx (k : Cluster) (d : StreamD) (x : Strm) (run : Nat) : Strm :=
  let from_ := x.base / d.run + x.idx.length
  let at_ := fun (i : Nat) => x.ibuf.base + d.ioff + 4 * i
  let new := (upFrom from_ (min d.n1 (run + 64) - from_)).takeWhile (fun i => (k.spBad (at_ i) 4).isEmpty)
  { x with idx := x.idx ++ new.map (fun i => leNat (k.spRead (at_ i) 4)) }

/-- What becomes of a stream's next transfer. -/
inductive NextXfer
  | stop (i : StopInfo)
  | halt (page : Nat)
  | go (addr phys len : Nat)
  deriving DecidableEq, Repr

/-- R322, R334, R495, R773: the next transfer of a stream. -/
def State.nextXfer (s : State) (c : Cl) (d : StreamD) (x : Strm) : NextXfer :=
  let owner := (s.cl c).owner
  let run := x.issued / d.run
  let index := x.idx[run - x.base / d.run]?
  if d.idx && index.isNone then .stop { state := 3, status := FAULT }
  else
    let i := index.getD 0
    if d.idx && decide (d.ilim ≤ i) then .stop { state := 3, status := EXTENT, indexPos := run, indexVal := i }
    else
      let a := (d.runAddr run i + x.issued % d.run) % 2 ^ 64
      let n := d.piece x.issued a
      if s.inSpace owner a n = false then .stop { state := 3, status := EXTENT, faddr := a }
      else if gKind a = 1 then
        match s.translate owner (gOff a) with
        | .outside => .stop { state := 3, status := EXTENT, faddr := a }
        | .absent p => .halt p
        | .at_ phys ro => if ro && d.dir == 1 then .stop { state := 3, status := DENIED, faddr := a } else .go a phys n
      else .go a a n

/-- The places of the bytes of [a, a + n) that lie in poisoned words. -/
def badPlaces (ws : List Nat) (a n : Nat) : List Nat := (upFrom 0 n).filter (fun j => ws.contains ((a + j) / 8))

/-- R308 to R311: what a store stream reads for a piece: bytes, places of poisoned bytes, and the scratchpad words met
poisoned. -/
def Cluster.storeBytes (k : Cluster) (d : StreamD) (x : Strm) (pos n : Nat) : List Byte × List Nat × List Nat :=
  let sp := fun (a : Nat) => (k.spRead a n, badPlaces (k.spBad a n) a n, k.spBad a n)
  match d.loc with
  | 0 => match x.fills.find? (fun f => f.f == pos / d.fillB) with
    | some f => (match f.handles with | h :: _ => sp (h.2.2.base + pos % d.fillB) | [] => ([], [], []))
    | none => ([], [], [])
  | 1 => sp (x.hbuf.base + pos)
  | _ =>
    let t := k.tile d.handle
    let rb := d.rowB t
    let at_ := fun (j : Nat) => rowOffset t.shape t.fmt t.pair (d.first + (pos + j) / rb) ((pos + j) % rb)
    ((upFrom 0 n).map (fun j => k.tileByte d.handle (at_ j)), (upFrom 0 n).filter (fun j => k.tileBadAt d.handle (at_ j)), [])

/-- The lowest store-transfer slot in no use (R454). -/
def Cluster.freeXslot (k : Cluster) : Nat :=
  ((List.range 8).find? (fun n => !(k.st.xfers.any (fun y => decide (4 ≤ y.slot) && y.xslot == n)))).getD 0

/-- The distinct 8-byte words among places. -/
def wordsOf (ps : List Nat) : List Nat := ps.foldl (fun m j => nsIns m (j / 8)) []

/-- The 64-bit words of a byte string. -/
def wordList (bs : List Byte) : List Word := (cut 8 bs).map (fun w => word (leNat w))

/-- R280, R313: a store transfer to a scratchpad window sets out: an arrival on this chip, frames to another. -/
def State.sendStore (s : State) (c : Cl) (y : Xfer) : State :=
  if gChip y.addr = s.chip then
    s.sendArrival (bits y.addr 24 19) { chip := s.chip, off := y.addr % 524288, words := wordList y.data, bad := wordsOf y.bad,
                                        from_ := .stream c.val y.xslot y.num }
  else s.sendWrite (gChip y.addr) ((s.sliceOf (s.cl c).owner).getD 0) y.addr c.val y.xslot y.data

/-- R317, R318: a transfer is issued. A store reads its bytes now; one to another chip starts its answer timer (R342). -/
def State.issueXfer (s : State) (c : Cl) (slot : Nat) (d : StreamD) (x : Strm) (a phys n : Nat) : State :=
  let k := s.cl c
  let r := if d.dir = 1 then k.storeBytes d x x.issued n else ([], [], [])
  let remote := gKind a == 2 && gChip a != s.chip
  let y : Xfer := { slot := slot, num := x.num, pos := x.issued, len := n, addr := a, phys := phys, data := r.1, bad := r.2.1
                    xslot := if d.dir = 1 then k.freeXslot else 0, sent := if remote then some s.timebase else none }
  let x' := { x with issued := x.issued + n
                     fills := if d.dir = 1 then x.fills.map (fun f => if f.f = x.issued / d.fillB then { f with got := f.got + n } else f)
                              else x.fills
                     poison := x.poison + (wordsOf r.2.1).length }
  let s := (s.mod c (fun k => { k.modStrm slot (fun _ => x') with st := { (k.modStrm slot (fun _ => x')).st with xfers := k.st.xfers ++ [y] } })).cinc
    c ST_CNT_XFER 1
  let s := (s.progressed c).cinc c ST_CNT_POISON (wordsOf r.2.1).length
  let s := s.spEncounters c 0 r.2.2
  let s := if d.dir = 1 ∧ d.loc = 2 then s.tileUe c d.handle (wordsOf r.2.1).length else s
  if d.dir = 1 ∧ gKind a = 2 then s.sendStore c y else s

/-- R334: the stream in a slot halts on a page: its state block is written, the page requested. -/
def State.haltStrm (s : State) (c : Cl) (slot : Nat) (x : Strm) (page : Nat) : State :=
  let owner := (s.cl c).owner
  let s := (s.strm c slot (fun _ => { x with halted := some page })).putBlock c x
    { state := 2, status := OK, faddr := 2 ^ 60 + s.chip * 2 ^ 48 + page * 2097152 }
  let s := s.cinc c ST_CNT_HALT 1
  { s with mem := { s.mem with pageReqs := if s.mem.pageReqs.contains (owner, page) then s.mem.pageReqs
                                           else s.mem.pageReqs ++ [(owner, page)] } }

/-- R42, R498, R507: whether an INJECT stream may not read on yet: after an interval's arrival, while its shard's check is
due, and, at the head of pass AT of a replacement, before the release. -/
def State.injectHeld (s : State) (c : Cl) (d : StreamD) : Bool :=
  let x := (s.cl c).owner
  let ahead := s.rv.injEnd || s.rv.injDone
  s.role ≥ 2 && ((s.rv.arrived && decide (64 < s.ringN))
    || (match s.shardAt x (gOff (d.runAddr 0 0) / 2097152) with
        | some h => h.wait && decide (h.injPass ≠ some s.rv.pass)
        | none => false)
    || s.wt.shards.any (fun h => h.state == .staged && ((ahead && h.at_ == s.rv.pass + 1) || h.at_ == s.rv.pass)))

/-- R318, R319: the stream in a slot is given a transfer slot for its next transfer. -/
def execStreamTransferIssue (c : Cl) (slot : Fin 8) (s : State) : Res :=
  match (s.cl c).strm slot.val with
  | none => waits s
  | some x =>
    let d := streamD x.desc
    if x.stop.isSome || x.halted.isSome || d.feed || decide (d.total ≤ x.issued) || decide (8 ≤ (s.cl c).outstanding slot.val)
        || (d.loc == 0 && decide (x.begun * d.fillB ≤ x.issued)) || (d.inject && s.injectHeld c d) then waits s
    else
      let x := if d.idx then (s.cl c).readIdx d x (x.issued / d.run) else x
      match s.nextXfer c d x with
      | .stop i => .next (s.strm c slot.val (fun _ => x.stopAt x.issued i))
      | .halt p => .next (s.haltStrm c slot.val x p)
      | .go a phys n => .next (s.issueXfer c slot.val d x a phys n)

/-- R334: the page on which the stream in a slot halted is resident: it runs on. -/
def execStreamPageResume (c : Cl) (slot : Fin 8) (s : State) : Res :=
  match (s.cl c).strm slot.val with
  | none => waits s
  | some x =>
    match x.halted with
    | none => waits s
    | some p =>
      match s.translate (s.cl c).owner (p * 2097152) with
      | .at_ _ _ =>
        .next ((s.strm c slot.val (fun y => { y with halted := none })).putBlock c x { state := 1, status := OK })
      | .absent _ => waits s
      | .outside =>
        let i : StopInfo := { state := 3, status := EXTENT, faddr := 2 ^ 60 + s.chip * 2 ^ 48 + p * 2097152 }
        .next (s.strm c slot.val (fun y => y.stopAt y.issued i))

/-! ### Completion of transfers (R311, R312, R318, R328, R340, R341) -/

/-- R312: a line is wanted in the cluster cache: a hit, or a miss that fills it. -/
def State.ccWant (s : State) (c : Cl) (line cls hint : Nat) : State :=
  if ((s.cl c).ccLine line).isSome then s.ccHit c line hint
  else (s.cinc c CL_CC_CNT_MISS 1).ccFill c line cls hint false

/-- A byte as the cluster cache gives it, or its home, and whether its word is poisoned. -/
def State.ccByte (s : State) (c : Cl) (a phys : Nat) : Byte × Bool :=
  match (s.cl c).ccLine (a / 64) with
  | some l => (l.data.getD (a % 64) 0, bit l.bad (a % 64 / 8))
  | none => (amGet 0 s.mem.hbm phys, !(s.hbmBad phys 1).isEmpty)

/-- R312, R340, R603: what a fetch transfer brings: the state after any cache fills, the bytes, and the places of poisoned
ones. -/
def State.fetchBytes (s : State) (c : Cl) (d : StreamD) (y : Xfer) (hostData : List Byte) (fault : XferFault) :
    State × List Byte × List Nat :=
  if gKind y.addr ≠ 1 then (s, sliceB hostData 0 y.len, if fault = .hostError then upFrom 0 y.len else [])
  else if d.cc then
    let s := (upFrom (y.addr / 64) ((y.addr + y.len - 1) / 64 + 1 - y.addr / 64)).foldl (fun s l => s.ccWant c l d.cls d.hint) s
    let r := (upFrom 0 y.len).map (fun j => s.ccByte c (y.addr + j) (y.phys + j))
    (s, r.map (·.1), (upFrom 0 y.len).filter (fun j => (s.ccByte c (y.addr + j) (y.phys + j)).2))
  else (s, s.hbmRead y.phys y.len, badPlaces (s.hbmBad y.phys y.len) y.phys y.len)

/-- R310: bytes of a TILE or TILESC stream reach their register; rows wholly there become valid. -/
def Cluster.fetchTile (k : Cluster) (d : StreamD) (x : Strm) (pos : Nat) (bs : List Byte) (bad : List Nat) : Cluster :=
  let t := k.tile d.handle
  let rb := d.rowB t
  let at_ := fun (j : Nat) =>
    if d.loc = 2 then rowOffset t.shape t.fmt t.pair (d.first + (pos + j) / rb) ((pos + j) % rb) else rb * d.first + pos + j
  let put := fun (k : Cluster) (p : Nat × Byte) =>
    if d.loc = 2 then k.putTileByte d.handle (at_ p.1) p.2
    else k.setTile d.handle { k.tile d.handle with scale := amSet 0 (k.tile d.handle).scale (at_ p.1) p.2 }
  let k := ((List.range bs.length).zip bs).foldl put k
  let hit := (List.range bs.length).foldl (fun m j => nsIns m (at_ j / 8)) []
  let now := bad.foldl (fun m j => nsIns m (at_ j / 8)) []
  let upd := fun (ws : List Nat) (base : Nat) =>
    (now.filter (fun w => decide (base ≤ w) && decide (w < base + 4096))).foldl (fun m w => nsIns m (w - base))
      (ws.filter (fun w => !(hit.contains (w + base))))
  let k := if d.loc = 2 then
      let k := k.setTile d.handle { k.tile d.handle with badData := upd (k.tile d.handle).badData 0 }
      if t.pair then k.setTile (d.handle + 1) { k.tile (d.handle + 1) with badData := upd (k.tile (d.handle + 1)).badData 4096 }
      else k
    else k.setTile d.handle { k.tile d.handle with badScale := upd (k.tile d.handle).badScale 0 }
  let whole := (upFrom (pos / rb) ((pos + bs.length - 1) / rb + 1 - pos / rb)).filter (fun r =>
    decide ((r + 1) * rb ≤ contig (x.doneR.length + 1) x.doneR (r * rb)))
  whole.foldl (fun k r => k.setTile d.handle ((k.tile d.handle).mark (d.loc == 2) (d.first + r))) k

/-- R308, R309, R323: the bytes of a fetch transfer are written into the cluster, or into every member. -/
def State.writeFetch (s : State) (c : Cl) (d : StreamD) (x : Strm) (y : Xfer) (bs : List Byte) (bad : List Nat) : State :=
  let n := bs.length / 8
  let put := fun (k : Cluster) (a : Nat) => (k.spWrite a bs).spPoison (bad.map (fun j => (a + j) / 8))
  match d.loc with
  | 0 => match x.fills.find? (fun f => f.f == y.pos / d.fillB) with
    | some f => f.handles.foldl (fun s h => match toCl h.1 with
        | some m => (s.mod m (fun k => put k (h.2.2.base + y.pos % d.fillB))).cinc m ST_CNT_FBYTES n
        | none => s) s
    | none => s
  | 1 => (s.mod c (fun k => put k (x.hbuf.base + y.pos))).cinc c ST_CNT_FBYTES n
  | _ => (s.mod c (fun k => k.fetchTile d x y.pos bs bad)).cinc c ST_CNT_FBYTES n

/-- The stream after bytes [pos, pos + n) have been delivered, bad words of them poisoned. -/
def Strm.took (x : Strm) (d : StreamD) (pos n bad : Nat) : Strm :=
  { x with doneR := x.doneR ++ [(pos, pos + n)], poison := x.poison + bad
           fills := if d.loc = 0 ∧ d.dir = 0 then
               x.fills.map (fun f => if f.f = pos / d.fillB then { f with got := f.got + n } else f) else x.fills }

/-- R328, R487: the bytes of an INJECT stream go to the link interfaces too; a shard whose last byte has been read is
stamped for its next pass. -/
def State.handInject (s : State) (c : Cl) (y : Xfer) (bs : List Byte) : State :=
  let s :=
    if s.rv.injBad then s
    else if s.rv.injEnd || s.rv.injDone then { s with rv := { s.rv with injNext := s.rv.injNext ++ bs } }
    else { s with rv := { s.rv with inj := s.rv.inj ++ bs } }
  let x := (s.cl c).owner
  let off := gOff y.addr
  match s.shardAt x (off / 2097152) with
  | none => s
  | some h =>
    let end_ := h.page0 * 2097152 + h.len
    if off < end_ ∧ end_ ≤ off + y.len then
      (s.modShard h (fun y => { y with injPass := some s.rv.pass })).stampNext h (s.rv.pass + 1)
    else s

/-- A fetch transfer's last byte is written. -/
def State.endFetch (s : State) (c : Cl) (slot : Nat) (d : StreamD) (y : Xfer) (hostData : List Byte) (fault : XferFault) : State :=
  let r := s.fetchBytes c d y hostData fault
  let s := r.1
  let bs := r.2.2 ++ y.bad.filter (fun j => !(r.2.2.contains j))
  let bad := (wordsOf bs).length
  let s := (s.strm c slot (fun x => x.took d y.pos y.len bad)).cinc c ST_CNT_POISON bad
  let s := match (s.cl c).strm slot with
    | some x => s.writeFetch c d x y r.2.1 bs
    | none => s
  if d.inject then s.handInject c y r.2.1 else s

/-- R318, R341: a store transfer is performed at its home, or its answer is taken. -/
def State.endStore (s : State) (c : Cl) (slot : Nat) (d : StreamD) (y : Xfer) : State :=
  if y.rejected then s.strm c slot (fun x => x.stopAt y.pos { state := 3, status := DENIED, faddr := y.phys, member := bits y.addr 24 19 })
  else
    let s := (s.strm c slot (fun x => x.took d y.pos y.len 0)).cinc c ST_CNT_SBYTES (y.len / 8)
    match gKind y.addr with
    | 1 =>
      let s := (s.ccYield c y.addr y.len).hbmWrite y.phys y.data
      (wordsOf (y.bad.map (· + y.phys))).foldl (fun s w => s.hbmPoison w) s
    | 3 => s.hostWrite (s.cl c).owner (gOff y.addr) y.data
    | _ => s

/-- Whether an outstanding transfer can complete: an answer to one into a window is back (R282, R454), and the function may
send requests for one of host memory (R605). -/
def State.canEnd (s : State) (c : Cl) (y : Xfer) : Bool :=
  match gKind y.addr with
  | 2 => y.ready
  | 3 => s.mayMaster (s.cl c).owner
  | _ => true

/-- R318: the oldest transfer of the stream in a slot that can complete does so. hostData is what host memory returns. -/
def execStreamTransferComplete (c : Cl) (slot : Fin 8) (hostData : List Byte) (fault : XferFault) (s : State) : Res :=
  match (s.cl c).strm slot.val, (s.cl c).st.xfers.find? (fun y => y.slot == slot.val && s.canEnd c y) with
  | some x, some y =>
    let d := streamD x.desc
    let s := (s.progressed c).mod c (fun k => { k with st := { k.st with xfers := dropFirst (fun z => z == y) k.st.xfers } })
    .next (if d.dir = 0 then s.endFetch c slot.val d y hostData fault else s.endStore c slot.val d y)
  | _, _ => waits s

/-- R342: the answer of a store transfer to another chip is overdue: the stream stops with TIMEOUT. -/
def execStoreTransferTimeout (c : Cl) (xslot : Fin 8) (s : State) : Res :=
  match (s.cl c).st.xfers.find? (fun y => decide (4 ≤ y.slot) && y.xslot == xslot.val && !y.ready) with
  | none => waits s
  | some y =>
    let due := match y.sent with | some t => decide (t + 1000 * bits (s.cr c ST_CTRL) 31 16 ≤ s.timebase) | none => false
    if due then
      let s := s.mod c (fun k => { k with st := { k.st with xfers := dropFirst (fun z => z == y) k.st.xfers } })
      .next ((s.strm c y.slot (fun x => x.stopAt y.pos { state := 3, status := TIMEOUT, faddr := y.addr })).cinc c ST_CNT_XTMO 1)
    else waits s

/-! ### The end of a stream (R332, R336, R772) -/

/-- Whether a stream has nothing left to do but end. -/
def Cluster.strmOver (k : Cluster) (slot : Nat) (x : Strm) : Bool :=
  let d := streamD x.desc
  let out := k.st.xfers.any (fun y => y.slot == slot)
  match x.stop with
  | some i => !out && (i.state == 5 || x.dueFill.isNone)
  | none => !out && x.halted.isNone && decide (d.total ≤ x.issued) && x.fills.isEmpty

/-- R772: the handles to return: of every fill a fetch stream has begun and does not push, in the members not yet pushed to. -/
def Strm.returns (x : Strm) : List (Nat × HEntry) :=
  if (streamD x.desc).dir = 0 then
    x.fills.flatMap (fun f => (f.handles.filter (fun h => !(f.pushed.contains h.1))).map (fun h => (h.1, h.2.1)))
  else []

/-- Whether every handle to return finds room on its queue. -/
def State.roomBack (s : State) (x : Strm) : Bool :=
  let eq := (streamD x.desc).eq
  x.returns.all (fun r => decide (((s.clN r.1).queue eq).length + (x.returns.filter (fun y => y.1 == r.1)).length ≤ 16))

/-- R328, R422, R429: an INJECT stream ends: its slice is whole if it completed. -/
def State.injectEnd (s : State) (whole : Bool) : State :=
  if s.rv.injBad then { s with rv := { s.rv with injBad := false, injDone := true, inj := [] } }
  else if whole = false then s
  else if s.rv.injEnd || s.rv.injDone then { s with rv := { s.rv with injNextEnd := true } }
  else { s with rv := { s.rv with injEnd := true } }

/-- The stream in a slot ends: handles back, state block, slot, signal. -/
def State.endStream (s : State) (c : Cl) (slot : Nat) (x : Strm) : State :=
  let d := streamD x.desc
  let s := x.returns.foldl (fun s r => match toCl r.1 with | some m => s.pushQ m d.eq r.2 | none => s) s
  let i := x.stop.getD { state := 4, status := if x.poison = 0 then OK else FAULT }
  let s := (s.progressed c).putBlock c x i
  let s := s.mod c (fun k =>
    let note := if x.stop.isSome then
        [(⟨slot, x.num, i.state, i.status, k.spRead (d.sb * 64 + 64) 32⟩ : EndedStrm)] else []
    { k with st := { k.st with slots := amDel k.st.slots slot, last := x.num }, ended := k.ended ++ note })
  let s := if d.inject then s.injectEnd x.stop.isNone else s
  if d.sigen then s.engInc c d.ctr else s

/-- The stream in a slot ends. -/
def execStreamEnd (c : Cl) (slot : Fin 8) (s : State) : Res :=
  match (s.cl c).strm slot.val with
  | none => waits s
  | some x => whenever s ((s.cl c).strmOver slot.val x && s.roomBack x) (s.endStream c slot.val x)

/-! ### The stall alarm (R325) -/

/-- R325: a multicast stream has waited on one member for STALLT × 1,024 steps. -/
def execStreamStallAlarm (c : Cl) (slot : Fin 8) (s : State) : Res :=
  match (s.cl c).strm slot.val with
  | none => waits s
  | some x =>
    let t := bits (s.cr c ST_CTRL) 15 0
    if t ≠ 0 ∧ x.alarmed = false ∧ t * 1024 ≤ x.wait then
      let s := (s.strm c slot.val (fun y => { y with alarmed := true })).ccap c ST_STALL 22 (x.num + place 21 16 x.waitOn)
      let s := s.cinc c ST_CNT_STALL 1
      .next (s.logErr { source := 8, cls := INFO, cause := 1, unit := c.val, ctx := some (s.cl c).owner, info := word (s.cr c ST_STALL) })
    else waits s

/-- R325: one step of waiting of the stream in a slot: the member it waits on, and the lag of a member that alone holds it
up. -/
def State.strmStep (s : State) (c : Cl) (slot : Nat) : State :=
  match (s.cl c).strm slot with
  | none => s
  | some x =>
    let ms := if (streamD x.desc).mcast then s.lagging c slot x else []
    let s := match ms with
      | [m] => (match toCl m with | some m => s.cinc m ST_CNT_LAG 1 | none => s)
      | _ => s
    s.strm c slot (fun y =>
      match ms with
      | [] => { y with wait := 0, alarmed := false }
      | m :: _ => if ms.contains y.waitOn && y.wait != 0 then { y with wait := y.wait + 1 }
                  else { y with wait := 1, waitOn := m, alarmed := false })

/-- R345: whether a stream of an engine has a transfer ready while 8 are outstanding. -/
def Cluster.xwait (k : Cluster) (dir : Nat) : Bool :=
  decide (8 ≤ k.outstanding (4 * dir)) && (upFrom (4 * dir) 4).any (fun n => match k.strm n with
    | some x =>
      let d := streamD x.desc
      x.stop.isNone && x.halted.isNone && !d.feed && decide (x.issued < d.total)
        && (d.loc != 0 || decide (x.issued < x.begun * d.fillB))
    | none => false)

end Sys2Proof.Machine
end

