-- ==== Sys2Proof/Machine/CoreOps.lean ====
section
/-! DEFINITION. Sys2Proof/Machine/CoreOps.lean: the control core as a whole: its state, fetching, retiring, the start and
the end of a kernel, halting (R213 to R222, R246 to R253, R738 to R741). -/

namespace Sys2Proof.Machine

/-! ### The state of the core (R256, R738) -/

/-- RUN and HALT. -/
def Cluster.run (k : Cluster) : Bool := bit (k.r CL_CORE_CTRL) 0
def Cluster.haltBit (k : Cluster) : Bool := bit (k.r CL_CORE_CTRL) 1

/-- Whether no kernel runs, or RUN has been cleared and the instruction then in progress is done. -/
def Cluster.coreStopped (k : Cluster) : Bool := k.core.mode == .stopped || (!k.run && k.core.stall == .none)

/-- R738: halted, between instructions. -/
def Cluster.coreHalted (k : Cluster) : Bool := !k.coreStopped && k.haltBit && !k.core.step && k.core.stall == .none

/-- Whether the core waits in sy.wait, sy.waitinv or a fence. -/
def CoreSt.waiting (k : CoreSt) : Bool :=
  match k.stall with
  | .cue _ => true
  | .fenceEng _ _ => true
  | .fenceKern _ => true
  | .exit _ _ => true
  | _ => false

/-- R256, R739: STATE of CL_CORE_STATUS. -/
def Cluster.coreState (k : Cluster) : Nat :=
  if k.coreStopped then 0 else if k.core.waiting || (k.haltBit && k.core.stall != .none) then 3 else if k.coreHalted then 2 else 1

/-- Whether the core may begin an instruction. -/
def Cluster.coreReady (k : Cluster) : Bool :=
  !k.coreStopped && !k.coreHalted && k.core.stall == .none && !k.wiping

/-- R741: whether an armed breakpoint stands at the pc. -/
def State.atBreak (s : State) (c : Cl) : Bool :=
  let b := s.dr (MG_DBG_BP + 8 * c.val)
  bit b 0 && bits b 63 1 == (s.cl c).core.pc.toNat / 2 && !(s.cl c).core.step

/-! ### Fetch (R219) -/

/-- What fetching a half-word finds. -/
inductive Half
  | ok (h line : Nat) (miss : Bool)
  | fault (a : Nat)
  | page (p a : Nat)
  deriving DecidableEq, Repr

/-- R219, R489: fetch two bytes at an even address, from the instruction cache or the home. -/
def State.fetchHalf (s : State) (c : Cl) (a : Nat) : Half :=
  let k := s.cl c
  if gKind a ≠ 1 ∨ s.inSpace k.owner a 2 = false then .fault a
  else
    match k.core.icache.find? (fun l => l.1 == a / 64) with
    | some l => .ok (fieldB l.2 (a % 64) 2) (a / 64) false
    | none =>
      match s.translate k.owner (gOff a) with
      | .at_ p _ => if (s.hbmBad p 2).isEmpty then .ok (leNat (s.hbmRead p 2)) (a / 64) true else .fault a
      | .absent p => .page p a
      | .outside => .fault a

/-- What fetching an instruction finds: its word and length, the lines missed; or what stops it. -/
inductive Fetch
  | ok (w len : Nat) (miss : List Nat)
  | fault (a : Nat)
  | page (p a : Nat)
  deriving DecidableEq, Repr

/-- Fetch the instruction at the pc. -/
def State.fetch (s : State) (c : Cl) : Fetch :=
  let pc := (s.cl c).core.pc.toNat
  match s.fetchHalf c pc with
  | .fault a => .fault a
  | .page p a => .page p a
  | .ok h l m =>
    let ms := if m then [l] else []
    if h % 4 ≠ 3 then .ok h 2 ms
    else
      match s.fetchHalf c ((pc + 2) % 2 ^ 64) with
      | .fault a => .fault a
      | .page p a => .page p a
      | .ok h2 l2 m2 => .ok (h + 65536 * h2) 4 (if m2 && l2 != l then ms ++ [l2] else ms)

/-- R219: missed lines enter the instruction cache of 512 lines (assumption 30: the oldest leaves). -/
def State.fillI (s : State) (c : Cl) (ms : List Nat) : State :=
  ms.foldl (fun s l =>
    match s.translate (s.cl c).owner (gOff (l * 64)) with
    | .at_ p _ =>
      let bs := s.hbmRead p 64
      (s.cinc c CL_CORE_CNT_ICMISS 1).core c (fun k =>
        { k with icache := (if k.icache.length < 512 then k.icache else k.icache.tail) ++ [(l, bs)] })
    | _ => s) s

/-- The base word of a fetched instruction. -/
def baseWord (w len : Nat) : Option Nat := if len = 2 then rvcExpand w else if bits w 4 2 = 7 then none else some w

/-- R230: whether a register that the word names still awaits an engine's write. -/
def CoreSt.awaits (k : CoreSt) (w : Nat) : Bool := (wordRegs w).any (fun r => k.awaiting.contains r)

/-! ### Retiring -/

/-- An instruction retires: the pc moves on, and a single step is used up (R739). -/
def State.retire (s : State) (c : Cl) (pc : Word) : State :=
  ((s.core c (fun k => { k with pc := pc, instret := k.instret + 1, step := false })).cinc c CL_CORE_CNT_INSTR 1).progressed c

/-- The pc after an instruction of len bytes. -/
def State.nextPc (s : State) (c : Cl) (len : Nat) : Word := (s.cl c).core.pc + word len

/-! ### The end of a kernel (R244, R246, R250, R251) -/

/-- R579: the end of a cluster's kernel is noted by its launch. -/
def State.noteEnd (s : State) (c : Cl) (e : KEnd) : State :=
  match (s.cl c).launch with
  | none => s
  | some (x, seq) =>
    s.modCx x (fun y => { y with cmds := y.cmds.map (fun k =>
      if k.seq = seq ∧ k.op = 0x0401 ∧ !(k.ends.any (fun d => d.clus == c.val)) then { k with ends := k.ends ++ [e] } else k) })

/-- The core stops. -/
def State.stopCore (s : State) (c : Cl) : State :=
  (s.mod c (fun k => k.wf CL_CORE_CTRL 0 0 0)).core c (fun k =>
    { k with mode := .stopped, stall := .none, awaiting := [], inHand := false, step := false, user := false, resv := none })

/-- R251: queued engine instructions not yet accepted are discarded. -/
def Cluster.clearQueues (k : Cluster) : Cluster := { k with uq := k.uq.map (fun u => { u with q := [] }) }

/-- R251, R336: a kernel ends by fault or exception. -/
def State.endKernel (s : State) (c : Cl) (status : Nat) : State :=
  let k := (s.cl c).core
  let s := s.noteEnd c { clus := c.val, exited := false, status := status }
  let s := (s.stopCore c).mod c (fun k => k.clearQueues.cancelAll)
  s.core c (fun j => { j with endRep := some ⟨status, k.mcause, k.mepc, k.mtval⟩ })

/-- R214: what a trap to machine mode does to the core's registers; a trap ends a reservation (R265). -/
def CoreSt.trap (k : CoreSt) (cause tval : Word) : CoreSt :=
  let m := k.mstatus.toNat
  { k with mcause := cause, mepc := k.pc, mtval := tval, resv := none, user := false
           mstatus := word (setBits (setBits (setBits m 7 7 (bits m 3 3)) 3 3 0) 12 11 (if k.user then 0 else 3)) }

/-- R214: the return from machine mode to the program. -/
def CoreSt.mret (k : CoreSt) : CoreSt :=
  let m := k.mstatus.toNat
  { k with user := true, mstatus := word (setBits (setBits (setBits m 3 3 (bits m 7 7)) 7 7 1) 12 11 0) }

/-- R246: an exception ends the kernel with FAULT. -/
def State.exception (s : State) (c : Cl) (cause : Nat) (tval : Word) : State :=
  (s.core c (fun k => k.trap (word cause) tval)).endKernel c FAULT

/-- Exception codes of the privileged architecture. -/
def xcFetch : Nat := 1
def xcIllegal : Nat := 2
def xcBreak : Nat := 3
def xcLoadMis : Nat := 4
def xcLoad : Nat := 5
def xcStoreMis : Nat := 6
def xcStore : Nat := 7

/-- R489: the core stalls on a page, which is asked of the firmware. -/
def State.wantPage (s : State) (x p : Nat) : State :=
  { s with mem := { s.mem with pageReqs := if s.mem.pageReqs.contains (x, p) then s.mem.pageReqs else s.mem.pageReqs ++ [(x, p)] } }

def State.stallPage (s : State) (c : Cl) (p cause : Nat) (a : Word) : State :=
  (s.wantPage (s.cl c).owner p).core c (fun k => { k with stall := .page p cause a })

/-! ### The start of a kernel (R247, R248, R276, R286) -/

/-- R247: the launch of the program that CL_CORE_ENTRY, ARG, LAUNCH and STACK describe. -/
def Cluster.entry (k : Cluster) : Cluster :=
  let l := k.r CL_CORE_LAUNCH
  let x := (((Vector.replicate 32 (0 : Word)).set 2 (word (k.r CL_CORE_STACK))).set 10 (word (bits l 15 0))).set 11
    (word (k.r CL_CORE_ARG))
  let x := x.set 12 (word (bits l 31 16))
  let core := { k.core with
    x := x, pc := word (k.r CL_CORE_ENTRY / 2 * 2), mode := .running, exited := false, awaiting := [], stall := .none
    resv := none, handler := 0, fwd := 0, inHand := false, handPend := 0, irqs := [], icache := [], pred := {}, endRep := none
    step := false }
  let k := { k with
    core := core.mret, uq := Vector.replicate 5 {}, hq := Vector.replicate 8 [], resq := [], wait := none, ended := [] }
  let clr := fun (k : Cluster) (o : Nat) => k.w o (clReset o)
  let k := [CL_Q_ROUTE, CL_Q_SIG, CL_Q_ERR, CL_FLT_INFO, CL_FLT_INSN, CL_FLT_RS1, CL_FLT_RS2].foldl clr k
  k.launchProps.wf CL_CORE_CTRL 0 0 1

/-- R247: RUN is set: the cluster cache is written back and invalidated, the wait of an earlier kernel dropped, and the
program entered. -/
def State.launchCore (s : State) (c : Cl) : State :=
  let s := s.ccInv c (fun _ => true)
  let mine := fun (d : CueDest) => d == .wait c.val
  let sy := { s.sy with watches := s.sy.watches.filter (fun w => !(mine w.dest)), cues := s.sy.cues.filter (fun q => !(mine q.dest)) }
  let store := fun (u : MissUse) => match u with | .store _ _ _ => true | .load _ _ _ _ _ => false
  let keep := fun (m : Miss) => { m with uses := m.uses.filter store }
  State.progressed ({ s with sy := sy }.mod c (fun k =>
    { k.entry with misses := (k.misses.map keep).filter (fun m => !m.uses.isEmpty) })) c

/-! ### Halting (R734, R738 to R741) -/

/-- R734: a write that needs debug access, made without it: ignored and counted. -/
def State.denied (s : State) : State := s.dinc MG_DBG_CNT_DENIED 1

/-- R738: whether the instruction at the pc is stalled by a full engine queue or a register awaited. -/
def State.blocked (s : State) (c : Cl) : Bool :=
  let k := s.cl c
  match s.fetch c with
  | .ok w len _ =>
    match baseWord w len with
    | some b =>
      let full := fun (u : EngUnit) => decide (16 ≤ (k.unit u).q.length)
      k.core.awaits b || (match engOp b, iOp b with
        | some .fenceEng, _ => false
        | some .fenceKern, _ => false
        | some .cacheInv, _ => false
        | some _, 0x0B => full .tile
        | some _, 0x2B => full .array
        | some .vxChain, _ => full .vector
        | some _, 0x5B => full .stream
        | some _, _ => full .sync
        | none, _ => false)
    | none => false
  | _ => false

/-- R738: HALT is set; an instruction then stalled completes first. -/
def State.setHalt (s : State) (c : Cl) : State :=
  let go := (s.cl c).coreReady && s.blocked c
  (s.mod c (fun k => k.wf CL_CORE_CTRL 1 1 1)).core c (fun k => { k with step := go })

/-- HALT is cleared: the core goes on at its saved pc (R739). -/
def State.clearHalt (s : State) (c : Cl) : State :=
  (s.mod c (fun k => k.wf CL_CORE_CTRL 1 1 0)).core c (fun k => { k with step := false })

/-- R739: STEP of a halted core. -/
def State.stepCore (s : State) (c : Cl) : State :=
  if (s.cl c).coreHalted then s.core c (fun k => { k with step := true }) else s

/-- R741: the core halts at a breakpoint. -/
def State.breakHit (s : State) (c : Cl) : State :=
  (s.mod c (fun k => k.wf CL_CORE_CTRL 1 1 1)).core c (fun k => { k with bpHit := true, step := false })

/-- R744: what a reset or a change of context clears of a cluster's debug state. -/
def State.clearDebug (s : State) (c : Cl) : State :=
  let s := (s.clearHalt c).core c (fun k => { k with bpHit := false })
  (s.dw (MG_DBG_BP + 8 * c.val) 0).dwf MG_DBG_ATTACH c.val c.val 0

/-! ### Fences (R252, R253) -/

/-- Streams queued or active, of a direction, older than a ticket. -/
def Cluster.olderStreams (k : Cluster) (dir tk : Nat) : Bool :=
  (k.unit .stream).q.any (fun q => decide (q.tk < tk) &&
      (let d := (streamD (k.spRead (bits q.rs1.toNat 18 0) 64)).dir; d == dir || decide (2 ≤ d)))
    || k.st.slots.any (fun p => decide (p.2.tk < tk) && p.1 / 4 == dir)

/-- R252: whether a unit of the mask still has work issued before a ticket. -/
def State.busyUnit (s : State) (c : Cl) (tk n : Nat) : Bool :=
  let k := s.cl c
  let queued := fun (u : EngUnit) => (k.unit u).q.any (fun q => decide (q.tk < tk))
  match n with
  | 0 => queued .tile || k.lds.any (fun l => decide (l.tk < tk))
  | 1 => queued .array || k.arr.loads.any (fun l => decide (l.tk < tk)) || k.arr.runs.any (fun r => decide (r.tk < tk))
      || !k.arr.pushes.isEmpty
  | 2 => queued .vector || k.vx.chains.any (fun x => decide (x.tk < tk))
  | 3 => k.olderStreams 0 tk
  | 4 => k.olderStreams 1 tk
  | _ => queued .sync
      || s.sy.changes.any (fun ch => match ch.src with | .core a q => a == c.val && decide (q.tk < tk) | _ => false)
      || s.sy.watches.any (fun w => !w.registered && (match w.dest with
        | .slot a _ => a == c.val | .wait a => a == c.val | .host _ _ => false))

/-- R252: every unit of the mask has ended its earlier work. -/
def State.unitsQuiet (s : State) (c : Cl) (mask tk : Nat) : Bool :=
  (List.range 6).all (fun n => !(bit mask n) || !(s.busyUnit c tk n))

/-- R253, R273, R352, R767: the units are quiet, no fill or copy runs, and every write of the cluster has been performed,
but for the dirty lines, which the fence writes back. -/
def State.kernQuiet (s : State) (c : Cl) (tk : Nat) : Bool :=
  let k := s.cl c
  let mine := fun (a : Arrival) => match a.from_ with | .core d _ => d == c.val | .stream d _ _ => d == c.val | _ => false
  s.unitsQuiet c 63 tk && k.op.isNone && !(k.misses.any (fun m => !m.uses.isEmpty))
    && s.cls.toList.all (fun j => !(j.waitA.any mine) && !(j.admA.any (fun a => mine a.arr)))
    && !(s.pcie.held.any (fun h => h.fn == k.owner && h.vec.isNone))

end Sys2Proof.Machine
end

