-- ==== Sys2Proof/Machine/ClusterRegs.lean ====
section
/-! DEFINITION. Sys2Proof/Machine/ClusterRegs.lean: reads and writes of a cluster's register block, with what each does
(R11 to R14, R134, R171, R211, R218, R256, R299, R344, R401). -/

namespace Sys2Proof.Machine

/-! ### Captures (R11) -/

/-- A write that clears VALID at bit v clears the fields below it. -/
def clearCapture (old new v : Nat) : Nat := if bit old v && !(bit new v) then setBits new (v - 1) 0 0 else new

/-- The captures of a cluster block: offset and place of VALID. -/
def clCaptures : List (Nat × Nat) :=
  [(CL_TILE_LDERR, 15), (CL_ACC_ERR, 18), (CL_SP_ERR, 18), (CL_SP_WINREJ, 32), (CL_SY_ERR, 14), (ST_STALL, 22)]

/-- R11 to R14: a write takes effect under the access codes of its fields; a capture is cleared with its VALID. -/
def Cluster.plainWrite (k : Cluster) (off v : Nat) : Cluster :=
  match fieldsIn clRegRows off with
  | none => k
  | some fs =>
    let old := k.r off
    let new := writeFields fs old v
    k.w off (match clCaptures.find? (fun p => p.1 == off) with | some p => clearCapture old new p.2 | none => new)

/-! ### The core and its queues (R235, R237, R242, R256, R257) -/

/-- BPCLR (R222). -/
def State.clearPred (s : State) (c : Cl) : State := s.core c (fun k => { k with pred := {} })

/-- RATECLR (R257). -/
def State.clearRate (s : State) (c : Cl) : State :=
  s.mod c (fun k => { k.w CL_STEP_RATE (bits (k.r CL_STEP_RATE) 15 0 + 0xFFFF0000) with rateMm := false })

/-- RUN: set, a launch (R247); cleared, the core stops at the next instruction boundary. -/
def State.writeRun (s : State) (c : Cl) (on : Bool) : State :=
  if on then (if (s.cl c).run then s else s.launchCore c)
  else
    let s := s.mod c (fun k => k.wf CL_CORE_CTRL 0 0 0)
    if (s.cl c).core.stall == .none then s.stopCore c else s

/-- HALT (R734, R738, R739). -/
def State.writeHalt (s : State) (c : Cl) (on : Bool) : State :=
  if on = (s.cl c).haltBit then s
  else if s.debugOpen = false then s.denied
  else if on then s.setHalt c else s.clearHalt c

/-- A write of CL_CORE_CTRL. -/
def State.writeCoreCtrl (s : State) (c : Cl) (v : Nat) : State :=
  let s := s.writeHalt c (bit v 1)
  let s := s.writeRun c (bit v 0)
  let s := if bit v 2 then (if s.debugOpen then s.stepCore c else s.denied) else s
  let s := if bit v 3 then s.clearPred c else s
  if bit v 4 then s.clearRate c else s

/-- R235: whether the array, or the vector engine, has no instruction queued or accepted. -/
def Cluster.arrayIdle (k : Cluster) : Bool :=
  (k.unit .array).q.isEmpty && k.arr.loads.isEmpty && k.arr.runs.isEmpty && k.arr.pushes.isEmpty
def Cluster.vectorIdle (k : Cluster) : Bool := (k.unit .vector).q.isEmpty && k.vx.chains.isEmpty

/-- R235: a write of CL_Q_ROUTE. -/
def State.writeRoute (s : State) (c : Cl) (v : Nat) : State :=
  let k := s.cl c
  let changed := fun (p : Nat) => bits v (4 * p + 2) (4 * p) != k.port p
  if ([0, 1].any changed && !k.arrayIdle) || ([2, 3, 4, 5].any changed && !k.vectorIdle) then s.cwf c CL_Q_ERR 8 8 1
  else s.mod c (fun k => k.plainWrite CL_Q_ROUTE v)

/-- R237: a push of the core, the firmware or the debug path onto queue n. -/
def State.writePush (s : State) (c : Cl) (n v : Nat) : State :=
  if (s.cl c).room n then s.pushQ c n ⟨BitVec.ofNat 32 (bits v 5 0 + bits v 31 8 * 256), none⟩
  else s.cwf c CL_Q_ERR n n 1

/-- R237: a read of CL_Q_POPn removes the head entry. -/
def State.readPop (s : State) (c : Cl) (n : Nat) : Word × State :=
  match (s.cl c).queue n with
  | [] => (0, s)
  | e :: _ => (word (e.word.toNat + 2 ^ 32), s.popQ c n)

/-- R234: a read of CL_Q_RESPOP removes the head result. -/
def State.readResPop (s : State) (c : Cl) : Word × State :=
  match (s.cl c).resq with
  | [] => (0, s)
  | w :: t => (word (w.toNat + 2 ^ 32), s.mod c (fun k => { k with resq := t }))

/-- R242: a write of CL_FLT_INFO: a PEND bit cleared lets the unit accept again; VALID cleared clears the capture. -/
def State.writeFlt (s : State) (c : Cl) (v : Nat) : State :=
  s.mod c (fun k =>
    let old := k.r CL_FLT_INFO
    let k := k.plainWrite CL_FLT_INFO v
    if bit old 3 && bit v 3 then
      (((k.w CL_FLT_INFO (place 8 4 (bits (k.r CL_FLT_INFO) 8 4))).w CL_FLT_INSN 0).w CL_FLT_RS1 0).w CL_FLT_RS2 0
    else k)

/-! ### Hand settings of local counters (R399) -/

/-- R399: local counter n takes a value. -/
def State.handLocal (s : State) (c : Cl) (n v : Nat) : State :=
  ((s.mod c (fun k => { k with lctr := amSet 0 k.lctr n v })).evalLocal c n false none).dinc SY_CNT_HANDSET 1

/-- R399: a write of CL_SY_SETV: none from the core, and only under debug access. -/
def State.writeSetv (s : State) (who : Writer) (c : Cl) (v : Nat) : State :=
  match who with
  | .core _ => s
  | _ =>
    if bit v 48 = false then s
    else if s.debugOpen = false then s.denied
    else s.handLocal c (bits (s.cr c CL_SY_SEL) 5 0) (bits v 47 0)

/-- CL_SY_SETV is written. -/
def execClSySetvWrite (who : Writer) (c : Cl) (val : Word) (s : State) : Res := .next (s.writeSetv who c val.toNat)

/-! ### Status registers that show live state -/

/-- R256: whether every engine queue is empty and no operation is accepted. -/
def Cluster.idle (k : Cluster) : Bool :=
  k.uq.toList.all (fun u => u.q.isEmpty) && k.lds.isEmpty && k.arrayIdle && k.vectorIdle && k.st.slots.isEmpty

/-- CL_CORE_STATUS. -/
def Cluster.coreStatus (k : Cluster) : Nat :=
  place 1 0 k.coreState + place 2 2 (b2n k.core.exited) + place 3 3 (b2n k.idle) + place 7 4 k.owner
    + place 63 32 k.core.exitCode.toNat

/-- CL_Q_STATUS. -/
def Cluster.qStatus (k : Cluster) : Nat :=
  (List.range 8).foldl (fun w n => w + place (5 * n + 4) (5 * n) (k.queue n).length) 0 + place 43 40 k.resq.length

/-- CL_SY_STATUS, but for PAIRERR. -/
def Cluster.syStatus (k : Cluster) : Nat :=
  ((List.range 16).zip k.ws.toList).foldl (fun w p => w + place (2 * p.1 + 1) (2 * p.1)
    (match p.2 with | .free => 0 | .armed _ _ => 1 | .cued _ => 2)) 0 + place 32 32 (b2n k.wait.isSome)

/-- ST_STATUS. -/
def Cluster.stStatus (k : Cluster) : Nat :=
  place 3 0 (k.outstanding 0) + place 7 4 (k.outstanding 4)
    + k.st.slots.foldl (fun w p => w + place (8 + p.1) (8 + p.1) (b2n p.2.halted.isSome)) 0
    + place 31 16 k.st.last + place 47 32 k.st.next

/-- ST_SLOTn. -/
def Cluster.stSlot (k : Cluster) (n : Nat) : Nat :=
  match k.strm n with
  | some x => place 15 0 x.num + place 18 16 (if x.halted.isSome then 2 else 1) + place 31 19 (streamD x.desc).sb
  | none => 0

/-- CL_MX_STATUS, but for CKERR and CKMORE. -/
def Cluster.mxStatus (k : Cluster) : Nat :=
  let a := k.arr
  let act := a.store a.active
  let sh := a.store a.shadow
  place 0 0 (b2n (!a.loads.isEmpty || !a.runs.isEmpty)) + place 1 1 (b2n sh.held) + place 2 2 (b2n a.ramp.active)
    + place 3 3 (b2n a.frozen) + place 6 6 (b2n act.flagged) + place 7 7 (b2n sh.flagged) + place 9 8 act.pack
    + place 10 10 (b2n act.rep) + place 31 16 a.lastRun + place 47 32 a.nextRun

/-- CL_MX_PEAK. -/
def Cluster.mxPeak (k : Cluster) : Nat :=
  let p := k.arr.peak
  wrapInt 16 p.hi + place 31 16 (wrapInt 16 p.lo) + place 32 32 (b2n p.any) + place 33 33 (b2n p.nan) + place 34 34 (b2n p.inf)
    + place 63 48 k.arr.peakRun

/-- CL_VX_STATUS. -/
def Cluster.vxStatus (k : Cluster) : Nat :=
  place 0 0 (b2n (!k.vx.chains.isEmpty)) + place 1 1 (b2n k.vx.held) + place 2 2 (b2n k.vx.t0.valid)
    + place 3 3 (b2n k.vx.t1.valid) + place 4 4 (b2n k.vx.t2.valid) + place 5 5 (b2n k.vx.t3.valid)
    + place 31 16 k.vx.lastChain + place 47 32 k.vx.nextChain

/-- The value of a cluster-block register, without what reading it does; a reserved offset reads zero (R218). -/
def Cluster.regValue (k : Cluster) (off : Nat) : Nat :=
  if off = CL_CORE_STATUS then k.coreStatus
  else if off = CL_Q_STATUS then k.qStatus
  else if off = CL_SY_STATUS then k.syStatus + place 33 33 (bits (k.r off) 33 33)
  else if off = CL_SY_VAL then k.ctr (bits (k.r CL_SY_SEL) 5 0)
  else if off = ST_STATUS then k.stStatus
  else if ST_SLOT ≤ off ∧ off < ST_SLOT + 64 ∧ off % 8 = 0 then k.stSlot ((off - ST_SLOT) / 8)
  else if off = CL_SP_STATUS then setBits (k.r off) 0 0 (b2n k.op.isSome)
  else if off = CL_MX_STATUS then k.mxStatus + place 5 4 (bits (k.r off) 5 4)
  else if off = CL_MX_PEAK then k.mxPeak
  else if off = CL_MX_GAUGE then k.arr.gauge.code
  else if CL_TILE_CFG ≤ off ∧ off < CL_TILE_CFG + 64 ∧ off % 8 = 0 then k.tileCfg ((off - CL_TILE_CFG) / 8)
  else if off = CL_VX_STATUS then k.vxStatus
  else if 0xC00 ≤ off ∧ off < 0x1000 ∧ off % 8 = 0 then leNat (amGetMany 0 k.vx.summary (off - 0xC00) 8)
  else if (fieldsIn clRegRows off).isSome then k.r off
  else 0

/-- A read of a cluster-block register: CL_Q_POPn, CL_Q_RESPOP and CL_SY_CUEn change with it. -/
def State.clRead (s : State) (c : Cl) (off : Nat) : Word × State :=
  if CL_Q_POP ≤ off ∧ off < CL_Q_POP + 64 ∧ off % 8 = 0 then s.readPop c ((off - CL_Q_POP) / 8)
  else if off = CL_Q_RESPOP then s.readResPop c
  else if h : CL_SY_CUE ≤ off ∧ off < CL_SY_CUE + 128 ∧ off % 8 = 0 then
    s.readCue c ⟨(off - CL_SY_CUE) / 8, by
      have h1 : off < CL_SY_CUE + 128 := h.2.1
      have h2 : CL_SY_CUE ≤ off := h.1
      omega⟩
  else (word ((s.cl c).regValue off), s)

/-! ### Writes -/

/-- Writes of the engines' registers. -/
def State.clWriteEng (s : State) (c : Cl) (off v : Nat) : State :=
  if off = ST_CANCEL then s.writeCancel c v
  else if off = CL_SP_OPCTRL then s.writeOpCtrl c v
  else if CL_SP_WIN ≤ off ∧ off < CL_SP_WIN + 64 ∧ off % 8 = 0 then s.writeWindow c ((off - CL_SP_WIN) / 8) v
  else if CL_PROP ≤ off ∧ off < CL_PROP + 512 ∧ off % 8 = 0 then s.writeProp c ((off - CL_PROP) / 8) v
  else if off = CL_MX_CTRL then
    let s := s.mod c (fun k => k.plainWrite off v)
    if bit v 1 then s.peakClear c else s
  else if off = CL_MX_STATUS then
    s.mod c (fun k =>
      let cleared := bit (k.r off) 4 && bit v 4
      let k := k.plainWrite off v
      if cleared then k.w CL_MX_CKINFO 0 else k)
  else if CL_TILE_CFG ≤ off ∧ off < CL_TILE_CFG + 64 ∧ off % 8 = 0 then
    let n := (off - CL_TILE_CFG) / 8
    if bit v 33 then
      s.mod c (fun k =>
        let t := if (k.tile n).member then n - 1 else n
        k.setTile t { k.tile t with poison := false })
    else s
  else s.mod c (fun k => k.plainWrite off v)

/-- A write of a cluster-block register; a reserved offset ignores it (R218). A program's write of CL_VX_SEED is noted for the
playbill (R524, SEEDW). -/
def State.clWrite (s : State) (who : Writer) (c : Cl) (off v : Nat) : State :=
  if off = CL_CORE_CTRL then s.writeCoreCtrl c v
  else if off = CL_Q_ROUTE then s.writeRoute c v
  else if CL_Q_PUSH ≤ off ∧ off < CL_Q_PUSH + 64 ∧ off % 8 = 0 then s.writePush c ((off - CL_Q_PUSH) / 8) v
  else if off = CL_FLT_INFO then s.writeFlt c v
  else if off = CL_SY_SETV then s.writeSetv who c v
  else if off = CL_SY_WCANCEL then (if bit v 4 then s.cancelSlot c (bits v 3 0) else s)
  else if CL_SY_PAIR ≤ off ∧ off < CL_SY_PAIR + 64 ∧ off % 8 = 0 then s.writePair c ((off - CL_SY_PAIR) / 8) v
  else
    match who with
    | .core _ => (s.clWriteEng c off v).mod c (fun k => if off = CL_VX_SEED then { k with flags := Nat.lor k.flags 4 } else k)
    | .firmware | .debugPath => s.clWriteEng c off v

/-! ### The rows that are single register accesses -/

/-- A handle is pushed through CL_Q_PUSHn. -/
def execClQPush (c : Cl) (n : Fin 8) (val : Word) (s : State) : Res := .next (s.writePush c n.val val.toNat)

/-- CL_Q_POPn is read. -/
def execClQPop (c : Cl) (n : Fin 8) (s : State) : Res :=
  let r := s.readPop c n.val
  .next { r.2 with readData := r.1 }

/-- CL_Q_RESPOP is read. -/
def execClQRespop (c : Cl) (s : State) : Res :=
  let r := s.readResPop c
  .next { r.2 with readData := r.1 }

/-- CL_Q_ROUTE is written. -/
def execClQRouteWrite (c : Cl) (val : Word) (s : State) : Res := .next (s.writeRoute c val.toNat)

/-- RUN is set. -/
def execCoreRunSet (c : Cl) (s : State) : Res := .next (s.writeRun c true)

/-- RUN is cleared. -/
def execCoreRunClear (c : Cl) (s : State) : Res := .next (s.writeRun c false)

/-- HALT is written 1. -/
def execDebugHalt (c : Cl) (s : State) : Res := .next (s.writeHalt c true)

/-- HALT is written 0. -/
def execDebugResume (c : Cl) (s : State) : Res := .next (s.writeHalt c false)

/-- STEP is written 1. -/
def execDebugStep (c : Cl) (s : State) : Res := .next (if s.debugOpen then s.stepCore c else s.denied)

/-- BPCLR is written 1. -/
def execBpclr (c : Cl) (s : State) : Res := .next (s.clearPred c)

/-- RATECLR is written 1. -/
def execRateclr (c : Cl) (s : State) : Res := .next (s.clearRate c)

/-- PEAKCLR is written 1 (R134). -/
def execPeakclr (c : Cl) (s : State) : Res := .next (s.peakClear c)

/-- CL_FLT_INFO is written. -/
def execPendClear (c : Cl) (val : Word) (s : State) : Res := .next (s.writeFlt c val.toNat)

/-- R257: the window of 4,096 ticks that has ended is recorded, and the next begins. -/
def execStepRateWindowEnd (c : Cl) (s : State) : Res :=
  let k := s.cl c
  if s.timebase / 4096 ≤ k.rateWin then waits s
  else
    let r := k.r CL_STEP_RATE
    let n := min k.rateN 65535
    let r := if k.rateOk then setBits r 15 0 n else r
    let r := if k.rateOk && k.rateMm then
        setBits (setBits (setBits r 31 16 (min n (bits r 31 16))) 47 32 (max n (bits r 47 32))) 48 48 1 else r
    .next (s.mod c (fun k => { k.w CL_STEP_RATE r with
      rateN := 0, rateOk := true, rateMm := true, rateWin := s.timebase / 4096 }))

end Sys2Proof.Machine
end

