-- ==== Sys2Proof/Machine/CoreIsa.lean ====
section
/-! DEFINITION. Sys2Proof/Machine/CoreIsa.lean: the base instructions of the control core: arithmetic, branches, loads,
stores and atomics over every space the core reaches (R213 to R222, R265, R267, R284 to R287, R351, R489, R495, R767). -/

namespace Sys2Proof.Machine

/-! ### Arithmetic (R213: RV64I, M) -/

/-- A 32-bit result, sign-extended. -/
def sext32 (v : Nat) : Word := word (wrapInt 64 (sgn 32 v))

/-- Signed division and remainder of n-bit values as RISC-V defines them, by zero and on overflow included. -/
def divS (n : Nat) (a b : Nat) : Nat :=
  if sgn n b = 0 then 2 ^ n - 1 else wrapInt n ((sgn n a).tdiv (sgn n b))
def remS (n : Nat) (a b : Nat) : Nat :=
  if sgn n b = 0 then a % 2 ^ n else wrapInt n ((sgn n a).tmod (sgn n b))
def divU (n : Nat) (a b : Nat) : Nat := if b % 2 ^ n = 0 then 2 ^ n - 1 else a % 2 ^ n / (b % 2 ^ n)
def remU (n : Nat) (a b : Nat) : Nat := if b % 2 ^ n = 0 then a % 2 ^ n else a % 2 ^ n % (b % 2 ^ n)

/-- The 64-bit operations of opcodes OP and OP-IMM, by funct3 and alternative. -/
def alu64 (f3 : Nat) (alt : Bool) (a b : Nat) : Nat :=
  match f3 with
  | 0 => if alt then (a + 2 ^ 64 - b) % 2 ^ 64 else (a + b) % 2 ^ 64
  | 1 => a * 2 ^ (b % 64) % 2 ^ 64
  | 2 => b2n (sgn 64 a < sgn 64 b)
  | 3 => b2n (a < b)
  | 4 => Nat.xor a b
  | 5 => if alt then wrapInt 64 (sgn 64 a / 2 ^ (b % 64)) else a / 2 ^ (b % 64)
  | 6 => Nat.lor a b
  | _ => Nat.land a b

/-- The 32-bit operations of OP-32 and OP-IMM-32. -/
def alu32 (f3 : Nat) (alt : Bool) (a b : Nat) : Option Nat :=
  match f3 with
  | 0 => some (if alt then (a + 2 ^ 64 - b) % 2 ^ 32 else (a + b) % 2 ^ 32)
  | 1 => some (a * 2 ^ (b % 32) % 2 ^ 32)
  | 5 => some (if alt then wrapInt 32 (sgn 32 a / 2 ^ (b % 32)) else a % 2 ^ 32 / 2 ^ (b % 32))
  | _ => none

/-- The M extension on 64 bits. -/
def mul64 (f3 : Nat) (a b : Nat) : Nat :=
  match f3 with
  | 0 => a * b % 2 ^ 64
  | 1 => wrapInt 64 (sgn 64 a * sgn 64 b / 2 ^ 64)
  | 2 => wrapInt 64 (sgn 64 a * (b : Int) / 2 ^ 64)
  | 3 => a * b / 2 ^ 64
  | 4 => divS 64 a b
  | 5 => divU 64 a b
  | 6 => remS 64 a b
  | _ => remU 64 a b

/-- The M extension on 32 bits. -/
def mul32 (f3 : Nat) (a b : Nat) : Option Nat :=
  match f3 with
  | 0 => some (a * b % 2 ^ 32)
  | 4 => some (divS 32 a b)
  | 5 => some (divU 32 a b)
  | 6 => some (remS 32 a b)
  | 7 => some (remU 32 a b)
  | _ => none

/-- The value of a register-register word; none if the encoding is reserved. -/
def opValue (w : Nat) (a b : Nat) : Option Word :=
  let f3 := iF3 w
  if iOp w = 0x33 then
    match iF7 w with
    | 0x00 => some (word (alu64 f3 false a b))
    | 0x20 => if f3 = 0 ∨ f3 = 5 then some (word (alu64 f3 true a b)) else none
    | 0x01 => some (word (mul64 f3 a b))
    | _ => none
  else
    match iF7 w with
    | 0x00 => (alu32 f3 false a b).map sext32
    | 0x20 => if f3 = 0 ∨ f3 = 5 then (alu32 f3 true a b).map sext32 else none
    | 0x01 => (mul32 f3 a b).map sext32
    | _ => none

/-- The value of a register-immediate word. -/
def opImmValue (w : Nat) (a : Nat) : Option Word :=
  let f3 := iF3 w
  let imm := wrapInt 64 (immI w)
  if iOp w = 0x13 then
    if f3 = 1 then (if bits w 31 26 = 0 then some (word (alu64 1 false a (bits w 25 20))) else none)
    else if f3 = 5 then
      (if bits w 31 26 = 0 then some (word (alu64 5 false a (bits w 25 20)))
       else if bits w 31 26 = 16 then some (word (alu64 5 true a (bits w 25 20))) else none)
    else some (word (alu64 f3 false a imm))
  else
    if f3 = 0 then some (sext32 ((a + imm) % 2 ^ 32))
    else if f3 = 1 then (if iF7 w = 0 then (alu32 1 false a (iRs2 w)).map sext32 else none)
    else if f3 = 5 then
      (if iF7 w = 0 then (alu32 5 false a (iRs2 w)).map sext32
       else if iF7 w = 0x20 then (alu32 5 true a (iRs2 w)).map sext32 else none)
    else none

/-- Whether a branch is taken; none if reserved. -/
def branchTaken (f3 a b : Nat) : Option Bool :=
  match f3 with
  | 0 => some (a == b)
  | 1 => some (a != b)
  | 4 => some (decide (sgn 64 a < sgn 64 b))
  | 5 => some (decide (sgn 64 b ≤ sgn 64 a))
  | 6 => some (decide (a < b))
  | 7 => some (decide (b ≤ a))
  | _ => none

/-! ### Control and status registers (R214, R216) -/

/-- A CSR's value; none if the core has no such register, or not at this privilege. -/
def State.csrRead (s : State) (c : Cl) (n : Nat) : Option Word :=
  let k := (s.cl c).core
  let m := fun (v : Word) => if k.user then none else some v
  if n = 0xC00 then some (word (s.cl c).steps)
  else if n = 0xC01 then some (word s.timebase)
  else if n = 0xC02 then some k.instret
  else if n = 0x300 then m k.mstatus
  else if n = 0x341 then m k.mepc
  else if n = 0x342 then m k.mcause
  else if n = 0x343 then m k.mtval
  else if n = 0x3A0 then m (word (leNat (amGetMany 0 k.pmpcfg 0 8)))
  else if 0x3B0 ≤ n ∧ n < 0x3B8 then m (amGet 0 k.pmpaddr (n - 0x3B0))
  else none

/-- Write a CSR that csrRead gives at this privilege. -/
def CoreSt.csrWrite (k : CoreSt) (n : Nat) (v : Word) : CoreSt :=
  if n = 0x300 then { k with mstatus := v }
  else if n = 0x341 then { k with mepc := word (v.toNat / 2 * 2) }
  else if n = 0x342 then { k with mcause := v }
  else if n = 0x343 then { k with mtval := v }
  else if n = 0x3A0 then { k with pmpcfg := amSetMany 0 k.pmpcfg 0 (leBytes 8 v.toNat) }
  else if 0x3B0 ≤ n ∧ n < 0x3B8 then { k with pmpaddr := amSet 0 k.pmpaddr (n - 0x3B0) v }
  else k

/-! ### The address map (R217, R767) -/

/-- What an address of the core leads to. -/
inductive Space
  | sp (off : Nat)
  | block (off : Nat)
  | hbm
  | far (chip clus off : Nat)
  | host (a : Nat)
  | none
  deriving DecidableEq, Repr

/-- R217, R414, R767: where n bytes at an address of the core lie. -/
def State.space (s : State) (c : Cl) (a n : Nat) : Space :=
  if gKind a = 0 then
    if a < 524288 then .sp a else if 0x100000 ≤ a ∧ a < 0x110000 then .block (a - 0x100000) else .none
  else if s.inSpace (s.cl c).owner a n = false then .none
  else
    let off := gOff a
    match gKind a with
    | 1 => .hbm
    | 2 => if gChip a = s.chip ∧ bits off 24 19 = c.val then .sp (bits off 18 0)
           else .far (gChip a) (bits off 24 19) (bits off 18 0)
    | 3 => .host off
    | _ => .none

/-- How an access of the core comes out: made, with a value; faulted; stalled on a page; missed in the cluster cache; held
back; or a read of host memory. -/
inductive MemAcc
  | ok (v : Nat) (s : State)
  | fault (s : State)
  | page (p : Nat)
  | miss (line : Nat) (s : State)
  | wait
  | host (a : Nat)

/-- R266, R267: the check bits of scratchpad word w as the core reads it; true if it is poisoned. -/
def State.spCheck (s : State) (c : Cl) (w : Nat) (ecc : Ecc) : Bool × State :=
  let mine := match ecc with | .clean => false | .corrected v => v == w | .uncorrectable v => v == w
  let s := if mine then s.spEcc c ecc else s
  if (s.cl c).bad.contains w then (true, s.spEncounter c 0 w) else (false, s)

/-- R293: the check bits of a cached line as it is hit: an uncorrectable error drops a clean line, and poisons the word of
a dirty one. -/
def State.ccCheck (s : State) (c : Cl) (l : CLine) (ecc : Ecc) : State :=
  match ecc with
  | .clean => s
  | .corrected _ => s
  | .uncorrectable w =>
    if l.dirty = 0 then s.mod c (fun k => { k with cc := k.cc.filter (fun p => p.2.tag ≠ l.tag) })
    else
      let s := s.mod c (fun k => { k with cc := k.cc.map (fun p =>
        if p.2.tag = l.tag then
          (p.1, { p.2 with bad := if bit p.2.bad (w % 8) then p.2.bad else p.2.bad + 2 ^ (w % 8) }) else p) })
      s.logErr { source := 6, cls := POISON, cause := 1, unit := c.val, ctx := some (s.cl c).owner,
                 info := word (l.tag * 64 + 8 * (w % 8)) }

/-- The hit line of an address, after its check bits. -/
def State.ccLook (s : State) (c : Cl) (a : Nat) (ecc : Ecc) : Option CLine × State :=
  match (s.cl c).ccLine (a / 64) with
  | none => (none, s)
  | some l => let s := s.ccCheck c l ecc; ((s.cl c).ccLine (a / 64), s)

/-- R285: the core's misses outstanding, prefetches apart. -/
def Cluster.coreMisses (k : Cluster) : Nat := (k.misses.filter (fun m => !m.pf)).length

/-- R285, R296: an access that missed joins the outstanding miss of its line, or begins one. none: no miss buffer is
free. -/
def State.joinMiss (s : State) (c : Cl) (line : Nat) (u : MissUse) : Option State :=
  match (s.cl c).misses.find? (fun m => m.line == line) with
  | some m =>
    let s := if m.pf then s.cinc c CL_CC_CNT_PFLATE 1 else s
    some (s.mod c (fun k => { k with misses := k.misses.map (fun y =>
      if y.line = line then { y with uses := y.uses ++ [u], pf := false } else y) }))
  | none =>
    if 8 ≤ (s.cl c).coreMisses then none
    else some ((s.cinc c CL_CC_CNT_MISS 1).mod c (fun k => { k with misses := k.misses ++ [⟨line, [u], false⟩] }))

/-- R285: with block set the line is filled at once, for the accesses that the firmware or the debug path makes as the
core. -/
def State.ccGet (s : State) (c : Cl) (a : Nat) : State :=
  ((s.cinc c CL_CC_CNT_MISS 1).ccFill c (a / 64) 0 1 false).mod c (fun k => { k with
    misses := k.misses.filter (fun m => !(m.line == a / 64 && m.uses.isEmpty)) })

/-- A load of n bytes at an aligned address, made as the core's. -/
def State.memLoad (s : State) (c : Cl) (a n : Nat) (ecc : Ecc) (block : Bool) : MemAcc :=
  match s.space c a n with
  | .none => .fault s
  | .far _ _ _ => .fault s
  | .block off =>
    if n ≠ 8 ∨ off % 8 ≠ 0 then .fault s
    else let r := s.clRead c off; .ok r.1.toNat r.2
  | .sp off =>
    let r := s.spCheck c (off / 8) ecc
    if r.1 then .fault r.2 else .ok (leNat ((r.2.cl c).spRead off n)) r.2
  | .host b => .host b
  | .hbm =>
    match s.translate (s.cl c).owner (gOff a) with
    | .outside => .fault s
    | .absent p => .page p
    | .at_ _ _ =>
      if (s.cl c).misses.any (fun m => m.line == a / 64 && !m.uses.isEmpty) then
        (if block then .wait else .miss (a / 64) s)
      else
        let r := s.ccLook c a ecc
        let hit := r.1.isSome
        if !hit && !block then .miss (a / 64) r.2
        else
          let s := if hit then r.2.ccHit c (a / 64) 1 else r.2.ccGet c a
          match (s.cl c).ccLine (a / 64) with
          | some l => if bit l.bad (a % 64 / 8) then .fault s else .ok (fieldB l.data (a % 64) n) s
          | none => .fault s

/-- Bytes are stored into a cached line: their words become dirty, and words written whole lose their poison. -/
def CLine.put (l : CLine) (o : Nat) (bs : List Byte) : CLine :=
  let i := o / 8
  { l with
    data := l.data.take o ++ bs ++ l.data.drop (o + bs.length)
    dirty := if bit l.dirty i then l.dirty else l.dirty + 2 ^ i
    bad := if bit l.bad i && bs.length == 8 then l.bad - 2 ^ i else l.bad }

/-- Store into the cached line of an address. -/
def State.ccStore (s : State) (c : Cl) (a : Nat) (bs : List Byte) : State :=
  s.mod c (fun k => { k with cc := k.cc.map (fun p => if p.2.tag = a / 64 then (p.1, p.2.put (a % 64) bs) else p) })

/-- R280, R767: a posted arrival of one word from the core; amo gives the function of an atomic. -/
def State.postWord (s : State) (c : Cl) (chip clus off : Nat) (amo : Option Nat) (v : Nat) : State :=
  if chip = s.chip then
    s.sendArrival clus { chip := s.chip, off := off, words := [word v], amo := amo, from_ := .core c.val (s.cl c).tk }
  else
    let slice := (s.sliceOf (s.cl c).owner).getD 0
    match amo with
    | none => s.sendOp chip slice 1 0 (clus * 524288 + off) 2 63 0 (leBytes 8 v)
    | some f => s.sendOp chip slice 1 1 (clus * 524288 + off) 2 63 0 (leBytes 8 f ++ leBytes 8 v)

/-- A store of n bytes at an aligned address, made as the core's. -/
def State.memStore (s : State) (who : Writer) (c : Cl) (a n v : Nat) (ecc : Ecc) (block : Bool) : MemAcc :=
  match s.space c a n with
  | .none => .fault s
  | .block off =>
    if n ≠ 8 ∨ off % 8 ≠ 0 ∨ off < 0x100 ∨ (0x300 ≤ off ∧ off < 0x400) then .fault s
    else .ok 0 (s.clWrite who c off v)
  | .sp off =>
    let r := if n = 8 then (false, s) else s.spCheck c (off / 8) ecc
    if r.1 then .fault r.2 else .ok 0 (r.2.mod c (fun k => k.spWrite off (leBytes n v)))
  | .far chip clus off => if n = 8 then .ok 0 (s.postWord c chip clus off none v) else .fault s
  | .host b => .ok 0 (s.hostWrite (s.cl c).owner b (leBytes n v))
  | .hbm =>
    match s.translate (s.cl c).owner (gOff a) with
    | .outside => .fault s
    | .absent p => .page p
    | .at_ _ ro =>
      if ro then .fault s
      else if (s.cl c).misses.any (fun m => m.line == a / 64 && !m.uses.isEmpty) then
        (if block then .wait else .miss (a / 64) s)
      else
        let r := s.ccLook c a ecc
        let hit := r.1.isSome
        if !hit && !block then .miss (a / 64) r.2
        else
          let s := if hit then r.2.ccHit c (a / 64) 1 else r.2.ccGet c a
          match (s.cl c).ccLine (a / 64) with
          | some l => if n ≠ 8 ∧ bit l.bad (a % 64 / 8) then .fault s else .ok 0 (s.ccStore c a (leBytes n v))
          | none => .fault s

/-! ### Atomics (R265, R287, R351, R767) -/

/-- R287: an HBM line that an atomic touches: its physical address, once the cluster's cache has given it up. -/
def State.atomicHome (s : State) (c : Cl) (a n : Nat) (write : Bool) : MemAcc :=
  match s.translate (s.cl c).owner (gOff a) with
  | .outside => .fault s
  | .absent p => .page p
  | .at_ p ro =>
    if write && ro then .fault s
    else if (s.cl c).misses.any (fun m => m.line == a / 64) then .wait
    else
      let s := s.ccYield c a n
      if (s.hbmBad p n).isEmpty then .ok p s else .fault s

/-- An AMO of n bytes: the old value. -/
def State.memAmo (s : State) (c : Cl) (a n f v : Nat) (ecc : Ecc) : MemAcc :=
  match s.space c a n with
  | .none => .fault s
  | .block _ => .fault s
  | .host _ => .fault s
  | .sp off =>
    let r := s.spCheck c (off / 8) ecc
    if r.1 then .fault r.2
    else
      let old := leNat ((r.2.cl c).spRead off n)
      .ok old (r.2.mod c (fun k => k.spWrite off (leBytes n (amoOp f (8 * n) old v))))
  | .far chip clus off => if n = 8 then .ok 0 (s.postWord c chip clus off (some f) v) else .fault s
  | .hbm =>
    match s.atomicHome c a n true with
    | .ok p s =>
      let old := leNat (s.hbmRead p n)
      .ok old (s.hbmWrite p (leBytes n (amoOp f (8 * n) old v)))
    | r => r

/-- LR of n bytes. -/
def State.memLr (s : State) (c : Cl) (a n : Nat) (ecc : Ecc) : MemAcc :=
  match s.space c a n with
  | .sp off =>
    let r := s.spCheck c (off / 8) ecc
    if r.1 then .fault r.2
    else .ok (leNat ((r.2.cl c).spRead off n)) (r.2.core c (fun k => { k with resv := some (true, off / 8) }))
  | .hbm =>
    match s.atomicHome c a n false with
    | .ok p s => .ok (leNat (s.hbmRead p n)) (s.core c (fun k => { k with resv := some (false, p / 64) }))
    | r => r
  | _ => .fault s

/-- SC of n bytes: 0 if it stored, 1 if its reservation was gone. Any SC ends the reservation. -/
def State.memSc (s : State) (c : Cl) (a n v : Nat) (ecc : Ecc) : MemAcc :=
  let drop := fun (s : State) => s.core c (fun k => { k with resv := none })
  match s.space c a n with
  | .sp off =>
    let r := if n = 8 then (false, s) else s.spCheck c (off / 8) ecc
    if r.1 then .fault r.2
    else if (s.cl c).core.resv = some (true, off / 8) then
      .ok 0 (drop (r.2.mod c (fun k => k.spWrite off (leBytes n v))))
    else .ok 1 (drop r.2)
  | .hbm =>
    match s.atomicHome c a n true with
    | .ok p s =>
      if (s.cl c).core.resv = some (false, p / 64) then .ok 0 (drop (s.hbmWrite p (leBytes n v))) else .ok 1 (drop s)
    | r => r
  | _ => .fault s

/-! ### Carrying out an instruction -/

/-- The instruction wrote rd and went on to pc. -/
def State.put (s : State) (c : Cl) (rd : Nat) (v : Word) (pc : Word) : State :=
  (s.core c (fun k => k.set rd v)).retire c pc

/-- Sign- or zero-extend a loaded value of n bytes. -/
def extend (n : Nat) (signed : Bool) (v : Nat) : Word := if signed then word (wrapInt 64 (sgn (8 * n) v)) else word v

/-- R218, R213: whether an access must be refused for its alignment before its address is looked at: the register block's
accesses fault by R218 instead. -/
def misaligned (a n : Nat) : Bool := a % n != 0 && !(decide (0x100000 ≤ a) && decide (a < 0x110000))

/-- An access that stops: an access fault, a page, or a wait. k gives what follows an access that is made. -/
def State.finish (s : State) (c : Cl) (cause a : Nat) (r : MemAcc) (k : Nat → State → Res) : Res :=
  match r with
  | .ok v s => k v s
  | .fault s => .next (s.exception c cause (word a))
  | .page p => .next (s.stallPage c p cause (word a))
  | .miss _ s => .next s
  | .wait => waits s
  | .host _ => waits s

/-- A load instruction. -/
def State.isaLoad (s : State) (c : Cl) (w a : Nat) (ecc : Ecc) (pc : Word) : Option Res :=
  let f3 := iF3 w
  let n := 2 ^ (f3 % 4)
  let signed := decide (f3 < 4)
  let rd := iRd w
  if f3 = 7 then none
  else if misaligned a n then some (.next (s.exception c xcLoadMis (word a)))
  else
    match s.memLoad c a n ecc false with
    | .miss line t =>
      some (match t.joinMiss c line (.load rd n signed a (t.cl c).core.pc) with
        | none => waits s
        | some t => .next ((if rd = 0 then t else
            t.core c (fun k => { k with awaiting := nsIns k.awaiting rd })).retire c pc))
    | .host b => some (.next (s.core c (fun k => { k with stall := .hostRead rd n signed b (pc - k.pc).toNat })))
    | r => some (s.finish c xcLoad a r (fun v s => .next (s.put c rd (extend n signed v) pc)))

/-- A store instruction. -/
def State.isaStore (s : State) (c : Cl) (w a v : Nat) (ecc : Ecc) (pc : Word) : Option Res :=
  let f3 := iF3 w
  let n := 2 ^ f3
  if 4 ≤ f3 then none
  else if misaligned a n then some (.next (s.exception c xcStoreMis (word a)))
  else
    match s.memStore (.core c) c a n v ecc false with
    | .miss line t =>
      some (match t.joinMiss c line (.store a (leBytes n v) (t.cl c).core.pc) with
        | none => waits s
        | some t => .next (t.retire c pc))
    | r => some (s.finish c xcStore a r (fun _ s => .next (s.retire c pc)))

/-- An instruction of the A extension. -/
def State.isaAtomic (s : State) (c : Cl) (w a v : Nat) (ecc : Ecc) (pc : Word) : Option Res :=
  let f := bits w 31 27
  let n := if iF3 w = 2 then 4 else 8
  let rd := iRd w
  if iF3 w ≠ 2 ∧ iF3 w ≠ 3 then none
  else if f = 2 then
    if iRs2 w ≠ 0 then none
    else if misaligned a n then some (.next (s.exception c xcLoadMis (word a)))
    else some (s.finish c xcLoad a (s.memLr c a n ecc) (fun v s => .next (s.put c rd (extend n true v) pc)))
  else if f = 3 then
    if misaligned a n then some (.next (s.exception c xcStoreMis (word a)))
    else some (s.finish c xcStore a (s.memSc c a n (v % 2 ^ (8 * n)) ecc) (fun v s => .next (s.put c rd (word v) pc)))
  else if amoKnown f then
    if misaligned a n then some (.next (s.exception c xcStoreMis (word a)))
    else some (s.finish c xcStore a (s.memAmo c a n f (v % 2 ^ (8 * n)) ecc)
      (fun v s => .next (s.put c rd (extend n true v) pc)))
  else none

/-- R220, R258: a branch or an indirect jump is resolved: the predictor learns, and whether it had been mispredicted is
open (assumption 31). -/
def State.resolve (s : State) (c : Cl) (taken : Bool) (target : Word) : State :=
  let pc := (s.cl c).core.pc.toNat
  let r := s.free
  let s := if bit r.1.toNat 0 then r.2.cinc c CL_CORE_CNT_MISPRED 1 else r.2
  s.core c (fun k =>
    let p := k.pred
    let i := Nat.xor (pc / 2 % 2048) p.hist
    let n := amGet 0 p.ctrs i
    { k with pred := { p with
        ctrs := amSet 0 p.ctrs i (if taken then min (n + 1) 3 else n - 1)
        hist := (2 * p.hist + b2n taken) % 2048
        btb := if taken then amIns p.btb (pc / 2 % 256) target else p.btb } })

/-- The return-address stack of a jump (R220). -/
def Predictor.jump (p : Predictor) (rd rs1 : Nat) (ret : Word) : Predictor :=
  let link := fun (r : Nat) => r == 1 || r == 5
  let p := if link rs1 && rs1 != rd then { p with ras := p.ras.tail } else p
  if link rd then { p with ras := (ret :: p.ras).take 16 } else p

/-- A Zicsr instruction. -/
def State.isaCsr (s : State) (c : Cl) (w : Nat) (a : Word) (pc : Word) : Option Res :=
  let n := bits w 31 20
  let v := if bit w 14 then word (iRs1 w) else a
  let kind := iF3 w % 4
  let writes := kind == 1 || iRs1 w != 0
  match s.csrRead c n with
  | none => none
  | some old =>
    if writes && bits n 11 10 == 3 then none
    else
      let new := match kind with | 1 => v | 2 => old ||| v | _ => old &&& ~~~v
      some (.next ((if writes then s.core c (fun k => k.csrWrite n new) else s).put c (iRd w) old pc))

/-- R214, R246, R741: the remaining SYSTEM words: ebreak halts under an attached debugger; wfi goes on; mret is machine
mode's. -/
def State.isaSystem (s : State) (c : Cl) (w : Nat) (a : Word) (pc : Word) : Option Res :=
  if iF3 w = 0 then
    if w = 0x00100073 then
      some (.next (if bit (s.dr MG_DBG_ATTACH) c.val then (s.setHalt c).core c (fun k => { k with step := false })
        else s.exception c xcBreak (s.cl c).core.pc))
    else if w = 0x10500073 then some (.next (s.retire c pc))
    else if w = 0x30200073 ∧ (s.cl c).core.user = false then
      some (.next ((s.core c CoreSt.mret).retire c (s.cl c).core.mepc))
    else none
  else if iF3 w = 4 then none
  else s.isaCsr c w a pc

/-- R213: carry out the base word w of an instruction that ends at pc; none if it is illegal. -/
def State.isa (s : State) (c : Cl) (w : Nat) (ecc : Ecc) (pc : Word) : Option Res :=
  let k := (s.cl c).core
  let a := k.get (iRs1 w)
  let b := k.get (iRs2 w)
  let rd := iRd w
  let at_ := fun (i : Int) => wrapInt 64 ((a.toNat : Int) + i)
  let rel := fun (i : Int) => word (wrapInt 64 ((k.pc.toNat : Int) + i))
  match iOp w with
  | 0x37 => some (.next (s.put c rd (word (wrapInt 64 (immU w))) pc))
  | 0x17 => some (.next (s.put c rd (rel (immU w)) pc))
  | 0x6F => some (.next ((s.core c (fun k => { k with pred := k.pred.jump rd 0 pc })).put c rd pc (rel (immJ w))))
  | 0x67 =>
    if iF3 w ≠ 0 then none
    else
      let t := word (at_ (immI w) / 2 * 2)
      some (.next (((s.resolve c true t).core c (fun k => { k with pred := k.pred.jump rd (iRs1 w) pc })).put c rd pc t))
  | 0x63 =>
    match branchTaken (iF3 w) a.toNat b.toNat with
    | none => none
    | some taken =>
      let t := if taken then rel (immB w) else pc
      some (.next ((s.resolve c taken t).retire c t))
  | 0x03 => s.isaLoad c w (at_ (immI w)) ecc pc
  | 0x23 => s.isaStore c w (at_ (immS w)) b.toNat ecc pc
  | 0x2F => s.isaAtomic c w a.toNat b.toNat ecc pc
  | 0x13 => (opImmValue w a.toNat).map (fun v => .next (s.put c rd v pc))
  | 0x1B => (opImmValue w a.toNat).map (fun v => .next (s.put c rd v pc))
  | 0x33 => (opValue w a.toNat b.toNat).map (fun v => .next (s.put c rd v pc))
  | 0x3B => (opValue w a.toNat b.toNat).map (fun v => .next (s.put c rd v pc))
  | 0x0F =>
    if iF3 w = 0 then some (.next (s.retire c pc))
    else if iF3 w = 1 then some (.next ((s.core c (fun k => { k with icache := [] })).retire c pc))
    else none
  | 0x73 => s.isaSystem c w a pc
  | _ => none

/-- Whether a base word has a row of its own: an engine instruction, or ecall. -/
def ownRow (w : Nat) : Bool := (engOp w).isSome || w == 0x00000073

/-- R215, R219, R230, R246: the instruction at the pc is fetched and carried out; engine instructions and environment calls
are left to their rows. -/
def State.coreGo (s : State) (c : Cl) (ecc : Ecc) : Res :=
  match s.fetch c with
  | .fault a => .next (s.exception c xcFetch (word a))
  | .page p a => .next (s.stallPage c p xcFetch (word a))
  | .ok raw len ms =>
    match baseWord raw len with
    | none => .next ((s.fillI c ms).exception c xcIllegal (word raw))
    | some w =>
      if ownRow w || (s.cl c).core.awaits w then waits s
      else
        let t := s.fillI c ms
        match t.isa c w ecc (t.nextPc c len) with
        | some r => r
        | none => .next (t.exception c xcIllegal (word raw))

/-- The core carries out the instruction at its pc, or halts at the breakpoint there (R741). -/
def execCoreInstruction (c : Cl) (ecc : Ecc) (s : State) : Res :=
  if (s.cl c).coreReady = false then waits s
  else if s.atBreak c then .next (s.breakHit c)
  else s.coreGo c ecc

end Sys2Proof.Machine
end

