-- ==== Sys2Proof/Machine/Hbm.lean ====
section
/-! DEFINITION. Sys2Proof/Machine/Hbm.lean: the shared cache's tags, the request tracker, and the HBM controllers
(R288 to R301, R616 to R637). Data stands at its home, State.mem.hbm, which is never stale (R289). -/

namespace Sys2Proof.Machine

/-- R617: bytes of HBM. -/
def hbmBytes : Nat := 294912 * 2097152

/-! ### Tags (R288 to R292) -/

/-- R288: the set of an HBM address within its slice. -/
def shcSet (a : Nat) : Nat := bits a 22 12 * 4 + bits a 7 6

/-- The key of a way of a set. -/
def shcKey (sl a w : Nat) : Nat := (sl * 8192 + shcSet a) * 16 + w

/-- The way that holds a line. -/
def State.shcWay (s : State) (sl a : Nat) : Option Nat :=
  (List.range 16).find? (fun w => match s.mem.tags.find? (fun p => p.1 == shcKey sl a w) with
    | some p => p.2.addr == a / 64 | none => false)

/-- A counter of slice sl. -/
def shcCtr (r sl : Nat) : Nat := r + 0x80 * sl

/-- R290: age a set when its way w is hit or filled. -/
def shcAge (tags : List (Nat × Tag)) (sl a w : Nat) : List (Nat × Tag) :=
  tags.map (fun p => if p.1 / 16 = sl * 8192 + shcSet a then
    (if p.1 % 16 = w then (p.1, { p.2 with age := 0 }) else (p.1, { p.2 with age := min (p.2.age + 1) 15 })) else p)

/-- R290, R292: the victim way for a fill of a class. -/
def State.shcVictim (s : State) (sl a cls : Nat) : Nat :=
  let at_ := fun w => (s.mem.tags.find? (fun p => p.1 == shcKey sl a w)).map (·.2)
  let weight := fun w => match at_ w with | some t => t.cls == 2 | none => false
  let ws := (List.range 16).filter weight
  let pick := fun (l : List Nat) => l.foldl (fun best w =>
    match at_ w, at_ best with
    | some x, some b => if x.hint < b.hint ∨ (x.hint = b.hint ∧ b.age < x.age) then w else best
    | _, _ => best) (l.headD 0)
  if cls = 2 ∧ bits (s.dr HM_SHC_CTRL) 4 0 ≤ ws.length then pick ws
  else
    match (List.range 16).find? (fun w => (at_ w).isNone) with
    | some w => w
    | none => pick (List.range 16)

/-- R621: a request for a 256-byte block joins its slice. -/
def State.track (s : State) (sl block : Nat) (write : Bool) : State :=
  { s with mem := { s.mem with track := s.mem.track ++ [{ slice := sl, block := block, write := write }] } }

/-- R289, R296: a line leaves the shared cache: written back if dirty. -/
def State.shcEvict (s : State) (sl k : Nat) (t : Tag) : State :=
  let s := if t.pf then s.dinc (shcCtr HM_SHC_CNT_PFUNUSED sl) 1 else s
  let s := if t.dirty then (s.dinc (shcCtr HM_SHC_CNT_WB sl) 1).track sl (t.addr / 4) true else s
  let poisoned := s.mem.cbad.filter (fun w => w / 8 == t.addr)
  let s := if t.dirty then poisoned.foldl (fun s w => s.hbmPoison w) s
    else { s with mem := { s.mem with cbad := s.mem.cbad.filter (fun w => w / 8 != t.addr) } }
  { s with mem := { s.mem with tags := amDel s.mem.tags k } }

/-- R290: a line is filled. -/
def State.shcFill (s : State) (sl a cls hint ctx : Nat) (dirty pf : Bool) : State :=
  let w := s.shcVictim sl a cls
  let k := shcKey sl a w
  let s := match s.mem.tags.find? (fun p => p.1 == k) with | some p => s.shcEvict sl k p.2 | none => s
  let t : Tag := { addr := a / 64, dirty := dirty, cls := cls, hint := hint, ctx := ctx, pf := pf }
  { s with mem := { s.mem with tags := shcAge (amIns s.mem.tags k t) sl a w } }

/-- R289 to R291, R296: a request that hits way w. -/
def State.shcHit (s : State) (sl w : Nat) (r : ShcReq) : State :=
  let k := shcKey sl r.addr w
  let wasPf := match s.mem.tags.find? (fun p => p.1 == k) with | some p => p.2.pf | none => false
  let s := s.dinc (shcCtr HM_SHC_CNT_HIT sl) 1
  let s := if wasPf && !r.prefetch then s.dinc (shcCtr HM_SHC_CNT_PFUSED sl) 1 else s
  let up := fun (t : Tag) =>
    { t with hint := max t.hint r.hint.val, dirty := t.dirty || r.write, pf := t.pf && r.prefetch }
  let tags := s.mem.tags.map (fun p => if p.1 = k then (p.1, up p.2) else p)
  { s with mem := { s.mem with tags := shcAge tags sl r.addr w } }

/-- R289, R296: a request that misses: a whole-line write allocates at once; else the line is asked of HBM, unless it is
already on its way. -/
def State.shcMiss (s : State) (sl : Nat) (r : ShcReq) : State :=
  match s.mem.misses.find? (fun m => m.slice == sl && m.line == r.addr / 64) with
  | some m =>
    let s := if m.pf && !r.prefetch then s.dinc (shcCtr HM_SHC_CNT_PFLATE sl) 1 else s
    let up := fun (y : ShcMiss) =>
      { y with write := y.write || r.write, hint := max y.hint r.hint.val, pf := y.pf && r.prefetch }
    { s with mem := { s.mem with misses := s.mem.misses.map (fun y => if y == m then up y else y) } }
  | none =>
    let s := s.dinc (shcCtr (if r.prefetch then HM_SHC_CNT_PFISS else HM_SHC_CNT_MISS) sl) 1
    if r.write && r.whole then s.shcFill sl r.addr r.cls.val r.hint.val r.ctx.val true false
    else
      let m : ShcMiss := ⟨sl, r.addr / 64, r.write, r.cls.val, r.hint.val, r.ctx.val, r.prefetch⟩
      let s := { s with mem := { s.mem with misses := s.mem.misses ++ [m] } }
      s.track sl (r.addr / 256) false

/-- R288, R289: a request reaches its home slice; an address of no stack faults (R616). -/
def execSharedCacheAccess (sl : Sl) (req : ShcReq) (s : State) : Res :=
  if hbmBytes ≤ req.addr then .fault .noSuchAddress
  else if shcSlice req.addr ≠ sl.val then waits s
  else
    match s.shcWay sl.val req.addr with
    | some w => .next (s.shcHit sl.val w req)
    | none => .next (s.shcMiss sl.val req)

/-- R293: what the check bits of a line read in the shared cache show. -/
def State.shcEcc (s : State) (sl line : Nat) (ecc : Ecc) : State :=
  match ecc with
  | .clean => s
  | .corrected _ => s.dinc (shcCtr HM_SHC_CNT_CE sl) 1
  | .uncorrectable w =>
    let s := s.dinc (shcCtr HM_SHC_CNT_UE sl) 1
    let dirty := s.mem.tags.any (fun p => p.2.addr == line && p.2.dirty)
    if dirty then
      ({ s with mem := { s.mem with cbad := nsIns s.mem.cbad (line * 8 + w % 8) } }).logErr
        { source := 7, cls := POISON, cause := 1, unit := sl, info := word (line * 64 + 8 * (w % 8)) }
    else { s with mem := { s.mem with tags := s.mem.tags.filter (fun p => p.2.addr != line) } }

/-- R289, R290, R293: a missed line arrives and is allocated with its class and hint. -/
def execSharedCacheMissFill (sl : Sl) (line : Nat) (ecc : Ecc) (s : State) : Res :=
  match s.mem.misses.find? (fun m => m.slice == sl.val && m.line == line) with
  | none => waits s
  | some m =>
    if s.mem.track.any (fun t => t.slice == sl.val && t.block == line / 4 && !t.write) then waits s
    else
      let s := { s with mem := { s.mem with misses := dropFirst (fun y => y == m) s.mem.misses } }
      let s := s.shcFill sl.val (line * 64) m.cls m.hint m.ctx m.write m.pf
      .next (s.shcEcc sl.val line ecc)

/-! ### Maintenance (R294) -/

/-- R294: HM_SHC_MAINT is written; GO starts a pass unless one runs. -/
def State.writeMaint (s : State) (v : Nat) : State :=
  let s := s.dw HM_SHC_MAINT (v % 2 ^ 11 / 2 * 2)
  if bit v 0 && s.mem.maint.isNone then { s with mem := { s.mem with maint := some (v % 2 ^ 11) } } else s

/-- HM_SHC_MAINT is written. -/
def execShcMaintGo (val : Word) (s : State) : Res := .next (s.writeMaint val.toNat)

/-- R294: the maintenance pass ends: the lines covered are written back, and invalidated with KIND 0. -/
def State.maintain (s : State) (v : Nat) : State :=
  let cover := fun (t : Tag) => bit (bits v 10 7) t.cls && (bit v 6 || bits v 5 2 == t.ctx)
  (s.mem.tags.filter (fun p => cover p.2)).foldl (fun s p =>
    let sl := p.1 / 131072
    if bit v 1 then
      if p.2.dirty then
        let s := (s.dinc (shcCtr HM_SHC_CNT_WB sl) 1).track sl (p.2.addr / 4) true
        let clean := fun (q : Nat × Tag) => if q.1 = p.1 then (q.1, { q.2 with dirty := false }) else q
        { s with mem := { s.mem with tags := s.mem.tags.map clean } }
      else s
    else s.shcEvict sl p.1 p.2) s

/-- The maintenance pass of all slices ends. -/
def execShcMaintDone (s : State) : Res :=
  match s.mem.maint with
  | none => waits s
  | some v =>
    let s := s.maintain v
    .next ({ s with mem := { s.mem with maint := none } }.dwf HM_SHC_MSTATUS 1 1 1)

/-! ### The tracker and the controllers (R621 to R629) -/

/-- R633: whether a stack serves requests. -/
def State.stackReady (s : State) (st : Nat) : Bool := bits (s.dr (stkReg HM_STK_STATUS st)) 1 0 == 2

/-- R617, R699: the clocked domain of the PHY channel group that serves a 256-byte block. -/
def phyDomain (block : Nat) : Nat :=
  let a := block * 256
  4 * (shcSlice a % 8) + Nat.xor (bits a 16 12) (bits a 28 24) / 8

/-- R621, R622: the oldest request that waits at slice sl takes a tracker entry and goes to its controller. -/
def execHbmRequest (sl : Sl) (s : State) : Res :=
  let held := (s.mem.track.filter (fun t => t.slice == sl.val && t.held)).length
  let mine := fun (t : Track) => t.slice == sl.val && !t.held && !(s.domStopped (phyDomain t.block))
  if s.mem.track.any mine && decide (held < 8192) && s.stackReady (sl.val % 8) && !s.mem.wiping then
    .next { s with mem := { s.mem with track := updFirst mine (fun t => { t with held := true, sent := true }) s.mem.track } }
  else waits s

/-- Word w of an outcome, as a word of a block. -/
def blockWord (block w : Nat) : Nat := block * 32 + w % 32

/-- R626 to R629: what the outcome of a transfer of a block does. -/
def State.hbmOutcome (s : State) (st block : Nat) (write : Bool) (o : HbmOutcome) : State :=
  match o with
  | .ok => s
  | .corrected => if write then s else s.dinc (stkReg HM_CNT_CE st) 1
  | .retried n => s.dinc (stkReg HM_CNT_IFRETRY st) n.val
  | .failed =>
    let s := s.dinc (stkReg HM_CNT_IFRETRY st) 2
    let s := s.stkErr (block * 256) 3
    if write then (upFrom (block * 32) 32).foldl (fun s w => s.hbmPoison w) s
    else { s with mem := { s.mem with cbad := (upFrom (block * 32) 32).foldl nsIns s.mem.cbad } }
  | .uncorrectable w =>
    if write then s
    else ((s.dinc (stkReg HM_CNT_UE st) 1).stkErr (blockWord block w * 8) 1).hbmPoison (blockWord block w)
  | .pathParity w =>
    if write then ((s.dinc (stkReg HM_CNT_PATHPAR st) 1).stkErr (blockWord block w * 8) 2).hbmPoison (blockWord block w)
    else { s with mem := { s.mem with cbad := nsIns s.mem.cbad (blockWord block w) } }

/-- R621, R623: the controller of stack st performs the i-th request it holds, the oldest of its block. -/
def execHbmRequestComplete (st : Stk) (i : Nat) (outcome : HbmOutcome) (s : State) : Res :=
  let mine := s.mem.track.filter (fun t => t.held && t.slice % 8 == st.val)
  match mine[i]? with
  | none => waits s
  | some t =>
    if (mine.take i).any (fun y => y.block == t.block) || s.mem.wiping || s.domStopped (phyDomain t.block) then waits s
    else
      let s := { s with mem := { s.mem with track := dropFirst (fun y => y == t) s.mem.track } }
      let s := s.dinc (stkReg (if t.write then HM_CNT_WR else HM_CNT_RD) st.val) 1
      .next (s.hbmOutcome st.val t.block t.write outcome)

/-- R617: the HBM address of line n of a stack, pseudo-channel by pseudo-channel. -/
def patrolAddr (st n : Nat) : Nat :=
  let half := 36 * 2 ^ 30 / 64
  let off := n % half * 64
  let hi := off / 256 * 4096
  let sl := st + 8 * (n / half)
  hi + place 11 8 (Nat.xor sl (Nat.xor (bits hi 23 20) (bits hi 35 32))) + off % 256

/-- R632: the patrol reads its next line, or skips it where the slice holds it. -/
def execHbmPatrolRead (st : Stk) (ecc : Ecc) (s : State) : Res :=
  if bits (s.dr HM_CTRL) 7 0 = 0 ∨ s.stackReady st.val = false ∨ s.mem.wiping then waits s
  else
    let r := s.dr (stkReg HM_STK_SCRUB st.val)
    let n := bits r 31 0
    let a := patrolAddr st.val n
    let lines := 72 * 2 ^ 30 / 64
    let s := s.dw (stkReg HM_STK_SCRUB st.val)
      (if n + 1 = lines then place 47 32 (bits r 47 32 + 1) else place 47 32 (bits r 47 32) + n + 1)
    if (s.shcWay (shcSlice a) a).isSome then .next s
    else
      match ecc with
      | .clean => .next s
      | .corrected _ => .next (s.dinc (stkReg HM_CNT_CE st.val) 1)
      | .uncorrectable w =>
        let b := a / 8 + w % 8
        .next (((s.dinc (stkReg HM_CNT_UE st.val) 1).stkErr (b * 8) 1).hbmPoison b)

/-- R631: the controller refreshes: nothing that software sees changes. -/
def execHbmRefresh (st : Stk) (s : State) : Res := whenever s (s.stackReady st.val) s

end Sys2Proof.Machine
end

