-- ==== Sys2Proof/Machine/CoreUnit.lean ====
section
/-! DEFINITION. Sys2Proof/Machine/CoreUnit.lean: what the control core does besides base instructions: issue to the
engines, fences, environment calls, interrupts and handlers, the answers to its misses, and the debug path's accesses
(R223 to R255, R285, R489, R738 to R747, R767). -/

namespace Sys2Proof.Machine

/-! ### Issue (R228 to R232) -/

/-- The unit of an engine instruction that the core issues; none for those it executes itself. -/
def EngOp.unit : EngOp → Option EngUnit
  | .tileCfg => some .tile | .tileLd => some .tile | .tileRel => some .tile
  | .mxLoad => some .array | .mxRun => some .array | .mxGauge => some .array
  | .vxChain => some .vector | .stPost => some .stream | .stResume => some .stream
  | .sySig => some .sync | .syWait => some .sync | .syWatch => some .sync | .syWaitinv => some .sync
  | .fenceEng => none | .fenceKern => none | .cacheInv => none

/-- The engine instruction at the pc that the core may execute now: its word and the lines its fetch missed. -/
def State.engAt (s : State) (c : Cl) (e : EngOp) : Option (Nat × List Nat) :=
  if (s.cl c).coreReady = false ∨ s.atBreak c then none
  else
    match s.fetch c with
    | .ok raw len ms =>
      match baseWord raw len with
      | some w => if engOp w = some e ∧ (s.cl c).core.awaits w = false then some (w, ms) else none
      | none => none
    | _ => none

/-- The operand values of an engine instruction, read at issue. -/
def EngOp.operands (e : EngOp) (k : CoreSt) (w : Nat) : Word × Word :=
  let r := e.regs w
  (k.get r.1, k.get r.2.1)

/-- R228, R229: instruction w joins the queue of unit u, which has room. -/
def Cluster.enqueue (k : Cluster) (u : EngUnit) (e : EngOp) (w : Nat) : Cluster :=
  let q := k.unit u
  let v := e.operands k.core w
  let n : QInsn := ⟨BitVec.ofNat 32 w, v.1, v.2, q.seq, k.tk⟩
  let rd := (e.regs w).2.2
  let core := if rd = 0 then k.core else { k.core with awaiting := nsIns k.core.awaiting rd }
  { k.setUnit u { q := q.q ++ [n], seq := (q.seq + 1) % 65536 } with tk := k.tk + 1, core := core }

/-- R228: the core issues an engine instruction, or stalls while the queue is full. -/
def State.issue (s : State) (c : Cl) (e : EngOp) (stall : Nat → Stall) : Res :=
  match s.engAt c e, e.unit with
  | some (w, ms), some u =>
    if 16 ≤ ((s.cl c).unit u).q.length then waits s
    else
      let s := (s.fillI c ms).mod c (fun k => k.enqueue u e w)
      let s := s.core c (fun k => { k with stall := stall (iRd w) })
      .next (s.retire c (s.nextPc c 4))
  | _, _ => waits s

/-- tile.cfg is issued. -/
def execTileCfg (c : Cl) (s : State) : Res := s.issue c .tileCfg (fun _ => .none)
/-- tile.ld is issued. -/
def execTileLd (c : Cl) (s : State) : Res := s.issue c .tileLd (fun _ => .none)
/-- tile.rel is issued. -/
def execTileRel (c : Cl) (s : State) : Res := s.issue c .tileRel (fun _ => .none)
/-- mx.load is issued. -/
def execMxLoad (c : Cl) (s : State) : Res := s.issue c .mxLoad (fun _ => .none)
/-- mx.run is issued. -/
def execMxRun (c : Cl) (s : State) : Res := s.issue c .mxRun (fun _ => .none)
/-- mx.gauge is issued. -/
def execMxGauge (c : Cl) (s : State) : Res := s.issue c .mxGauge (fun _ => .none)
/-- vx.chain is issued. -/
def execVxChain (c : Cl) (s : State) : Res := s.issue c .vxChain (fun _ => .none)
/-- st.post is issued. -/
def execStPost (c : Cl) (s : State) : Res := s.issue c .stPost (fun _ => .none)
/-- st.resume is issued. -/
def execStResume (c : Cl) (s : State) : Res := s.issue c .stResume (fun _ => .none)
/-- sy.sig is issued. -/
def execSySig (c : Cl) (s : State) : Res := s.issue c .sySig (fun _ => .none)
/-- sy.watch is issued. -/
def execSyWatchInstruction (c : Cl) (s : State) : Res := s.issue c .syWatch (fun _ => .none)
/-- sy.wait is issued: the core issues nothing more until the cue word is written (R232). -/
def execSyWait (c : Cl) (s : State) : Res := s.issue c .syWait (fun rd => .cue rd)
/-- sy.waitinv is issued. -/
def execSyWaitinv (c : Cl) (s : State) : Res := s.issue c .syWaitinv (fun rd => .cue rd)

/-! ### Fences and invalidation (R227, R252 to R254) -/

/-- An instruction that the core executes itself: it retires and stalls the core as f says, or is illegal. -/
def State.ownInsn (s : State) (c : Cl) (e : EngOp) (f : CoreSt → Nat → Nat → Option Stall) : Res :=
  match s.engAt c e with
  | none => waits s
  | some (w, ms) =>
    let s := s.fillI c ms
    match f (s.cl c).core w (s.cl c).tk with
    | none => .next (s.exception c xcIllegal (word w))
    | some st => .next ((s.core c (fun k => { k with stall := st })).retire c (s.nextPc c 4))

/-- R227, R252: fence.eng. -/
def execFenceEng (c : Cl) (s : State) : Res :=
  s.ownInsn c .fenceEng (fun k w tk =>
    let m := (k.get (iRs1 w)).toNat
    if m / 64 ≠ 0 then none else some (if m = 0 then .none else .fenceEng m tk))

/-- R253: fence.kern. -/
def execFenceKern (c : Cl) (s : State) : Res := s.ownInsn c .fenceKern (fun _ _ tk => some (.fenceKern tk))

/-- R254: cache.inv. -/
def execCacheInv (c : Cl) (s : State) : Res :=
  s.ownInsn c .cacheInv (fun k w _ =>
    let n := (k.get (iRs2 w)).toNat
    some (if n = 0 then .none else .cacheInv (k.get (iRs1 w)).toNat n))

/-- The core's stall ends; a core whose RUN was cleared meanwhile stops (R256). -/
def State.unstall (s : State) (c : Cl) : State :=
  let s := (s.core c (fun k => { k with stall := .none })).progressed c
  if (s.cl c).run then s else s.stopCore c

/-- R252: fence.eng completes. -/
def execFenceEngComplete (c : Cl) (s : State) : Res :=
  match (s.cl c).core.stall with
  | .fenceEng m tk => whenever s (s.unitsQuiet c m tk) (s.unstall c)
  | _ => waits s

/-- R250: EXIT's fence has completed: the code is stored and the core stops. -/
def State.exitNow (s : State) (c : Cl) (code : Nat) : State :=
  let s := s.noteEnd c { clus := c.val, exited := true, code := code }
  (s.stopCore c).core c (fun k => { k with exited := true, exitCode := BitVec.ofNat 32 code })

/-- R250, R253: fence.kern completes, or that of EXIT: every dirty line is written back. -/
def execFenceKernComplete (c : Cl) (s : State) : Res :=
  match (s.cl c).core.stall with
  | .fenceKern tk => whenever s (s.kernQuiet c tk) ((s.ccFlush c).unstall c)
  | .exit tk code => whenever s (s.kernQuiet c tk) (((s.ccFlush c).exitNow c code).progressed c)
  | _ => waits s

/-- R254: cache.inv completes. -/
def execCacheInvComplete (c : Cl) (s : State) : Res :=
  match (s.cl c).core.stall with
  | .cacheInv lo len => .next ((s.ccInv c (lineIn lo len)).unstall c)
  | _ => waits s

/-! ### Environment calls (R249, R250) -/

/-- The lines missed by fetching the ecall at the pc, when the core may execute it and a7 holds its number. -/
def State.ecallAt (s : State) (c : Cl) (p : Nat → Bool) : Option (List Nat) :=
  if (s.cl c).coreReady = false ∨ s.atBreak c then none
  else
    match s.fetch c with
    | .ok raw len ms =>
      let k := (s.cl c).core
      if baseWord raw len = some 0x00000073 ∧ !([10, 11, 17].any (fun r => k.awaiting.contains r)) ∧ p (k.get 17).toNat then
        some ms else none
    | _ => none

/-- A call is made: f is its effect, after the trap into the runtime and its return. -/
def State.ecall (s : State) (c : Cl) (p : Nat → Bool) (f : State → State) : Res :=
  match s.ecallAt c p with
  | none => waits s
  | some ms =>
    let s := (s.fillI c ms).core c (fun k => (k.trap 8 0).mret)
    .next (f (s.retire c (s.nextPc c 4)))

/-- R249: a call of no meaning. -/
def State.noCall (s : State) (c : Cl) : State := s.core c (fun k => k.set 10 allOnes)

/-- R250: EXIT: its fence.kern begins. -/
def execEcallExit (c : Cl) (s : State) : Res :=
  s.ecall c (· == 0) (fun s => s.core c (fun k => { k with stall := .exit (s.cl c).tk ((k.get 10).toNat % 2 ^ 32) }))

/-- R249: HANDLER. -/
def execEcallHandler (c : Cl) (s : State) : Res :=
  s.ecall c (· == 1) (fun s => s.core c (fun k => { k with handler := k.get 10, fwd := bits (k.get 11).toNat 4 0 }))

/-- R249: EVENT. -/
def execEcallEvent (c : Cl) (s : State) : Res :=
  s.ecall c (· == 3) (fun s =>
    let k := (s.cl c).core
    s.event (s.cl c).owner 3 OK s.timebase (leBytes 8 (k.get 10).toNat ++ leBytes 8 (k.get 11).toNat))

/-- R249: any other call. -/
def execEcallUnknown (c : Cl) (s : State) : Res := s.ecall c (fun n => decide (4 ≤ n)) (fun s => s.noCall c)

/-! ### Interrupts and handlers (R243 to R245) -/

/-- The PEND bits. -/
def Cluster.pendBits (k : Cluster) : Nat := bits (k.r CL_FLT_INFO) 8 4

/-- R244, R245: the status with which units of a mask end the kernel: the captured one if its unit is among them. -/
def Cluster.fltStatus (k : Cluster) (mask : Nat) : Nat :=
  let f := k.r CL_FLT_INFO
  if bit f 3 && bit mask (bits f 2 0) then bits f 31 16
  else
    match (List.range 5).find? (fun u => bit mask u) with
    | some u => amGet FAULT k.fltSt u
    | none => FAULT

/-- How a run of word accesses of the runtime came out. -/
inductive Words
  | ok (vs : List Word) (s : State)
  | fault (a : Nat) (s : State)
  | page (p a : Nat)
  | wait

/-- R245: store words at rising addresses as the program would. -/
def State.saveWords (s : State) (c : Cl) : Nat → List Word → Words
  | _, [] => .ok [] s
  | a, v :: vs =>
    match s.memStore (.core c) c (a % 2 ^ 64) 8 v.toNat .clean true with
    | .ok _ s => s.saveWords c (a + 8) vs
    | .fault s => .fault a s
    | .page p => .page p a
    | .miss _ _ => .wait
    | .wait => .wait
    | .host _ => .wait

/-- R245: load n words at rising addresses; a word of host memory is a free value (assumption 32). -/
def State.loadWords (s : State) (c : Cl) : Nat → Nat → Words
  | _, 0 => .ok [] s
  | a, n + 1 =>
    let go := fun (v : Word) (s : State) =>
      match s.loadWords c (a + 8) n with
      | .ok vs s => .ok (v :: vs) s
      | r => r
    match s.memLoad c (a % 2 ^ 64) 8 .clean true with
    | .ok v s => go (word v) s
    | .fault s => .fault a s
    | .page p => .page p a
    | .miss _ _ => .wait
    | .wait => .wait
    | .host _ => let r := s.free; go r.1 r.2

/-- R245: the program's handler is entered for cause n: pc and registers are saved below its sp. -/
def State.enterHandler (s : State) (c : Cl) (n : Nat) : Res :=
  let k := (s.cl c).core
  let base := ((k.get 2).toNat + 2 ^ 64 - 256) % 2 ^ 64
  if base % 8 ≠ 0 then .next (s.exception c xcStoreMis (word base))
  else
    match s.saveWords c base (k.pc :: (upFrom 1 31).map k.get) with
    | .fault a s => .next (s.exception c xcStore (word a))
    | .page p _ => .next (s.wantPage (s.cl c).owner p)
    | .wait => waits s
    | .ok _ s =>
      let pend := (s.cl c).pendBits
      .next (s.core c (fun k =>
        let k := (k.trap (word (2 ^ 63 + n)) 0).mret
        { (k.set 2 (word base)).set 10 (word n) with
          pc := k.handler, inHand := true, handPend := pend, area := word base, irqs := nsDel k.irqs n, step := false }))

/-- Whether cause n is pending (R243). -/
def Cluster.irqPending (k : Cluster) (n : Nat) : Bool := if n = 16 then k.pendBits != 0 else k.core.irqs.contains n

/-- R243 to R245, R738: pending cause 16 + i is taken. -/
def execInterruptEntry (c : Cl) (cause : Fin 5) (s : State) : Res :=
  let n := 16 + cause.val
  let k := s.cl c
  if k.coreStopped || k.coreHalted || k.wiping || k.core.inHand || !(k.irqPending n) then waits s
  else if k.core.handler ≠ 0 ∧ bit k.core.fwd cause.val then
    if k.core.stall = .none ∧ k.core.awaiting.isEmpty then s.enterHandler c n else waits s
  else if n = 16 then .next (s.endKernel c (k.fltStatus k.pendBits))
  else .next (s.core c (fun k => { k with irqs := nsDel k.irqs n }))

/-- R245: HRET: the saved pc and registers come back; the kernel ends if a PEND bit of the entry is still set. -/
def execEcallHret (c : Cl) (s : State) : Res :=
  if (s.cl c).core.inHand = false then s.ecall c (· == 2) (fun s => s.noCall c)
  else
    match s.ecallAt c (· == 2) with
    | none => waits s
    | some ms =>
      let s := (s.fillI c ms)
      let base := (s.cl c).core.area.toNat
      match s.loadWords c base 32 with
      | .fault a s => .next (s.exception c xcLoad (word a))
      | .page p a => .next (s.stallPage c p xcLoad (word a))
      | .wait => waits s
      | .ok vs s =>
        let s := s.core c (fun k => (k.trap 8 0).mret)
        let s := (s.retire c (vs.headD 0)).core c (fun k =>
          { (List.range 32).foldl (fun (k : CoreSt) i => k.set i (vs.getD i 0)) k with inHand := false })
        let m := Nat.land (s.cl c).core.handPend (s.cl c).pendBits
        .next (if m = 0 then s else s.endKernel c ((s.cl c).fltStatus m))

/-! ### Answers to the core's accesses (R285, R489, R767) -/

/-- R285, R293: one use of a line that has come in. -/
def State.useLine (s : State) (c : Cl) (u : MissUse) : State :=
  match u with
  | .load rd n signed a pc =>
    match (s.cl c).ccLine (a / 64) with
    | none => s
    | some l =>
      if (s.cl c).coreStopped then s
      else if bit l.bad (a % 64 / 8) then (s.core c (fun k => { k with pc := pc })).exception c xcLoad (word a)
      else s.wrRd c rd (extend n signed (fieldB l.data (a % 64) n))
  | .store a bs pc =>
    match (s.cl c).ccLine (a / 64) with
    | none => s
    | some l =>
      if bs.length ≠ 8 ∧ bit l.bad (a % 64 / 8) then
        (if (s.cl c).coreStopped then s else (s.core c (fun k => { k with pc := pc })).exception c xcStore (word a))
      else s.ccStore c a bs

/-- An access whose line can no longer be read, its page having left the context's space, faults. -/
def State.useLost (s : State) (c : Cl) (u : MissUse) : State :=
  if (s.cl c).coreStopped then s
  else
    match u with
    | .load _ _ _ a pc => (s.core c (fun k => { k with pc := pc })).exception c xcLoad (word a)
    | .store a _ pc => (s.core c (fun k => { k with pc := pc })).exception c xcStore (word a)

/-- R285, R290, R295: a missed line comes in: it is allocated, its uses are served in order, and after a demand miss the
prefetcher may go ahead. -/
def execClusterCacheMissFill (c : Cl) (line : Nat) (ecc : Ecc) (s : State) : Res :=
  match (s.cl c).misses.find? (fun m => m.line == line) with
  | none => waits s
  | some m =>
    let own := (s.cl c).owner
    let t := s.mod c (fun k => { k with misses := k.misses.filter (fun y => y.line ≠ line) })
    match s.translate own (gOff (line * 64)) with
    | .absent p => if m.uses.isEmpty then .next t else .next (s.wantPage own p)
    | .outside => .next (m.uses.foldl (fun s u => s.useLost c u) t)
    | .at_ p _ =>
      let t := t.shcEcc (shcSlice p) (p / 64) ecc
      let pf := m.uses.isEmpty
      let t := t.ccFill c line 0 (if pf then 0 else 1) pf
      let t := m.uses.foldl (fun s u => s.useLine c u) t
      .next (if pf then t else t.prefetch c line)

/-- R489: the page that the core waits for is there and its access is made, or it cannot be brought in and faults. -/
def execCorePageInResume (c : Cl) (broughtIn : Bool) (s : State) : Res :=
  match (s.cl c).core.stall with
  | .page p cause a =>
    let t := s.core c (fun k => { k with stall := .none })
    if broughtIn then
      (match s.translate (s.cl c).owner (p * 2097152) with
       | .absent _ => waits s
       | _ => if (t.cl c).run then t.coreGo c .clean else .next (t.stopCore c))
    else .next (t.exception c cause a)
  | _ => waits s

/-- R603, R604, R767: the completion of a core load from host memory: its data, or an error. -/
def execHostReadCompletion (c : Cl) (data : Word) (fault : Bool) (s : State) : Res :=
  match (s.cl c).core.stall with
  | .hostRead rd n signed a len =>
    if s.mayMaster (s.cl c).owner = false then waits s
    else
      let t := s.core c (fun k => { k with stall := .none })
      if fault then .next (t.exception c xcLoad (word (3 * 2 ^ 60 + s.chip * 2 ^ 48 + a)))
      else
        .next ((t.put c rd (extend n signed (data.toNat % 2 ^ (8 * n))) (t.nextPc c len)).unstall c)
  | _ => waits s

/-! ### Debug accesses (R742, R743) and hangs (R746, R747) -/

/-- An access of the debug path failed: ERR. -/
def State.dbgErr (s : State) : State := { s.dwf MG_DBG_CSEL 16 16 1 with readData := 0 }

/-- R742: the core register n. -/
def CoreSt.dbgReg (k : CoreSt) (n : Nat) : Option Word :=
  if n = 0 then some k.pc
  else if n < 32 then some (k.get n)
  else match n with
    | 32 => some k.mcause | 33 => some k.mepc | 34 => some k.mtval | 35 => some k.mstatus
    | 36 => some (if k.user then 0 else 3)
    | _ => none

/-- R742: write core register n; 36 is read-only. -/
def CoreSt.dbgSet (k : CoreSt) (n : Nat) (v : Word) : CoreSt :=
  if n = 0 then { k with pc := v }
  else if n < 32 then k.set n v
  else match n with
    | 32 => { k with mcause := v } | 33 => { k with mepc := v } | 34 => { k with mtval := v } | 35 => { k with mstatus := v }
    | _ => k

/-- R734, R742: MG_DBG_CDATA is read or written. -/
def State.dbgCdata (s : State) (wr : Option Word) : State :=
  let sel := s.dr MG_DBG_CSEL
  let n := bits sel 13 8
  match toCl (bits sel 5 0) with
  | none => s.dbgErr
  | some c =>
    let k := s.cl c
    match wr with
    | none =>
      if s.debugOpen = false then s.dbgErr
      else
        match k.core.dbgReg n with
        | some v => if k.coreState = 2 ∨ k.coreState = 3 then { s with readData := v } else s.dbgErr
        | none => s.dbgErr
    | some v =>
      if s.debugOpen = false then s.denied
      else if k.coreState = 2 ∧ n ≤ 36 then s.core c (fun k => k.dbgSet n v)
      else s.dbgErr

/-- MG_DBG_CDATA is accessed. -/
def execMgDbgCdataAccess (wr : Option Word) (s : State) : Res := .next (s.dbgCdata wr)

/-- R743: a load of the debug path. A page not resident, and host memory, are not waited for: the load fails. -/
def State.dbgLoad (s : State) (c : Cl) (a : Nat) : State :=
  match s.memLoad c a 8 .clean true with
  | .ok v s => { s with readData := word v }
  | .host _ => let r := s.free; { r.2 with readData := r.1 }
  | _ => s.dbgErr

/-- R743: a store of the debug path. -/
def State.dbgStore (s : State) (c : Cl) (a v : Nat) : State :=
  match s.memStore .debugPath c a 8 v .clean true with
  | .ok _ s => s
  | _ => s.dbgErr

/-- R734, R743: MG_DBG_MDATA is read or written. -/
def State.dbgMdata (s : State) (wr : Option Word) : State :=
  let a := s.dr MG_DBG_MADDR
  match toCl (bits (s.dr MG_DBG_CSEL) 5 0) with
  | none => s.dbgErr
  | some c =>
    let ok := decide ((s.cl c).coreState = 2) && a % 8 == 0
    match wr with
    | none => if s.debugOpen && ok then s.dbgLoad c a else s.dbgErr
    | some v => if s.debugOpen = false then s.denied else if ok then s.dbgStore c a v.toNat else s.dbgErr

/-- MG_DBG_MDATA is accessed. -/
def execMgDbgMdataAccess (wr : Option Word) (s : State) : Res := .next (s.dbgMdata wr)

/-- R747: a cluster has made no progress for HANGT milliseconds. -/
def execHangDetect (c : Cl) (s : State) : Res :=
  let t := bits (s.dr MG_DBG_HANG) 15 0
  let k := s.cl c
  if t = 0 ∨ k.hung ∨ k.coreState = 0 ∨ s.timebase < k.hangAt + 1000000 * t then waits s
  else
    let s := (s.mod c (fun k => { k with hung := true })).dinc MG_DBG_CNT_HANG 1
    .next (s.logErr { source := 0x15, cls := INFO, cause := 1, unit := c.val, ctx := some k.owner, info := word k.coreStatus })

end Sys2Proof.Machine
end

