-- ==== Sys2Proof/Machine/Handshake.lean ====
section
/-! DEFINITION. Sys2Proof/Machine/Handshake.lean: the mutual-attestation handshake of links and management sessions
(R675, R686 to R689). What the published algorithms compute stands for itself (assumption 16). -/

namespace Sys2Proof.Machine

/-! ### Signatures and certificates (R663, R675) -/

/-- Key numbers of Config.sign and Config.derive. -/
def keyIdentity : Nat := 0
def keyAttest : Nat := 1
def useEcdhPub : Nat := 10
def useEcdh : Nat := 11
def useHsKey : Nat := 12
def useSalt : Nat := 13
def useFinLow : Nat := 14
def useFinHigh : Nat := 15

/-- The bytes from which the attestation key pair is derived: FWMEAS, LCSTATE, floor (R665). -/
def Security.attestCtx (k : Security) : List Byte := leBytes 32 k.fwMeas.toNat ++ leBytes 1 k.lc ++ leBytes 1 k.floor

/-- The signature pair of the attestation key pair over a message (R663, R665). -/
def Security.attestSign (k : Security) (m : List Byte) : List Byte := Config.sign keyAttest (k.attestCtx ++ m)

/-- The key digest of the device's attestation key pair: that of the keys in its attestation certificate (R664). -/
def certKeyDigest (cert : List Byte) : List Byte := leBytes 32 (Config.sha3 (sliceB cert 80 1984)).toNat

/-- R675: the first 2,064 bytes of a certificate, and its signature pair by key pair k over them. -/
def mkCert (kind lc : Nat) (issuer fw : List Byte) (floor : Nat) (pub : List Byte) (k : Nat) : List Byte :=
  let m := leBytes 2 1 ++ leBytes 1 kind ++ leBytes 1 lc ++ leBytes 8 (Config.fuse 5).toNat ++ issuer ++ fw ++ leBytes 1 floor
    ++ leBytes 3 0 ++ sliceB pub 0 1984
  m ++ sliceB (Config.sign k m) 0 3373 ++ leBytes 3 0

/-- R675: the identity certificate, issued by the Milaro root of slot 0. -/
def idCert : List Byte :=
  mkCert 1 0xFF (leBytes 32 (Config.fuse 0).toNat) (List.replicate 32 0) 0 (Config.pub keyIdentity []) 2

/-- The attestation certificate of a chain of two. -/
def attCert (certs : List Byte) : List Byte := sliceB certs 5440 5440

/-- R675: whether a chain of identity and attestation certificate is valid: kinds and zero fields, each issuer's digest, each
signature pair, and a root slot that is not revoked. -/
def State.chainValid (s : State) (certs : List Byte) : Bool :=
  let id := sliceB certs 0 5440
  let at_ := attCert certs
  let rootrev := s.sec.rootRev
  let form := fun (c : List Byte) (k : Nat) => fieldB c 0 2 == 1 && fieldB c 2 1 == k && fieldB c 77 3 == 0
  let issued := fun (pub : List Byte) (c : List Byte) => Config.verify pub c
  form id 1 && form at_ 2 && fieldB at_ 12 32 == leNat (certKeyDigest id) && issued (sliceB id 80 1984) at_
    && (List.range 4).any (fun k => !(bit rootrev k) && fieldB id 12 32 == (Config.fuse k).toNat
        && issued (leBytes 32 (Config.fuse k).toNat) id)

/-! ### The messages (R687) -/

/-- What a step of the handshake answers: the messages to send, the step that failed, and whether it is complete. -/
structure HsOut where
  hs    : Handshake
  send  : List (Nat × List Byte) := []
  fail  : Option Nat := none
  sig   : Bool := false
  done  : Bool := false
  deriving DecidableEq, Repr

/-- Content of an own message, or of the peer's, in the transcript. -/
def Handshake.msg (h : Handshake) (n : Nat) (own : Bool) : List Byte :=
  match h.msgs.find? (fun m => m.1 == n && m.2.1 == own) with | some m => m.2.2 | none => []

/-- The chip number that the peer's HELLO gives. -/
def Handshake.peer (h : Handshake) : Nat := fieldB (h.msg 1 false) 0 2

/-- The transcript: messages 1 to 4 in order, the low end's first. -/
def Handshake.transcript (h : Handshake) (low : Bool) : List Byte :=
  h.msg 1 low ++ h.msg 1 (!low) ++ h.msg 2 low ++ h.msg 2 (!low) ++ h.msg 3 low ++ h.msg 4 (!low)

/-- The bytes from which the keys of the handshake are derived: the ECDH secret and the transcript. -/
def Handshake.secretOf (h : Handshake) (low : Bool) : List Byte :=
  let peer := if low then h.msg 4 false else h.msg 3 false
  leBytes 32 (Config.derive useEcdh (leBytes 32 h.secret.toNat ++ sliceB peer 0 97)).toNat
    ++ leBytes 32 (Config.sha3 (h.transcript low)).toNat

/-- The HMAC of a finished message. -/
def Handshake.finished (h : Handshake) (low : Bool) (use : Nat) : List Byte :=
  leBytes 32 (Config.derive use (h.secretOf low)).toNat

/-- R687: a handshake begins with HELLO: chip number, SERIAL, nonce, key digest. -/
def State.hsStart (s : State) : HsOut × State :=
  let n := s.draw
  let k := n.2.draw
  let hello := leBytes 2 s.chip ++ leBytes 8 (Config.fuse 5).toNat ++ leBytes 32 n.1.toNat ++ certKeyDigest (attCert s.sec.certs)
  ({ hs := { expect := 1, last := s.timebase, msgs := [(1, true, hello)], secret := k.1 }, send := [(1, hello)] }, k.2)

/-- R688: whether the peer's certificates pass: chain, SERIAL, life-cycle state, floor. -/
def State.peerPass (s : State) (hello certs : List Byte) : Bool :=
  let at_ := attCert certs
  let pol := s.dr SC_LINKPOL
  s.chainValid certs && fieldB at_ 4 8 == fieldB hello 2 8
    && (bit pol 7 == false || fieldB at_ 3 1 == s.lcState) && decide (bits pol 6 0 ≤ fieldB at_ 76 1)

/-- R687, R688: the peer's message n is taken, n being the one expected. -/
def State.hsTake (s : State) (h : Handshake) (n : Nat) (body : List Byte) : HsOut :=
  let h := { h with msgs := h.msgs ++ [(n, false, body)], last := s.timebase, part := [], frag := 0 }
  let low := decide (s.chip < h.peer)
  let own := fun (h : Handshake) (n : Nat) (b : List Byte) => { h with msgs := h.msgs ++ [(n, true, b)] }
  let peerPub := sliceB (attCert (h.msg 2 false)) 80 1984
  let myPub := leBytes 97 (Config.derive useEcdhPub (leBytes 32 h.secret.toNat)).toNat
  let sign := fun (h : Handshake) => s.sec.attestSign (leBytes 32 (Config.sha3 (h.transcript low)).toNat)
  let checks := fun (h : Handshake) (sig : List Byte) =>
    Config.verify peerPub (leBytes 32 (Config.sha3 (h.transcript low)).toNat ++ sig)
  match n with
  | 1 => { hs := { own h 2 s.sec.certs with expect := 2 }, send := [(2, s.sec.certs)] }
  | 2 =>
    if s.peerPass (h.msg 1 false) body = false then { hs := h, fail := some 2, sig := true }
    else if low then { hs := { own h 3 myPub with expect := 4 }, send := [(3, myPub)] }
    else { hs := { h with expect := 3 } }
  | 3 =>
    let h' := own h 4 myPub
    { hs := { h' with expect := 5 }, send := [(4, myPub ++ sign h')] }
  | 4 =>
    let h' := { h with msgs := h.msgs.filter (fun m => !(m.1 == 4)) ++ [(4, false, sliceB body 0 97)] }
    if checks h' (body.drop 97) = false then { hs := h, fail := some 4, sig := true }
    else { hs := { h' with expect := 6 }, send := [(5, sign h' ++ h'.finished low useFinLow)] }
  | 5 =>
    let k := body.length - 32
    if checks h (body.take k) = false || body.drop k != h.finished low useFinLow then { hs := h, fail := some 5, sig := true }
    else { hs := { h with expect := 0 }, send := [(6, h.finished low useFinHigh)], done := true }
  | _ =>
    if body != h.finished low useFinHigh then { hs := h, fail := some 6 }
    else { hs := { h with expect := 0 }, done := true }

/-- The key that a complete handshake yields, and its SALT (R687). -/
def Handshake.key (h : Handshake) (low : Bool) : BitVec 256 × BitVec 32 :=
  (Config.derive useHsKey (h.secretOf low), BitVec.ofNat 32 (Config.derive useSalt (h.secretOf low)).toNat)

/-- R688: a handshake failed at a message: captured, counted and recorded. sig: a signature pair failed. -/
def State.hsFailed (s : State) (step : Nat) (sig : Bool) : State :=
  let s := (s.dcap SC_ERR 31 (5 + place 5 3 step)).dinc SC_CNT_HSFAIL 1
  let s := if sig then s.dinc SC_CNT_SIGFAIL 1 else s
  s.logErr { source := 0x10, cls := LOST, cause := 5, info := word (s.dr SC_ERR) }

end Sys2Proof.Machine
end

