-- ==== Sys2Proof/Machine/LinkPort.lean ====
section
/-! DEFINITION. Sys2Proof/Machine/LinkPort.lean: one port: frames as bytes, sending, acknowledgement and resending,
credits, going up and down (R445 to R467, R475 to R479). -/

namespace Sys2Proof.Machine

/-! ### Frames as bytes (R450 to R453) -/

/-- The header and payload of 512 bytes. -/
def frameOf (b : List Byte) : Frame :=
  let b0 := fieldB b 0 1
  let b1 := fieldB b 1 1
  { ty := bits b0 2 0, vc := bits b0 4 3, cmp := bit b0 5, bfirst := bit b0 6, blast := bit b0 7, keyid := bits b1 0 0
    dir := bits b1 1 1, xend := bit b1 2, seq := fieldB b 4 6, ack := fieldB b 10 3, tf := fieldB b 14 14
    data := sliceB b 28 (min (fieldB b 2 2) 464) }

/-- R453: the channel of a routed operation. -/
def opVc : Nat → Nat
  | 3 => 3 | 4 => 2 | 5 => 3 | 8 => 3 | _ => 1

/-- R453: the AMO functions that an ATOMIC frame may name. -/
def atomicFunct (f : Nat) : Bool := [0x00, 0x01, 0x04, 0x08, 0x0C, 0x10, 0x14, 0x18, 0x1C].contains f

/-- R479: the byte offset of the first field of a frame that breaks a rule. -/
def badField (b : List Byte) : Option Nat :=
  let f := frameOf b
  let plen := fieldB b 2 2
  if 5 ≤ f.ty then some 0
  else if f.ty = 1 ∧ 9 ≤ f.op then some 19
  else if f.ty ≠ 0 ∧ f.cmp ∧ 2 ≤ f.vc then some 0
  else if f.ty = 1 ∧ opVc f.op ≠ f.vc then some 0
  else if bits (fieldB b 1 1) 7 3 ≠ 0 then some 1
  else if 464 < plen ∨ plen % 8 ≠ 0 then some 2
  else if fieldB b 13 1 ≠ 0 then some 13
  else if f.ty = 0 ∧ (6 ≤ bits f.tf 3 0 ∨ bits f.tf 111 4 ≠ 0) then some 14
  else if f.ty = 1 ∧ bits f.tf 111 109 ≠ 0 then some 27
  else if (f.ty = 2 ∨ f.ty = 3) ∧ bits f.tf 111 108 ≠ 0 then some 27
  else if f.ty = 4 ∧ (3 ≤ f.bop ∨ bits f.tf 111 36 ≠ 0) then some 18
  else if f.ty = 1 ∧ f.op = 1 ∧ (atomicFunct (fieldB f.data 0 1) = false ∨ fieldB f.data 1 7 ≠ 0) then some 28
  else none

/-! ### Sending -/

/-- LK_LINK_STATUS of link k. -/
def linkReg (k : Nat) : Nat := LK_LINK_STATUS + 0x100 * k

/-- CURKEY of the link of port p. -/
def State.curKey (s : State) (p : Nat) : Nat := bits (s.dr (linkReg (s.linkOf p))) 2 2

/-- R451: ACK as port p sends it. -/
def PortSt.ackField (q : PortSt) : Nat := (q.expSeq + 2 ^ 24 - 1) % 2 ^ 24

/-- R457: send a link control frame. -/
def State.sendCtl (s : State) (p ctype : Nat) (data : List Byte) : State :=
  let key := s.curKey p
  s.modPort p (fun q => { q with
    ctlSeq := (q.ctlSeq + 1) % 2 ^ 48, keyed := (q.keyed.1, q.keyed.2 + 1)
    wire := q.wire ++ [{ ty := 0, keyid := key, seq := q.ctlSeq, ack := q.ackField, tf := ctype, data := padTo 8 data }] })

/-- R459: send NACK with a SEQ. -/
def State.sendNack (s : State) (p seq : Nat) : State :=
  ((s.sendCtl p 1 (leBytes 6 seq)).dinc (portReg LK_CNT_NACKTX p) 1).modPort p (fun q => { q with nackAt := some s.timebase })

/-- R456: send CREDIT with the counts of freed places. -/
def State.sendCredit (s : State) (p : Nat) : State :=
  let q := s.port p
  (s.sendCtl p 2 ((List.range 4).flatMap (fun v => leBytes 4 (amGet 0 q.freed v % 2 ^ 32)))).modPort p (fun q =>
    { q with credAt := q.freed, freeAt := none })

/-- R457, R463: send PORTSTATE for port n on port p. -/
def State.sendPortstate (s : State) (p n : Nat) : State :=
  s.sendCtl p 5 (leBytes 8 n ++ leBytes 8 (((s.port n).expSeq + 2 ^ 48 - 1) % 2 ^ 48) ++ leBytes 2 s.chip)

/-- R456: whether port p holds credit for a channel. -/
def PortSt.credit (q : PortSt) (vc : Nat) : Bool :=
  match q.share with
  | none => false
  | some sh => decide ((amGet 0 q.sent vc + 2 ^ 32 - amGet 0 q.ret vc) % 2 ^ 32 < sh.getD vc 0)

/-- Whether two data frames are of one flow (R407). -/
def sameFlow (a b : Frame) : Bool :=
  a.ty == b.ty && a.vc == b.vc && (if a.ty = 1 then a.src == b.src && a.dst == b.dst
    else if a.ty = 4 then a.src == b.src && a.dir == b.dir else a.pos == b.pos && a.piece == b.piece && a.dir == b.dir)

/-- R463: whether a frame's flow waits for PORTSTATE. -/
def State.flowHeld (s : State) (p : Nat) (f : Frame) : Bool :=
  (s.link (s.linkOf p)).orphans.any (fun o => (o.frames ++ o.queued).any (sameFlow f))

/-- Whether port p may begin a data frame: its state, replay room, credit, the key's limit, the block rule and R463. -/
def State.maySend (s : State) (p : Nat) (f : Frame) : Bool :=
  let q := s.port p
  let st := s.portState p
  (st == 4 || (st == 3 && f.ty == 1 && f.slice == 0 && f.vc == 3))
    && decide (q.replay.length < 4096) && decide (q.keyed.1 < 2 ^ 44) && q.resend.isEmpty && q.credit f.vc
    && (f.cmp && !f.bfirst) == q.inBlock && !(s.flowHeld p f)

/-- R460, R477: a data frame goes out for the first time under the next SEQ. -/
def State.sendData (s : State) (p : Nat) (f : Frame) : State :=
  let key := s.curKey p
  let k := s.linkOf p
  let q := s.port p
  let f := { f with seq := q.nextSeq, ack := q.ackField, keyid := key }
  let s := s.modPort p (fun q => { q with
    nextSeq := (q.nextSeq + 1) % 2 ^ 48, replay := q.replay ++ [f], wire := q.wire ++ [f]
    sent := amSet 0 q.sent f.vc (amGet 0 q.sent f.vc + 1), keyed := (q.keyed.1 + 1, q.keyed.2)
    ackAt := if q.replay.isEmpty then s.timebase else q.ackAt, inBlock := f.cmp && !f.blast })
  let s := s.dinc (portReg LK_CNT_TXFRAME p) 1
  if (s.port p).keyed.1 = 2 ^ 43 then
    ((s.dwf (linkReg k) 5 5 1).dcap LK_ERR 16 (p + place 6 3 7)).linkEvent p 7
  else s

/-- The place in the sending queue of the next frame that port p may begin: the first of its channel, with credit. -/
def State.nextTx (s : State) (p : Nat) : Option (Nat × Frame) :=
  let q := (s.port p).txq
  (((List.range q.length).zip q).find? (fun x =>
    !((q.take x.1).any (fun y => y.vc == x.2.vc)) && s.maySend p x.2))

/-- R456, R460: port p begins a data frame: the oldest to be resent, or the next one. -/
def execDataFrameTransmit (p : Port) (s : State) : Res :=
  let q := s.port p.val
  let st := s.portState p.val
  if (st ≠ 3 ∧ st ≠ 4) ∨ q.stompFrom.isSome ∨ s.domStopped (32 + p.val) then waits s
  else
    match q.resend with
    | r :: t =>
      match q.replay.find? (fun f => f.seq == r) with
      | some f =>
        let key := s.curKey p.val
        let f' := { f with ack := q.ackField, keyid := key }
        if 2 ^ 44 ≤ q.keyed.1 then waits s
        else .next ((s.modPort p.val (fun q =>
          { q with resend := t, wire := q.wire ++ [f'], keyed := (q.keyed.1 + 1, q.keyed.2) })).dinc
            (portReg LK_CNT_RESEND p.val) 1)
      | none => .next (s.modPort p.val (fun q => { q with resend := t }))
    | [] =>
      match s.nextTx p.val with
      | none => waits s
      | some x => .next ((s.modPort p.val (fun q => { q with txq := q.txq.eraseIdx x.1 })).sendData p.val x.2)

/-- R449: port p has no frame to send and sends IDLE. -/
def execIdleTransmit (p : Port) (s : State) : Res :=
  let st := s.portState p.val
  whenever s ((st == 2 || st == 3 || st == 4) && (s.port p.val).resend.isEmpty && (s.nextTx p.val).isNone && !(s.domStopped (32 + p.val)))
    (s.sendCtl p.val 0 [])

/-! ### The receive buffer (R455, R456) -/

/-- R456: places of channels are freed. -/
def State.freePlaces (s : State) (p : Nat) (vcs : List Nat) : State :=
  if vcs.isEmpty then s
  else
    let s := s.modPort p (fun q => { q with
      freed := vcs.foldl (fun m v => amSet 0 m v (amGet 0 m v + 1)) q.freed
      freeAt := some (q.freeAt.getD s.timebase) })
    let q := s.port p
    if (List.range 4).any (fun v => decide (64 ≤ amGet 0 q.freed v - amGet 0 q.credAt v)) then s.sendCredit p else s

/-- R455: frames of which both parts are done leave the receive buffer. -/
def State.settle (s : State) (p : Nat) : State :=
  let above := fun (r : RxFrame) => r.taken && r.fwd.isNone
  let gone := ((s.port p).rx.filter (fun r => above r && !r.again && !r.f.stomp)).map (fun r => r.f.vc)
  (s.modPort p (fun q => { q with rx := q.rx.filter (fun r => !(above r)) })).freePlaces p gone

/-- R456: 100 ns after a place was freed, CREDIT is sent. -/
def execCreditTimer (p : Port) (s : State) : Res :=
  match (s.port p.val).freeAt with
  | some t => whenever s (decide (t + 100 ≤ s.timebase)) (s.sendCredit p.val)
  | none => waits s

/-! ### Going up and down (R445, R446, R463) -/

/-- R445: port p takes a state; its lasers are off in OFF and HELD. -/
def State.setPort (s : State) (p st : Nat) : State :=
  (s.dwf (portReg LK_PORT_STATUS p) 2 0 st).dwf (portReg LK_PORT_STATUS p) 3 3 (b2n (st != 0 && st != 5))

/-- Whether a port is in OPEN, SESSION or KEYED. -/
def State.portLive (s : State) (p : Nat) : Bool := let st := s.portState p; st == 2 || st == 3 || st == 4

/-- A link without a live port is down, and its keys and handshake are gone. -/
def State.linkDown (s : State) (k : Nat) : State :=
  (s.modLink k (fun _ => {})).dw (linkReg k) (s.dr (linkReg k) / 32 % 2 * 32)

/-- R463: what becomes of the frames of a port that is left: held for PORTSTATE if the link has another KEYED port, and
dropped if not. -/
def State.orphan (s : State) (p : Nat) : State :=
  let k := s.linkOf p
  let q := s.port p
  let others := (s.linkPorts k).filter (fun n => n != p && s.portState n == 4)
  let s := s.modPort p (fun q => { q with replay := [], resend := [], tries := (0, 0), inBlock := false, stompFrom := none
                                          block := [], nackAt := none, malSeq := none })
  if others.isEmpty then
    if q.replay.isEmpty then s
    else (s.dinc (portReg LK_CNT_PORTLOSS p) q.replay.length).linkErr p 8 0 LOST
  else
    let s := (s.modPort p (fun q => { q with txq := [] })).modLink k (fun l =>
      { l with orphans := l.orphans ++ [⟨p, q.replay, q.txq⟩] })
    others.foldl (fun s n => s.sendPortstate n p) s

/-- A port leaves OPEN, SESSION or KEYED for a state. -/
def State.portDown (s : State) (p st : Nat) : State :=
  if s.portLive p then
    let k := s.linkOf p
    let s := (s.setPort p st).dwf (portReg LK_PORT_STATUS p) 10 10 1
    let s := s.orphan p
    let s := { s with ports := s.ports.map (fun q => if q.stompFrom = some p then { q with stompFrom := none } else q) }
    if (s.linkPorts k).any s.portLive then s else s.linkDown k
  else s.setPort p st

/-- R445: EN of port p is set: OFF goes to TRAIN. In the standalone role every port stays OFF. -/
def State.portEn (s : State) (p : Nat) : State :=
  let s := s.dwf (portReg LK_PORT_CTRL p) 0 0 1
  if s.portState p = 0 ∧ s.role ≠ 0 ∧ (s.port p).offAt = none ∧ s.err.dead = false then s.setPort p 1 else s

/-- EN of port p is set. -/
def execPortEnSet (p : Port) (s : State) : Res := .next (s.portEn p.val)

/-- EN of port p is cleared: it goes to OFF. -/
def State.portOff (s : State) (p : Nat) : State := (s.dwf (portReg LK_PORT_CTRL p) 0 0 0).portDown p 0

/-- EN of port p is cleared. -/
def execPortEnClear (p : Port) (s : State) : Res := .next (s.portOff p.val)

/-- R446: a lane of port p loses signal, lock or alignment. -/
def execLaneLoss (p : Port) (lane : Fin 64) (s : State) : Res :=
  if s.portLive p.val then
    let s := s.dwf (portReg LK_PORT_STATUS p.val) 9 4 lane.val
    let s := s.linkErr p.val 5 0 LOST
    .next (s.portDown p.val (if bit (s.dr (portReg LK_PORT_CTRL p.val)) 1 then 1 else 5))
  else waits s

/-- R462: port p is held down: error record and link event. -/
def State.holdPort (s : State) (p cause : Nat) : State := ((s.linkErr p cause 0 LOST).linkEvent p cause).portDown p 5

/-! ### The handshake on a link (R476, R477, R686 to R688, R412) -/

/-- R686: send a handshake message in fragments. -/
def State.sendHs (s : State) (p : Nat) (m : Nat × List Byte) : State :=
  let parts := if m.2.isEmpty then [[]] else cut 456 m.2
  ((List.range parts.length).zip parts).foldl (fun s x =>
    s.sendCtl p 4 (leBytes 1 m.1 ++ leBytes 1 x.1 ++ leBytes 2 parts.length ++ leBytes 4 m.2.length ++ sliceB x.2 0 456)) s

/-- The random source fails its health test: what needs random bytes waits (R666). -/
def State.rngFail (s : State) : Bool := bit (s.dr SC_STATUS) 0

/-- R687: the handshake of link k begins on port p. -/
def State.beginHs (s : State) (k p : Nat) : State :=
  let r := s.hsStart
  let s := (r.2.modLink k (fun l => { l with hs := r.1.hs, hsPort := p })).dwf (linkReg k) 1 0 1
  r.1.send.foldl (fun s m => s.sendHs p m) s

/-- R445, R456, R476, R477: the lanes of port p lock: it opens, announces its shares, and joins its link's keys, or begins the
handshake. -/
def execPortTrainComplete (p : Port) (s : State) : Res :=
  if s.portState p.val ≠ 1 then waits s
  else
    let p := p.val
    let k := s.linkOf p
    let v := s.dr (portReg LK_PORT_VCBUF p)
    let s := (s.setPort p 2).modPort p (fun q => { q with
      vcbuf := v, freed := [], credAt := [], freeAt := none, share := none, ret := [], sent := [], fresh := true, swRx := false })
    let s := s.sendCtl p 2 ((List.range 4).flatMap (fun i => leBytes 4 (bits v (12 * i + 11) (12 * i))))
    let st := bits (s.dr (linkReg k)) 1 0
    .next (if st = 3 then s.sendPortstate p p
      else if st = 2 then s.setPort p 3
      else if st = 0 ∧ (s.link k).hs.failAt = none ∧ s.rngFail = false then s.beginHs k p
      else s)

/-- R412: whether a far end's chip number is what link k's role on the revolve requires. -/
def State.neighbourOk (s : State) (k chip : Nat) : Bool :=
  (k != cwLink s.group || chip == s.cwChip || (k == acwLink s.group && chip == s.acwChip))
    && (k != acwLink s.group || chip == s.acwChip || (k == cwLink s.group && chip == s.cwChip))

/-- R412: link k is held down. -/
def State.holdLink (s : State) (k p chip : Nat) : State :=
  let s := (s.dwf LK_RV_STATUS 4 4 1).dcap LK_ERR 16 (p + place 6 3 6)
  let s := s.logErr { source := 0x0E, cls := LOST, cause := 4, info := word chip }
  (s.linkPorts k).foldl (fun s n => s.portDown n 5) s

/-- R476: a handshake of link k completed: the chip number learnt, the handshake key in slot 0, every open port in SESSION. -/
def State.hsDone (s : State) (k p : Nat) (h : Handshake) : State :=
  let low := decide (s.chip < h.peer)
  let s := (s.modLink k (fun l => { l with keys := [(0, (h.key low).1, (h.key low).2)], hs := {}, auth := 0 })).dinc SC_CNT_HSOK 1
  let s := s.dw (linkReg k) (place 1 0 2 + place 4 3 1 + place 5 5 (bits (s.dr (linkReg k)) 5 5) + place 27 16 h.peer + 2 ^ 28)
  if s.neighbourOk k h.peer then
    (s.linkPorts k).foldl (fun s n => if s.portState n = 2 then s.setPort n 3 else s) s
  else s.holdLink k p h.peer

/-- R688: the handshake of link k failed: it starts again after 100 ms. -/
def State.hsFail (s : State) (k step : Nat) (sig : Bool) : State :=
  ((s.hsFailed step sig).dwf (linkReg k) 1 0 0).modLink k (fun l => { l with hs := { failAt := some (s.timebase + 100000000) } })

/-- R480: a control frame that the port's state does not expect: dropped, counted as malformed. -/
def State.unexpected (s : State) (p : Nat) : State := s.dinc (portReg LK_CNT_MALFORMED p) 1

/-- R686, R687: a HANDSHAKE frame's payload is taken: fragments join; the message whole, the handshake goes on. -/
def execHandshakeReceive (p : Port) (payload : List Byte) (s : State) : Res :=
  let k := s.linkOf p.val
  let h := (s.link k).hs
  let n := fieldB payload 0 1
  let len := fieldB payload 4 4
  if s.portState p.val ≠ 2 ∨ h.expect = 0 ∨ n ≠ h.expect ∨ fieldB payload 1 1 ≠ h.frag ∨ fieldB payload 3 1 ≠ 0 then
    (if s.portLive p.val then .next (s.unexpected p.val) else waits s)
  else
    let got := h.part ++ sliceB payload 8 456
    if h.frag + 1 < fieldB payload 2 1 then
      .next (s.modLink k (fun l => { l with hs := { h with part := got, frag := h.frag + 1, last := s.timebase } }))
    else
      let r := s.hsTake h n (sliceB got 0 len)
      match r.fail with
      | some step => .next (s.hsFail k step r.sig)
      | none =>
        let s := s.modLink k (fun l => { l with hs := r.hs })
        let s := r.send.foldl (fun s m => s.sendHs p.val m) s
        .next (if r.done then s.hsDone k p.val r.hs else s)

/-- R687: a handshake message is 10 ms late. -/
def execHandshakeMsgTimeout (k : Fin 4) (s : State) : Res :=
  let h := (s.link k.val).hs
  whenever s (h.expect != 0 && decide (h.last + 10000000 ≤ s.timebase)) (s.hsFail k.val h.expect false)

/-- R688: 100 ms after it failed, a handshake starts again on the link's lowest open port. -/
def execHandshakeRestart (k : Fin 4) (s : State) : Res :=
  match (s.link k.val).hs.failAt, (s.linkPorts k.val).find? (fun n => s.portState n == 2) with
  | some t, some p => whenever s (decide (t ≤ s.timebase) && !s.rngFail) (s.beginHs k.val p)
  | _, _ => waits s

/-! ### Keys (R476, R477, R690) -/

/-- R476: this end switches link k to a key slot: KEYSWITCH on every port, the slot used from the next frame. -/
def State.switchKey (s : State) (k slot : Nat) : State :=
  let s := ((s.linkPorts k).filter (fun n => s.portState n == 3 || s.portState n == 4)).foldl
    (fun s n => (s.sendCtl n 3 (leBytes 1 slot)).modPort n (fun q => { q with keyed := (0, 0) })) s
  (s.dwf (linkReg k) 2 2 slot).modLink k (fun l => { l with swTx := true, auth := 0 })

/-- R690: a key goes into the unused slot of link k, and the lower end begins the switch. -/
def State.installKey (s : State) (k : Nat) (key : BitVec 256) (salt : BitVec 32) : State :=
  let r := s.dr (linkReg k)
  let slot := 1 - bits r 2 2
  let s := (s.modLink k (fun l => { l with keys := amIns l.keys slot (key, salt) })).dwf (linkReg k) (3 + slot) (3 + slot) 1
  if s.chip < bits r 27 16 then s.switchKey k slot else s

/-- R690: a link key from the manager; one that comes before the last switch has ended waits. -/
def execLinkKeyInstall (k : Fin 4) (key : BitVec 256) (salt : BitVec 32) (s : State) : Res :=
  let st := bits (s.dr (linkReg k.val)) 1 0
  let l := s.link k.val
  if st < 2 then waits s
  else if l.swTx || l.eraseAt.isSome || decide (2 ≤ l.keys.length) then
    .next (s.modLink k.val (fun l => { l with next := some (key, salt) }))
  else .next (s.installKey k.val key salt)

/-- R477: every KEYED port of the link has sent and received KEYSWITCH: the old slot has 10 µs to live. -/
def State.switchDone (s : State) (k : Nat) : State :=
  let live := (s.linkPorts k).filter (fun n => s.portState n == 3 || s.portState n == 4)
  if (s.link k).swTx && (s.link k).eraseAt.isNone && live.all (fun n => (s.port n).swRx) then
    s.modLink k (fun l => { l with eraseAt := some (s.timebase + 10000) })
  else s

/-- R477: the old key slot of link k is erased. -/
def execOldKeyErase (k : Fin 4) (s : State) : Res :=
  match (s.link k.val).eraseAt with
  | none => waits s
  | some t =>
    if s.timebase < t then waits s
    else
      let k := k.val
      let waiting := (s.link k).next
      let old := 1 - bits (s.dr (linkReg k)) 2 2
      let s := (s.linkPorts k).foldl (fun s n => s.modPort n (fun q => { q with swRx := false })) s
      let s := (s.dwf (linkReg k) (3 + old) (3 + old) 0).modLink k (fun l =>
        { l with keys := amDel l.keys old, swTx := false, eraseAt := none, next := none })
      match waiting with
      | some n => .next (s.installKey k n.1 n.2)
      | none => .next s

/-- R481: a write to LK_PORT_VCBUF: for the port's next OPEN, or ignored with CFGERR. -/
def State.writeVcbuf (s : State) (p v : Nat) : State :=
  let fs := (List.range 4).map (fun i => bits v (12 * i + 11) (12 * i))
  if fs.any (· == 0) || decide (4096 < fs.foldl (· + ·) 0) then s.dwf LK_ERR 18 18 1
  else s.dw (portReg LK_PORT_VCBUF p) (v % 2 ^ 48)

/-- LK_PORT_VCBUF is written. -/
def execVcbufWrite (p : Port) (val : Word) (s : State) : Res := .next (s.writeVcbuf p.val val.toNat)

end Sys2Proof.Machine
end

