-- ==== Sys2Proof/Machine/Links.lean ====
section
/-! DEFINITION. Sys2Proof/Machine/Links.lean: what a port does with a received frame: order, acknowledgement, credit, key
switches, routing and forwarding (R417, R424, R455 to R467, R474, R477 to R480). -/

namespace Sys2Proof.Machine

/-! ### Acknowledgement and resending (R459, R460, R462) -/

/-- LK_PORT_RETRY fields of port p: RTO in ticks, RETRYMAX, AUTHMAX. -/
def State.rto (s : State) (p : Nat) : Nat := 16 * bits (s.dr (portReg LK_PORT_RETRY p)) 15 0
def State.retryMax (s : State) (p : Nat) : Nat := bits (s.dr (portReg LK_PORT_RETRY p)) 19 16
def State.authMax (s : State) (p : Nat) : Nat := bits (s.dr (portReg LK_PORT_RETRY p)) 27 20

/-- R460: ACK covers the frames of the replay buffer up to it. -/
def State.ackIn (s : State) (p ack : Nat) : State :=
  let q := s.port p
  match q.replay.head? with
  | none => s
  | some h =>
    let n := (ack + 1 + 2 ^ 24 - h.seq % 2 ^ 24) % 2 ^ 24
    if n = 0 ∨ q.replay.length < n then s
    else
      let rest := q.replay.drop n
      s.modPort p (fun q => { q with
        replay := rest, ackAt := s.timebase, tries := (0, 0)
        resend := q.resend.filter (fun r => rest.any (fun f => f.seq == r)) })

/-- R460, R462: everything from a SEQ onward is resent, or the port is held after RETRYMAX times. -/
def State.requestResend (s : State) (p seq : Nat) : State :=
  let q := s.port p
  if q.replay.any (fun f => f.seq == seq) = false then s
  else if q.tries.1 = seq ∧ s.retryMax p ≤ q.tries.2 then s.holdPort p 4
  else
    let from_ := (q.replay.map (·.seq)).dropWhile (· != seq)
    s.modPort p (fun q => { q with
      resend := from_, ackAt := s.timebase, tries := (seq, if q.tries.1 = seq then q.tries.2 + 1 else 1) })

/-- R460: ACK has not advanced for RTO: the oldest frame and all after it are resent. -/
def execResendTimeout (p : Port) (s : State) : Res :=
  let q := s.port p.val
  let st := s.portState p.val
  match q.replay.head? with
  | some h => whenever s ((st == 3 || st == 4) && decide (q.ackAt + s.rto p.val ≤ s.timebase)) (s.requestResend p.val h.seq)
  | none => waits s

/-- R459: NACK with the expected SEQ, unless the receiver already waits for it. -/
def State.nackOnce (s : State) (p : Nat) : State :=
  let q := s.port p
  if q.nackAt.isSome then s else s.sendNack p q.expSeq

/-- R459: a waiting receiver repeats its NACK once per RTO. -/
def execNackRepeat (p : Port) (s : State) : Res :=
  let q := s.port p.val
  match q.nackAt with
  | some t => whenever s (s.portLive p.val && decide (t + s.rto p.val ≤ s.timebase)) (s.sendNack p.val q.expSeq)
  | none => waits s

/-- R458, R459, R478: a frame is damaged; auth: its CRC passed and its tag failed. -/
def State.damaged (s : State) (p : Nat) (auth : Bool) : State :=
  let s := s.dinc (portReg LK_CNT_DAMAGED p) 1
  if auth then
    let k := s.linkOf p
    let s := (s.dinc (portReg LK_CNT_AUTHFAIL p) 1).linkErr p 2 0 LOST
    let n := (s.link k).auth + 1
    if s.authMax p ≤ n then
      (((s.linkPorts k).filter s.portLive).foldl (fun s n => s.portDown n 1) s).linkDown k
    else (s.modLink k (fun l => { l with auth := n })).nackOnce p
  else s.nackOnce p

/-! ### Where an accepted frame goes (R417 to R419, R424, R435) -/

/-- What becomes of an accepted frame: dropped, or delivered here, forwarded on a port, or both. -/
inductive Place
  | drop (cnt cause chip : Nat)
  | keep (here : Bool) (fwd : Option (Nat × Frame))
  deriving DecidableEq, Repr

/-- f with another HOPLEFT. -/
def Frame.withHop (f : Frame) (h : Nat) : Frame := { f with tf := setBits f.tf 43 32 h }
/-- f with another REMAIN. -/
def Frame.withRemain (f : Frame) (r : Nat) : Frame := { f with tf := setBits f.tf 31 20 r }

/-- R417: whether a frame passes the slice check on its source chip. -/
def State.sliceOk (s : State) (f : Frame) : Bool :=
  let e := s.dr (LK_RT_ENT + 8 * f.src)
  f.slice == 0 || (bit e 20 && bits e 19 12 == f.slice)

/-- R424, R435: the port and frame with which a weight frame, end mark or broadcast goes on. -/
def State.onward (s : State) (f : Frame) : Option (Nat × Frame) :=
  if f.remain ≤ 1 then none
  else
    let k := s.dirLink f.dir
    (if f.ty = 4 then s.keyedPort k (f.src + 2)
     else s.weightPort k f.pos f.piece).map (fun p => (p, f.withRemain (f.remain - 1)))

/-- R417 to R419: where a frame goes. -/
def State.placeOf (s : State) (f : Frame) : Place :=
  if f.ty = 1 then
    if !(s.sliceOk f) || (f.slice == 0 && f.vc != 3) then .drop LK_RV_CNT_SLICEDROP 1 f.src
    else if f.dst = s.chip then
      if f.slice ≠ 0 ∧ (s.ctxOfSlice f.slice).isNone then .drop LK_RV_CNT_SLICEDROP 1 f.src else .keep true none
    else
      match s.route f.src f.dst f.slice f.vc with
      | none => .drop LK_RV_CNT_NOROUTE 2 f.src
      | some p =>
        if f.hop = 1 then .drop LK_RV_CNT_HOPDROP 3 f.src
        else .keep false (some (p, f.withHop ((f.hop + 4095) % 4096)))
  else if f.ty = 4 then .keep true (s.onward f)
  else if !(s.sliceOk f) then .drop LK_RV_CNT_SLICEDROP 1 f.src
  else .keep (f.slice == s.ringSlice) (s.onward f)

/-! ### Stomps (R464 to R466) -/

/-- Output ports other than `out` wait no longer for a good copy from input port p. -/
def State.unstomp (s : State) (p : Nat) (out : Option Nat) : State :=
  (List.range 8).foldl (fun s o => if (s.port o).stompFrom = some p ∧ out ≠ some o then
    s.modPort o (fun q => { q with stompFrom := none }) else s) s

/-- R464: the frame of the expected SEQ failed its raw check: what is to be forwarded of it leaves, and is stomped. -/
def State.stompOn (s : State) (p : Nat) (f : Frame) : State :=
  if (s.port p).rx.any (fun r => r.f.stomp) then s
  else
    match s.placeOf f with
    | .keep _ (some x) =>
      if (s.port x.1).stompFrom = some p then s
      else s.modPort p (fun q => { q with
        rx := q.rx ++ [{ f := { f with stomp := true }, taken := true, fwd := some (x.1, { x.2 with stomp := true }) }] })
    | _ => s

/-! ### Accepting a data frame (R459, R465, R467, R474, R479) -/

/-- The frames of the block being received that are to be delivered here, and are not yet decoded. -/
def PortSt.blockRx (q : PortSt) : List RxFrame := q.rx.filter (fun r => r.f.cmp && !r.taken)

/-- R474: the block that frame f ends, decoded; none if f ends no block to be delivered, and no bytes if it is in error. -/
def State.endBlock (s : State) (p : Nat) (f : Frame) : Option (Option (List Byte)) :=
  if f.cmp && f.blast then
    match s.placeOf f with
    | .keep true _ => some (decodeBlock (((s.port p).blockRx.map (fun r => r.f.data)).flatten ++ f.data))
    | _ => none
  else none

/-- The undelivered frames of the block being received are given up. -/
def State.dropBlock (s : State) (p : Nat) : State :=
  (s.modPort p (fun q => { q with
    block := [], rx := q.rx.map (fun r => if r.f.cmp && !r.taken then { r with taken := true } else r) })).settle p

/-- The frame takes its place in the receive buffer, or is dropped. whole: its block is complete, with these bytes. -/
def State.rxAdmit (s : State) (p : Nat) (f : Frame) (lost : Bool) (whole : Option (List Byte)) : State :=
  let again := decide (f.seq < (s.port p).fwdSeq)
  let s := s.modPort p (fun q => { q with rx := q.rx.filter (fun r => !r.f.stomp) })
  match s.placeOf f with
  | .drop cnt cause chip =>
    let s := (s.unstomp p none).rvDrop cnt cause chip
    if again then s else s.freePlaces p [f.vc]
  | .keep here fwd =>
    let fwd := if again then none else fwd
    let out := fwd.map (·.1)
    let s := s.unstomp p out
    let good := match out with | some o => (s.port o).stompFrom == some p | none => false
    let here := here && !lost
    match whole with
    | none => (s.modPort p (fun q => { q with rx := q.rx ++ [{ f := f, taken := !here, fwd := fwd, good := good, again := again }] })).settle p
    | some d =>
      (s.modPort p (fun q => { q with
        rx := q.rx.map (fun r => if r.f.cmp && !r.taken then { r with taken := true } else r) ++
          [{ f := { f with cmp := false, data := d }, taken := false, fwd := fwd, good := good, again := again }] })).settle p

/-- R459: the SEQ of a frame is accepted. -/
def State.takeSeq (s : State) (p : Nat) (f : Frame) : State :=
  s.modPort p (fun q => { q with
    expSeq := (f.seq + 1) % 2 ^ 48, nackAt := none, malSeq := none, fresh := false
    block := if f.stomp then q.block else if f.cmp && !f.blast then q.block ++ [f] else []
    blockSeq := if f.cmp && f.bfirst then f.seq else q.blockSeq })

/-- R479: a malformed frame or block is captured, counted and NACKed; seq is where the resent copy begins. -/
def State.malformed (s : State) (p seq cause off : Nat) : State :=
  let s := (s.dinc (portReg LK_CNT_MALFORMED p) 1).dcap LK_ERR 16 (p + place 6 3 cause + place 15 7 off)
  (s.modPort p (fun q => { q with malSeq := some seq, expSeq := seq, fresh := false })).sendNack p seq

/-- R459, R479: a good data frame with the expected SEQ. -/
def State.takeGood (s : State) (p : Nat) (b : List Byte) : State :=
  let f := frameOf b
  let q := s.port p
  let inB := !q.block.isEmpty
  let rule := if f.cmp then f.bfirst == inB else inB || f.bfirst || f.blast
  let off := match badField b with | some o => some o | none => if rule then some 0 else none
  let accept := fun (s : State) (lost : Bool) (whole : Option (List Byte)) =>
    (((s.takeSeq p f).rxAdmit p f lost whole).modPort p (fun q => { q with fwdSeq := max q.fwdSeq (f.seq + 1) })).dinc
      (portReg LK_CNT_RXFRAME p) 1
  match off with
  | some o =>
    if q.malSeq = some f.seq then
      let s := (((s.dinc (portReg LK_CNT_MALFORMED p) 1).takeSeq p { f with cmp := false }).unstomp p none).linkErr p 1 o LOST
      if f.seq < q.fwdSeq then s else s.freePlaces p [f.vc]
    else s.malformed p f.seq 1 o
  | none =>
    match s.endBlock p f with
    | none => accept s false none
    | some (some d) => accept s false (some d)
    | some none =>
      let seq := if f.bfirst then f.seq else q.blockSeq
      if q.malSeq = some seq then
        (((accept (s.dinc (portReg LK_CNT_MALFORMED p) 1) true none).dropBlock p).linkErr p 3 0 LOST)
      else ((accept s true none).dropBlock p).malformed p seq 3 0

/-- R459, R465: a good or stomped data frame. -/
def State.takeData (s : State) (p : Nat) (b : List Byte) (stomped : Bool) : State :=
  let f := frameOf b
  let s := if stomped then s.dinc (portReg LK_CNT_STOMPRX p) 1 else s.ackIn p f.ack
  let q := s.port p
  let d := (f.seq + 2 ^ 48 - q.expSeq) % 2 ^ 48
  if 2 ^ 47 ≤ d then s
  else if d ≠ 0 ∧ q.fresh = false then s.nackOnce p
  else if stomped then ((s.stompOn p f).takeSeq p { f with stomp := true }).freePlaces p [f.vc]
  else s.takeGood p b

/-- R459: a data frame is taken and checked on its raw bits. One whose raw bits fail is neither accepted nor damaged until its
corrected copy is checked (R458); what leaves of it is stomped (R464). -/
def execDataFrameReceive (p : Port) (frame : List Byte) (check : FrameCheck) (s : State) : Res :=
  let st := s.portState p.val
  if (st ≠ 3 ∧ st ≠ 4) ∨ (frameOf frame).ty = 0 then waits s
  else
    match check with
    | .good => .next (s.takeData p.val frame false)
    | .stomped => .next (s.takeData p.val frame true)
    | _ =>
      let f := frameOf frame
      .next (if f.seq = (s.port p.val).expSeq ∧ badField frame = none then s.stompOn p.val f else s)

/-- R458, R478, R482: a frame is checked again on its corrected bits. A frame already accepted passed on its raw bits. -/
def execFrameFecCheck (p : Port) (frame : List Byte) (check : FrameCheck) (corrected uncorrectable : Nat) (s : State) : Res :=
  if s.portLive p.val = false then waits s
  else
    let p := p.val
    let f := frameOf frame
    let s := (s.dinc (portReg LK_CNT_FECCORR p) corrected).dinc (portReg LK_CNT_FECUNC p) uncorrectable
    let before := decide (2 ^ 47 ≤ (f.seq + 2 ^ 48 - (s.port p).expSeq) % 2 ^ 48)
    if f.ty = 0 ∨ s.portState p = 2 ∨ before then .next s
    else
      match check with
      | .good => .next (s.takeData p frame false)
      | .stomped => .next (s.takeData p frame true)
      | .damaged => .next (s.damaged p false)
      | .authFail => .next (s.damaged p true)

/-! ### Forwarding (R464, R466) -/

/-- The first frame of port p's receive buffer that may be forwarded now: no earlier one waits for the same output port. -/
def State.nextFwd (s : State) (p : Nat) : Option (Nat × RxFrame) :=
  let q := (s.port p).rx
  let out := fun (r : RxFrame) => r.fwd.map (·.1)
  ((List.range q.length).zip q).find? (fun x =>
    match x.2.fwd with
    | none => false
    | some o => !((q.take x.1).any (fun y => out y == some o.1)) && s.maySend o.1 o.2)

/-- Entry i of port p's receive buffer has been forwarded. -/
def State.forwarded (s : State) (p i : Nat) : State :=
  (s.modPort p (fun q => { q with rx := ((List.range q.rx.length).zip q.rx).map (fun x =>
    if x.1 = i then { x.2 with fwd := none } else x.2) })).settle p

/-- R464: a frame in transit leaves on its output port; a stomped one leaves the port waiting for its good copy. -/
def execFrameForward (p : Port) (s : State) : Res :=
  match s.nextFwd p.val with
  | none => waits s
  | some (i, r) =>
    match r.fwd with
    | none => waits s
    | some (o, g) =>
      if (s.port o).stompFrom.isSome ∨ s.domStopped (32 + o) then waits s
      else
        let open_ := (s.port o).inBlock
        let s := (s.sendData o g).dinc LK_RV_CNT_FWD 1
        let s := if g.stomp then
            (s.dinc (portReg LK_CNT_STOMPTX o) 1).modPort o (fun q => { q with stompFrom := some p.val, inBlock := open_ })
          else s
        .next (s.forwarded p.val i)

/-- R466: the good copy of a stomped frame leaves under a new SEQ. -/
def execForwardGoodCopy (p : Port) (s : State) : Res :=
  match s.nextFwd p.val with
  | none => waits s
  | some (i, r) =>
    match r.fwd with
    | none => waits s
    | some (o, g) =>
      if (s.port o).stompFrom ≠ some p.val ∨ g.stomp ∨ s.domStopped (32 + o) then waits s
      else
        let s := (s.modPort o (fun q => { q with stompFrom := none })).sendData o g
        .next ((s.dinc LK_RV_CNT_FWD 1).forwarded p.val i)

/-! ### Link control frames (R457, R480) -/

/-- A link control frame of a type is taken: f gives its effect on a state that has taken its ACK. -/
def control (p : Port) (ctype : Nat) (b : List Byte) (check : FrameCheck) (s : State) (f : Frame → State → State) : Res :=
  let g := frameOf b
  if s.portLive p.val = false then waits s
  else
    match check with
    | .good =>
      if g.ty ≠ 0 ∨ (g.tf ≠ ctype ∧ badField b = none) then waits s
      else
        match badField b with
        | some o => .next (((s.ackIn p.val g.ack).dinc (portReg LK_CNT_MALFORMED p.val) 1).dcap LK_ERR 16
            (p.val + place 6 3 1 + place 15 7 o))
        | none => .next (f g (s.ackIn p.val g.ack))
    | .authFail => .next (s.damaged p.val true)
    | _ => .next (s.damaged p.val false)

/-- R457: IDLE carries nothing but ACK. -/
def execIdleReceive (p : Port) (frame : List Byte) (check : FrameCheck) (s : State) : Res :=
  control p 0 frame check s (fun _ s => s)

/-- R460: NACK: the sender resends from the named SEQ. -/
def execNackReceive (p : Port) (frame : List Byte) (check : FrameCheck) (s : State) : Res :=
  control p 1 frame check s (fun f s => s.requestResend p.val (fieldB f.data 0 6))

/-- R456: the first CREDIT announces the shares, later ones the places freed. -/
def execCreditReceive (p : Port) (frame : List Byte) (check : FrameCheck) (s : State) : Res :=
  control p 2 frame check s (fun f s =>
    let ns := (List.range 4).map (fun v => fieldB f.data (4 * v) 4)
    s.modPort p.val (fun q =>
      match q.share with
      | none => { q with share := some ns, ret := [] }
      | some _ => { q with ret := ((List.range 4).zip ns).foldl (fun m x => amSet 0 m x.1 x.2) [] }))

/-- R476, R477, R480: KEYSWITCH: this end switches too, and the port is KEYED. -/
def execKeyswitchReceive (p : Port) (frame : List Byte) (check : FrameCheck) (s : State) : Res :=
  control p 3 frame check s (fun f s =>
    let k := s.linkOf p.val
    let st := s.portState p.val
    let slot := fieldB f.data 0 1
    let l := s.dr (linkReg k)
    let q := s.port p.val
    if (st ≠ 3 ∧ st ≠ 4) ∨ 2 ≤ slot ∨ bit l (3 + slot) = false ∨ q.swRx
        ∨ (bits l 2 2 = slot ∧ (s.link k).swTx = false) then s.unexpected p.val
    else
      let s := if bits l 2 2 = slot then s else s.switchKey k slot
      let s := (s.setPort p.val 4).modPort p.val (fun q => { q with swRx := true })
      (s.dwf (linkReg k) 1 0 3).switchDone k)

/-- The port of this device at the other end of the peer's port n: the one of the same index within the own link. -/
def State.ownPort (s : State) (k n : Nat) : Option Nat :=
  match (groupLinks s.group).find? (fun l => l.contains n) with
  | some l => (s.linkPorts k)[l.findIdx (· == n)]?
  | none => none

/-- R463, R407: a frame of a lost port goes to the front of the queue of the port now chosen, or is lost. -/
def State.requeue (s : State) (k : Nat) (f : Frame) (from_ : Nat) : State :=
  let port := if f.ty = 1 then s.route f.src f.dst f.slice f.vc
    else if f.ty = 4 then s.keyedPort k (f.src + 2)
    else s.weightPort k f.pos f.piece
  match port with
  | some p => s.modPort p (fun q => { q with txq := f :: q.txq })
  | none => (s.dinc (portReg LK_CNT_PORTLOSS from_) 1).linkErr from_ 8 0 LOST

/-- R463: PORTSTATE for an own port n that was left: what was accepted is dropped, the rest is sent again, in order. -/
def State.reclaim (s : State) (k n last : Nat) : State :=
  match (s.link k).orphans.find? (fun o => o.port == n) with
  | none => s
  | some o =>
    let s := s.modLink k (fun l => { l with orphans := l.orphans.filter (fun x => x.port != n) })
    let rest := o.frames.filter (fun f => !f.stomp && decide (0 < (f.seq + 2 ^ 48 - last) % 2 ^ 48)
      && decide ((f.seq + 2 ^ 48 - last) % 2 ^ 48 < 2 ^ 47))
    (rest ++ o.queued).reverse.foldl (fun s f => s.requeue k f n) s

/-- R463, R477, R480, R412: PORTSTATE on a KEYED link: it opens a port that has come up, or releases the frames of one that
was left. -/
def execPortstateReceive (p : Port) (frame : List Byte) (check : FrameCheck) (s : State) : Res :=
  control p 5 frame check s (fun f s =>
    let k := s.linkOf p.val
    let st := s.portState p.val
    let chip := fieldB f.data 16 2
    if bits (s.dr (linkReg k)) 1 0 ≠ 3 ∨ (st ≠ 2 ∧ st ≠ 4) then s.unexpected p.val
    else if st = 2 then
      if s.neighbourOk k chip then s.setPort p.val 4 else s.holdLink k p.val chip
    else
      match s.ownPort k (fieldB f.data 0 1) with
      | none => s.unexpected p.val
      | some n => s.reclaim k n (fieldB f.data 8 6))

end Sys2Proof.Machine
end

