-- ==== Sys2Proof/Machine/Ring.lean ====
section
/-! DEFINITION. Sys2Proof/Machine/Ring.lean: the ring: forming it, the passes of the revolve, the layer curtain, and routed
frames delivered here (R36 to R48, R393 to R398, R405 to R439, R453, R454, R502, R503, R689). -/

namespace Sys2Proof.Machine

/-! ### Stages (R640, R642) -/

/-- R642, R765: the device enters a stage: recorded, told on context 0's ring and on the management bus. -/
def State.enterStage (s : State) (n : Nat) : State :=
  let s := (s.dwf MG_SU_STATUS 2 0 n).dw (MG_SU_STAGETIME + 8 * n) s.timebase
  let s := { s with mb := { s.mb with alerts := nsIns s.mb.alerts 1 } }
  s.event 0 4 0 s.timebase [BitVec.ofNat 8 n, BitVec.ofNat 8 (bits (s.dr MG_SU_STATUS) 3 3)]

/-! ### Management sessions (R687 to R689) -/

/-- A handshake message of a management session. -/
def sessionMsg (m : Nat × List Byte) : List Byte :=
  leBytes 1 tagSession ++ leBytes 1 m.1 ++ leBytes 2 0 ++ leBytes 4 m.2.length ++ m.2

/-- The management session with a chip. -/
def State.session (s : State) (chip : Nat) : Option Session := s.rv.sessions.find? (fun x => x.chip == chip)

/-- Store the session with a chip. -/
def State.setSession (s : State) (x : Session) : State :=
  { s with rv := { s.rv with sessions := s.rv.sessions.filter (fun y => y.chip != x.chip) ++ [x] } }

/-- R687: a management session is opened with HELLO. -/
def State.openSession (s : State) (chip : Nat) : State :=
  let r := s.hsStart
  r.1.send.foldl (fun s m => s.sendMgmt chip (sessionMsg m)) (r.2.setSession { chip := chip, hs := r.1.hs })

/-- R689: whether the firmware that a completed session's certificate names is the own. -/
def State.sameFw (s : State) (h : Handshake) : Bool :=
  sliceB (attCert (h.msg 2 false)) 44 32 == leBytes 32 s.sec.fwMeas.toNat

/-! ### Forming the ring (R411, R412, R689) -/

/-- R411: the ready message is applied: stage 3, pass 0 begins. -/
def State.applyReady (s : State) : State :=
  if bit (s.dr LK_RV_STATUS) 3 then s
  else
    let s := s.dwf LK_RV_STATUS 3 3 1
    let s := { s with rv := { s.rv with relAt := s.timebase } }
    if s.stage = 2 then s.enterStage 3 else s

/-- R411, R435, R689: the manager counts a join; with N of them it broadcasts the ready message. -/
def State.countJoin (s : State) (chip : Nat) : State :=
  let s := { s with rv := { s.rv with joins := nsIns s.rv.joins chip } }
  if s.rv.joins.length = s.ringN ∧ bit (s.dr LK_RV_STATUS) 3 = false then (s.broadcast 0 []).applyReady else s

/-- R411: a member joins once its session with the manager is complete. -/
def State.sendJoin (s : State) : State :=
  if s.rv.joined then s
  else (({ s with rv := { s.rv with joined := true } } : State)).sendOp s.mgrChip 0 3 5 0 0 63 0 []

/-- R687, R688: a session message from a chip. -/
def State.sessionIn (s : State) (chip : Nat) (msg : List Byte) : State :=
  let n := fieldB msg 1 1
  let body := sliceB (msg.drop 8) 0 (fieldB msg 4 4)
  let s := match s.session chip with
    | none => s.openSession chip
    | some x => if x.done && n == 1 then s.openSession chip else s
  match s.session chip with
  | none => s
  | some x =>
    if n = 0 ∨ x.hs.expect ≠ n then s
    else
      let r := s.hsTake x.hs n body
      match r.fail with
      | some step => (s.hsFailed step r.sig).setSession { chip := chip, hs := { failAt := some (s.timebase + 100000000) } }
      | none =>
        let low := decide (s.chip < chip)
        let s := s.setSession { chip := chip, hs := r.hs, done := r.done, same := r.done && s.sameFw r.hs
                                key := if r.done then (r.hs.key low).1 else 0 }
        let s := r.send.foldl (fun s m => s.sendMgmt chip (sessionMsg m)) s
        if r.done then
          let s := s.dinc SC_CNT_HSOK 1
          if s.role = 2 ∧ chip = s.mgrChip then s.sendJoin else s
        else s

/-- R411, R412: whether both revolve links have completed their handshakes with the expected neighbours. -/
def State.neighboursUp (s : State) : Bool :=
  let up := fun (k : Nat) => decide (2 ≤ bits (s.dr (linkReg k)) 1 0)
  up (cwLink s.group) && up (acwLink s.group)

/-- R411: at stage 2 with an accepted description, a member enables its ports; with its neighbours checked it opens its session
with the manager, or, being the manager, counts its own join. -/
def execRingFormation (s : State) : Res :=
  if bit (s.dr LK_RV_STATUS) 2 = false ∨ s.stage ≠ 2 then waits s
  else if s.rv.formed = false then
    .next ((List.range 8).foldl (fun s p => s.portEn p) { s with rv := { s.rv with formed := true } })
  else if s.neighboursUp = false then waits s
  else if s.role = 3 then (if s.rv.joins.contains s.chip then waits s else .next (s.countJoin s.chip))
  else
    match s.session s.mgrChip with
    | none => whenever s (!s.rngFail) (s.openSession s.mgrChip)
    | some x =>
      if x.done then waits s
      else
        match x.hs.failAt with
        | some t => whenever s (decide (t ≤ s.timebase) && !s.rngFail) (s.openSession s.mgrChip)
        | none =>
          whenever s (decide (x.hs.last + 10000000 ≤ s.timebase))
            ((s.hsFailed x.hs.expect false).setSession { x with hs := { failAt := some (s.timebase + 100000000) } })

/-- R393: the firmware's entry for the layer curtain (assumption 34). -/
def State.ringCurtain (s : State) : State :=
  let x := (s.ctxOfSlice s.ringSlice).getD 0
  (s.dw (curReg SY_CUR_CFG 15) (65533 + place 31 16 65534 + place 47 32 1 + place 51 48 x + 2 ^ 52
      + place 53 53 (b2n (s.role == 3)) + 2 ^ 54)).dw (curReg SY_CUR_RING 15)
    (65535 + place 27 16 s.mgrChip + place 40 28 s.ringN)

/-! ### Taking delivered frames (R455) -/

/-- The first frame of port p's receive buffer to be delivered here that satisfies f. -/
def State.rxFind (s : State) (p : Nat) (f : Frame → Bool) : Option Frame :=
  ((s.port p).rx.find? (fun r => !r.taken && !r.f.cmp && f r.f)).map (·.f)

/-- That frame is delivered. -/
def State.rxTake (s : State) (p : Nat) (f : Frame) : State :=
  (s.modPort p (fun q => { q with rx := updFirst (fun r => !r.taken && r.f == f) (fun r => { r with taken := true }) q.rx })).settle p

/-- The meaning of a row that takes a routed frame of an operation. -/
def routedIn (p : Port) (op : Nat) (s : State) (f : Frame → State → State) : Res :=
  match s.rxFind p.val (fun g => g.ty == 1 && g.op == op) with
  | none => waits s
  | some g => .next (f g (s.rxTake p.val g))

/-- The meaning of a row that takes a ring broadcast. -/
def bcastIn (p : Port) (bop : Nat) (s : State) (f : Frame → State → State) : Res :=
  match s.rxFind p.val (fun g => g.ty == 4 && g.bop == bop) with
  | none => waits s
  | some g => .next (f g (s.rxTake p.val g))

/-- R689: a JOIN counts only after a session that completed, of the same firmware. -/
def execJoinReceive (p : Port) (s : State) : Res :=
  routedIn p 5 s (fun f s =>
    match s.session f.src with
    | some x => if s.role = 3 ∧ x.done ∧ x.same then s.countJoin f.src else s
    | none => s)

/-- R411: READY. -/
def execReadyReceive (p : Port) (s : State) : Res := bcastIn p 0 s (fun _ s => s.applyReady)

/-! ### Shard reports and the commands that run passes (R45, R503, R581) -/

/-- The REVOLVE commands that cover a pass (R581). -/
def State.covering (s : State) (pass : Nat) : List Cmd :=
  (s.cmds 0).filter (fun k => k.op == 0x0404 && k.started && decide (k.f 20 4 ≤ pass) && decide (pass < k.f 20 4 + k.f 16 4))

/-- R503: the manager takes a report: the first of a covered pass ends the command with SHARD, later ones are events. -/
def State.takeReport (s : State) (rep : List Byte) : State :=
  let pass := fieldB rep 4 4
  let first := !(s.rv.reports.any (fun r => fieldB r 4 4 == pass))
  let s := { s with rv := { s.rv with reports := s.rv.reports ++ [rep] } }
  match s.covering pass with
  | k :: _ => if first then s.reply 0 k SHARD rep (s.progress k none []) else s.event 0 5 SHARD s.timebase rep
  | [] => if first then s else s.event 0 5 SHARD s.timebase rep

/-- R503: a shard report goes to the manager. -/
def State.sendReport (s : State) (rep : List Byte) : State :=
  if s.role = 3 then s.takeReport rep else s.sendMgmt s.mgrChip (leBytes 1 tagShard ++ leBytes 7 0 ++ rep)

/-- R581: the release of a pass: the commands that cover it advance, and end with their last pass. -/
def State.revolvePass (s : State) (pass : Nat) : State :=
  (s.covering pass).foldl (fun s k =>
    if pass + 1 = k.f 20 4 + k.f 16 4 then s.reply 0 k OK (leBytes 4 pass)
    else s.modCmd 0 k (fun k => { k with work := k.work + 1 })) s

/-! ### Pieces and fills (R421, R426 to R429) -/

/-- R427: the ring-feed stream that names a feed: cluster, slot and stream. -/
def State.feedStream (s : State) (f : Nat) : Option (Cl × Nat × Strm) :=
  (allCl.flatMap (fun c => (s.cl c).st.slots.map (fun p => (c, p.1, p.2)))).find? (fun y =>
    let d := streamD y.2.2.desc
    d.feed && bits d.addr 3 0 == f && y.2.2.stop.isNone && decide (y.2.2.issued < d.total))

/-- R428: whether feed f is enabled. -/
def State.feedOn (s : State) (f : Nat) : Bool := bit (s.dr (LK_RV_FEED + 8 * f)) 0

/-- The piece of a position with a number, in the current pass. -/
def State.pieceOf (s : State) (pos num : Nat) : Option Piece := s.rv.pieces.find? (fun x => x.src == pos && x.num == num)

/-- R428: whether bytes of a piece can be taken now: its feed is not enabled, or has a stream and less than a fill in hand. -/
def State.canTake (s : State) (pos num poff : Nat) (data : List Byte) : Bool :=
  let x := s.pieceOf pos num
  let recd := match x with
    | some y => if y.recd.length = 64 then y.recd else y.recd ++ data
    | none => if poff = 0 then data else []
  let above : Bool := match x with | some y => y.drop || y.done | none => false
  if recd.length < 64 ∨ above then true
  else
    let f := recFeed recd
    if s.feedOn f = false ∨ recLen recd = 0 then true
    else
      match s.feedStream f with
      | none => false
      | some y => decide ((match x with | some z => z.open_.length | none => 0) < (streamD y.2.2.desc).fillB)

/-- R426, R428: bytes at an offset of a piece are taken: what follows on what is there, and nothing twice. -/
def State.takeBytes (s : State) (pos num poff : Nat) (data : List Byte) : State :=
  let x := (s.pieceOf pos num).getD { src := pos, num := num, recd := [] }
  let at_ := x.recd.length + x.got
  if at_ < poff then s
  else
    let new := data.drop (at_ - poff)
    let head := new.take (64 - x.recd.length)
    let recd := x.recd ++ head
    let body := new.drop head.length
    if recd.length < 64 then
      { s with rv := { s.rv with pieces := s.rv.pieces.filter (fun y => !(y.src == pos && y.num == num)) ++ [{ x with recd := recd }] } }
    else
      let first := decide (x.recd.length < 64)
      let off := first && !(s.feedOn (recFeed recd)) && recLen recd != 0
      let body := body.take (recLen recd - x.got)
      let drop := x.drop || off
      let got := x.got + body.length
      let y := { x with recd := recd, got := got, drop := drop, open_ := if drop then [] else x.open_ ++ body
                        done := decide (got = recLen recd) && (drop || recLen recd == 0 || x.done) }
      let s := if off then s.dinc LK_RV_CNT_FEEDDROP 1 else s
      { s with rv := { s.rv with pieces := s.rv.pieces.filter (fun z => !(z.src == pos && z.num == num)) ++ [y] } }

/-- The pieces of a position whose bytes have all come. -/
def State.wholePieces (s : State) (pos : Nat) : List Piece :=
  s.rv.pieces.filter (fun x => x.src == pos && x.recd.length == 64 && x.got == recLen x.recd)

/-- R429: whether all that the mark of a position announces has come. -/
def State.sliceWhole (s : State) (pos : Nat) : Bool :=
  match s.rv.marks.find? (fun m => m.src == pos) with
  | some m => decide ((s.wholePieces pos).length = m.pieces)
  | none => false

/-- R429: the slice of a position is held against its end mark: counts that disagree fail it. -/
def State.judge (s : State) (pos : Nat) : State :=
  match s.rv.marks.find? (fun m => m.src == pos) with
  | none => s
  | some m =>
    let ps := s.rv.pieces.filter (fun x => x.src == pos)
    let sum := ((s.wholePieces pos).map (·.got)).foldl (· + ·) 0
    let whole := s.sliceWhole pos
    let s := if whole then { s with rv := { s.rv with shorts := s.rv.shorts.filter (fun h => h.pos != pos) } } else s
    if s.rv.failed.contains pos ∨ !(decide (m.pieces < ps.length) || (whole && sum != m.bytes)) then s
    else
      let s := ({ s with rv := { s.rv with failed := nsIns s.rv.failed pos } } : State).dinc LK_RV_CNT_ENDERR 1
      s.sendReport (shardReport 0xFFFFFFFF s.rv.pass 0 pos 0 false true)

/-- The record that follows a fill (R426). -/
def fillRecord (x : Piece) (n : Nat) : List Byte :=
  x.recd.take 48 ++ leBytes 2 x.src ++ sliceB x.recd 50 2 ++ leBytes 4 x.idx ++ leBytes 4 n ++ x.recd.drop 60

/-- The bytes of the next fill of a piece, if it is complete, for a stream of B bytes a fill. -/
def Piece.fill (x : Piece) (b : Nat) : Option (List Byte) :=
  if x.recd.length < 64 ∨ x.open_.isEmpty then none
  else if b ≤ x.open_.length then some (x.open_.take b)
  else if x.got = recLen x.recd then some x.open_
  else none

/-- R426: a fill of a piece is written to the buffers of the ring-feed stream's fill. -/
def State.writeFill (s : State) (c : Cl) (slot : Nat) (x : Strm) (y : Piece) (bs : List Byte) : State :=
  let b := (streamD x.desc).fillB
  let hs := match x.fills.find? (fun f => f.len == 0) with | some f => f.handles | none => []
  let s := hs.foldl (fun s h => match toCl h.1 with
    | some m => (s.mod m (fun k => (k.spWrite h.2.2.base bs).spWrite (h.2.2.base + b) (fillRecord y bs.length))).cinc m
        ST_CNT_FBYTES (bs.length / 8)
    | none => s) s
  (s.progressed c).strm c slot (fun x => { x with
    issued := x.issued + bs.length
    fills := updFirst (fun f => f.len == 0) (fun f => { f with len := bs.length, got := bs.length }) x.fills })

/-- R426, R427: a fill of a piece for feed f from a position is delivered. -/
def execFeedDelivery (f : Fin 16) (pos : Nat) (s : State) : Res :=
  match s.feedStream f.val with
  | none => waits s
  | some (c, slot, x) =>
    let b := (streamD x.desc).fillB
    match s.rv.pieces.find? (fun y => y.src == pos && !y.done && recFeed y.recd == f.val && (y.fill b).isSome) with
    | none => waits s
    | some y =>
      match y.fill b with
      | none => waits s
      | some bs =>
        if x.fills.any (fun g => g.len == 0) = false then waits s
        else
          let rest := y.open_.drop bs.length
          let y' := { y with open_ := rest, idx := y.idx + 1, done := rest.isEmpty && y.got == recLen y.recd }
          let s := s.writeFill c slot x y bs
          .next { s with rv := { s.rv with pieces := updFirst (fun z => z.src == pos && z.num == y.num) (fun _ => y') s.rv.pieces } }

/-! ### Injection (R421 to R425, R429, R498) -/

/-- R452: the TFIELD of a weight frame or end mark. -/
def weightTf (src slice remain pos layer piece poff : Nat) : Nat :=
  place 11 0 src + place 19 12 slice + place 31 20 remain + place 43 32 pos + place 59 44 layer + place 75 60 piece
    + place 107 76 poff

/-- R423, R469: a piece goes out in a direction. -/
def State.injectDir (s : State) (dir num : Nat) (piece : List Byte) : State :=
  let r := s.startRemain dir
  let c := s.cmpOf 0
  let fs := messageFrames c.1 c.2.1 c.2.2 piece
  match s.weightPort (s.dirLink dir) s.ringPos num with
  | none => s
  | some p =>
    if r = 0 then s
    else
      let s := (s.countCmp p 0 piece fs).dinc LK_RV_CNT_INJ fs.length
      fs.foldl (fun s f => s.enqueue p
        { ty := 2, vc := 0, cmp := f.1, bfirst := f.2.1, blast := f.2.2.1, dir := dir, data := f.2.2.2.2
          tf := weightTf s.chip s.ringSlice r s.ringPos (s.rv.pass % 65536) num f.2.2.2.1 }) s

/-- R429: the end mark of the own slice goes out in a direction. -/
def State.markDir (s : State) (dir : Nat) : State :=
  let r := s.startRemain dir
  match s.weightPort (s.dirLink dir) s.ringPos s.rv.injN with
  | none => s
  | some p =>
    if r = 0 then s
    else s.enqueue p { ty := 3, vc := 0, dir := dir, data := leBytes 8 s.rv.injBytes
                       tf := weightTf s.chip s.ringSlice r s.ringPos (s.rv.pass % 65536) s.rv.injN 0 }

/-- R498: the checks between injections: whether another injection makes a shard's check due, of one that is checked so. -/
def State.checkDue (s : State) (h : Shard) : Bool :=
  let per := bits (s.dr HM_WT_CTRL) 15 0
  let lead := bits (s.dr HM_WT_CTRL) 23 16
  per != 0 && !h.writable && decide (per - lead ≤ h.injSince + 1)

/-- R498, R504: an injection of a shard is noted; its check is queued when due, and its next injection waits for it. -/
def State.noteInjected (s : State) (h : Shard) : State :=
  let due := s.checkDue h
  let now := s.wt.tick + 1
  let s := s.modShard h (fun y =>
    { y with injSince := y.injSince + 1, inj := now, wait := y.wait || due, queued := y.queued || due })
  let queue := if due && !h.queued then s.wt.queue ++ [(h.ctx, h.id)] else s.wt.queue
  { s with wt := { s.wt with tick := now, queue := queue } }

/-- R422: the INJECT streams of a cluster stop with FAULT. -/
def Cluster.stopInject (k : Cluster) : Cluster :=
  let stop := fun (x : Strm) => if (streamD x.desc).inject then x.stopAt x.issued { state := 3, status := FAULT } else x
  { k with st := { k.st with slots := k.st.slots.map (fun p => (p.1, stop p.2)) } }

/-- R422: the injection is stopped: the INJECT stream ends with FAULT, and no end mark goes out. -/
def State.injectFault (s : State) : State :=
  let s : State := { s with cls := s.cls.map (fun k => k.stopInject) }
  let live := s.cls.toList.any (fun k => k.st.slots.any (fun p => (streamD p.2.desc).inject))
  { s with rv := { s.rv with inj := [], injBad := live, injDone := !live || s.rv.injDone, injEnd := false } }

/-- R422 to R425: the next piece of the own slice is checked and injected both ways, and delivered here. -/
def State.injectPiece (s : State) (recd : List Byte) : State :=
  let len := recLen recd
  let piece := s.rv.inj.take (64 + len)
  let num := recPiece recd
  let s := (s.injectDir 0 num piece).injectDir 1 num piece
  let s := { s with rv := { s.rv with inj := s.rv.inj.drop (64 + len), injN := s.rv.injN + 1, injBytes := s.rv.injBytes + len } }
  s.takeBytes s.ringPos num 0 piece

/-- R429: the slice is injected: end marks both ways. -/
def State.injectDone (s : State) : State :=
  let s := (s.markDir 0).markDir 1
  let s := { s with rv := { s.rv with injDone := true, injEnd := false } }
  (s.wt.shards.filter (fun h => h.injPass == some s.rv.pass)).foldl (fun s h => s.noteInjected h) s

/-- R422, R423, R429: the link interfaces inject a piece of the own slice, or, at its end, the end marks. -/
def execWeightInjection (s : State) : Res :=
  let r := s.rv.inj
  let recd := r.take 64
  if bit (s.dr LK_RV_STATUS) 3 = false ∨ s.rv.injDone ∨ s.rv.injBad then waits s
  else if r.isEmpty then whenever s s.rv.injEnd s.injectDone
  else if r.length < 64 then whenever s s.rv.injEnd s.injectFault
  else if recCheck recd = false ∨ recReserved recd = false ∨ recLen recd % 64 ≠ 0 ∨ recLayer recd ≠ s.rv.pass % 65536 then
    .next s.injectFault
  else if r.length < 64 + recLen recd then whenever s s.rv.injEnd s.injectFault
  else .next (s.injectPiece recd)

/-! ### Weight frames and end marks received (R424, R428 to R430) -/

/-- R430: how far a frame's LAYER lies ahead of the current pass, modulo 2^16. -/
def State.ahead (s : State) (f : Frame) : Nat := (f.layer + 65536 - s.rv.pass % 65536) % 65536

/-- A frame shows which chip holds a ring position. -/
def State.learnChip (s : State) (pos chip : Nat) : State := { s with rv := { s.rv with chips := amIns s.rv.chips pos chip } }

/-- The first weight frame of port p that can be taken: of an earlier pass, or of this one, in the order of its piece. -/
def State.nextWeight (s : State) (p : Nat) : Option Frame :=
  let fs := ((s.port p).rx.filter (fun r => !r.taken && !r.f.cmp && r.f.ty == 2)).map (·.f)
  (((List.range fs.length).zip fs).find? (fun x =>
    let f := x.2
    decide (32768 ≤ s.ahead f) || (s.ahead f == 0 && s.canTake f.pos f.piece f.poff f.data
      && !((fs.take x.1).any (fun g => g.pos == f.pos && g.piece == f.piece && g.layer == f.layer))))).map (·.2)

/-- R424, R430: a weight frame is delivered here, or dropped as stale. -/
def execWeightFrameReceive (p : Port) (s : State) : Res :=
  match s.nextWeight p.val with
  | none => waits s
  | some f =>
    let s := (s.rxTake p.val f).learnChip f.pos f.src
    .next (if s.ahead f = 0 then (s.takeBytes f.pos f.piece f.poff f.data).judge f.pos else s.dinc LK_RV_CNT_STALE 1)

/-- LK_RV_REPAIR times in ticks: SHARDTMO, ENDWAIT, REPAIRWAIT (R512). -/
def State.rvShardTmo (s : State) : Nat := 1000000 * bits (s.dr LK_RV_REPAIR) 15 0
def State.rvEndWait (s : State) : Nat := 1000 * bits (s.dr LK_RV_REPAIR) 31 16
def State.rvRepairWait (s : State) : Nat := 1000 * bits (s.dr LK_RV_REPAIR) 47 32

/-- R429, R502: the end mark of a position. -/
def State.takeMark (s : State) (pos pieces bytes : Nat) : State :=
  if s.rv.marks.any (fun m => m.src == pos) then s
  else
    let s := ({ s with rv := { s.rv with marks := s.rv.marks ++ [⟨pos, pieces, bytes⟩] } } : State).judge pos
    if s.sliceWhole pos then { s with rv := { s.rv with shorts := s.rv.shorts.filter (fun h => h.pos != pos) } }
    else if s.rv.shorts.any (fun h => h.pos == pos) then s
    else { s with rv := { s.rv with shorts := s.rv.shorts ++ [{ pos := pos, until_ := s.timebase + s.rvRepairWait }] } }

/-- R429, R430: an end mark is taken. -/
def execEndMarkReceive (p : Port) (s : State) : Res :=
  match s.rxFind p.val (fun f => f.ty == 3 && (s.ahead f == 0 || decide (32768 ≤ s.ahead f))) with
  | none => waits s
  | some f =>
    let t := (s.rxTake p.val f).learnChip f.pos f.src
    .next (if s.ahead f = 0 then t.takeMark f.pos f.piece (fieldB f.data 0 8) else t.dinc LK_RV_CNT_STALE 1)

/-- R453, R502: a REPAIR frame: piece bytes not taken yet are, and its end mark says whether the repair was whole. -/
def State.takeRepair (s : State) (f : Frame) : State :=
  let pos := fieldB f.data 2 2
  let num := fieldB f.data 4 2
  if fieldB f.data 7 1 ≠ s.ringSlice ∨ fieldB f.data 0 2 ≠ s.rv.pass % 65536 then s
  else if bit (fieldB f.data 6 1) 0 then
    let s := s.takeMark pos num (fieldB f.data 16 8)
    if s.sliceWhole pos then s
    else { s with rv := { s.rv with shorts := updFirst (fun h => h.pos == pos) (fun h => { h with until_ := s.timebase }) s.rv.shorts } }
  else (s.takeBytes pos num (fieldB f.data 8 4) (f.data.drop 16)).judge pos

/-- R502: a REPAIR frame is taken once its piece can be. -/
def execRepairReceive (p : Port) (s : State) : Res :=
  match s.rxFind p.val (fun f => f.ty == 1 && f.op == 8) with
  | none => waits s
  | some f =>
    let d := f.data
    let end_ := bit (fieldB d 6 1) 0
    if !end_ && fieldB d 0 2 == s.rv.pass % 65536 && !(s.canTake (fieldB d 2 2) (fieldB d 4 2) (fieldB d 8 4) (d.drop 16)) then waits s
    else .next ((s.rxTake p.val f).takeRepair f)

/-! ### The end of a pass (R41 to R44, R393 to R398, R430, R487) -/

/-- R41, R429: every slice has come whole, and every piece is delivered or discarded. -/
def State.allDelivered (s : State) : Bool :=
  (List.range s.ringN).all (fun q => q == s.ringPos || s.sliceWhole q) && s.rv.failed.isEmpty && s.rv.pieces.all (·.done)

/-- R41: no weight frame or end mark of the pass is still to be forwarded. -/
def State.allForwarded (s : State) : Bool :=
  s.ports.toList.all (fun q => q.rx.all (fun r => !((r.f.ty == 2 || r.f.ty == 3) && r.f.layer == s.rv.pass % 65536 && r.fwd.isSome)))

/-- R42: the link interfaces hold no frame of the layer. -/
def State.linksEmpty (s : State) : Bool :=
  let mine := fun (f : Frame) => (f.ty == 2 || f.ty == 3) && f.layer == s.rv.pass % 65536
  s.rv.inj.isEmpty && s.ports.toList.all (fun q => q.rx.all (fun r => !(mine r.f)) && q.txq.all (fun f => !(mine f)))

/-- R487, R500, R503, R507, R508: what holds the arrival for the current pass back in the weights. -/
def State.weightsHold (s : State) : Bool :=
  let next := s.rv.pass + 1
  s.wt.hold == some s.rv.pass || s.wt.lost.contains s.rv.pass || s.rv.given.contains s.rv.pass ||
    s.wt.shards.any (fun h =>
      (h.replaces.isSome && h.at_ == next && h.state != .staged)
        || (h.state == .resident && h.stamp != some next && h.next next == some next
            && !(s.wt.shards.any (fun y => y.ctx == h.ctx && y.replaces == some h.id && y.at_ == next))))

/-- R43, R393, R395: the arrival of this device for the current pass. -/
def State.arrive (s : State) : State :=
  let p := s.rv.pass
  let arr := bits (s.dr (curReg SY_CUR_CFG 15)) 15 0
  let s := (s.setDctr arr (p + 1)).sendArrive 15 p
  { s with rv := { s.rv with arrived := true }, sy := { s.sy with sent := amSet 0 s.sy.sent 15 (p + 1) } }

/-- What both ends of a layer require before the arrival. -/
def State.mayArrive (s : State) : Bool :=
  bit (s.dr LK_RV_STATUS) 3 && !s.rv.arrived && s.allDelivered && s.allForwarded && !s.weightsHold

/-- R41: on rings of up to 64 devices a layer ends in a curtain. -/
def execLayerCurtainArrival (s : State) : Res := whenever s (decide (s.ringN ≤ 64) && s.mayArrive) s.arrive

/-- R42: on larger rings it ends in an interval: links, arrays and vector engines drained. -/
def execLayerIntervalArrival (s : State) : Res :=
  whenever s (decide (64 < s.ringN) && s.mayArrive && s.linksEmpty && s.cls.toList.all (fun k => k.arrayIdle && k.vectorIdle)) s.arrive

/-- R430, R44: the next pass begins: its INJECT stream's staged bytes become current. -/
def State.nextPass (s : State) : State :=
  let r := s.rv
  let s := { s with
    rv := { r with pass := r.pass + 1, relAt := s.timebase, inj := r.injNext, injN := 0, injBytes := 0, injEnd := r.injNextEnd
                   injNext := [], injNextEnd := false, injDone := false, injBad := false, pieces := [], marks := [], failed := []
                   shorts := [], arrived := false }
    wt := { s.wt with hold := none } }
  let s := (List.range 16).foldl (fun s f => s.dwf (LK_RV_FEED + 8 * f) 47 16 0) s
  (s.dwf LK_RV_STATUS 31 16 ((r.pass + 1) % 65536)).notePass r.pass

/-- R396, R430: the release of generation g of curtain k is applied; that of the layer curtain advances the pass. -/
def State.applyRelease (s : State) (k g : Nat) : State :=
  let rel := bits (s.dr (curReg SY_CUR_CFG k)) 31 16
  if bit (s.dr (curReg SY_CUR_CFG k)) 54 = false ∨ g + 1 ≤ s.dctr rel then s
  else
    let s := s.raiseRel k g
    if k = 15 ∧ g = s.rv.pass then s.nextPass.revolvePass g else s

/-- R396, R435, R581: the manager releases generation g of curtain k; a pass only while a REVOLVE covers it. -/
def State.release (s : State) (k g : Nat) : State :=
  if k = 15 ∧ (s.covering g).isEmpty then s
  else if g ≠ amGet 0 s.sy.released k then s
  else
    let s := { s with sy := { s.sy with released := amSet 0 s.sy.released k (g + 1) } }
    (s.broadcast 1 (curtainData k g)).applyRelease k g

/-- R396: the central counters of this manager are held against N × (g + 1). -/
def State.checkCentral (s : State) : State :=
  (List.range 16).foldl (fun s k =>
    let cfg := s.dr (curReg SY_CUR_CFG k)
    let r := s.dr (curReg SY_CUR_RING k)
    let n := bits r 40 28
    if bit cfg 54 && bit cfg 52 && bit cfg 53 && n != 0 then
      let g := amGet 0 s.sy.released k
      (upFrom g (s.dctr (bits r 15 0) / n - g)).foldl (fun s g => s.release k g) s
    else s) s

/-- R374, R395, R396: change i reaches its counter and is applied. -/
def execCounterChange (i : Nat) (s : State) : Res :=
  match s.changeReady i with
  | none => waits s
  | some ch =>
    let s := { s with sy := { s.sy with changes := s.sy.changes.eraseIdx i } }
    .next (s.applyChange ch).checkCentral

/-- R399: a hand setting of a device counter. -/
def State.writeSySetv (s : State) (who : Writer) (v : Nat) : State :=
  match who with
  | .core _ => s
  | _ =>
    if bit v 48 = false then s
    else if s.debugOpen = false then s.denied
    else
      let p := bits (s.dr SY_SETSEL) 15 0
      let s := (s.setDctr p (bits v 47 0)).dinc SY_CNT_HANDSET 1
      ((s.evalCtr p false none).checkArr p).checkCentral

/-- SY_SETV is written. -/
def execSySetvWrite (who : Writer) (val : Word) (s : State) : Res := .next (s.writeSySetv who val.toNat)

/-- R396: RELEASE. -/
def execReleaseReceive (p : Port) (s : State) : Res :=
  bcastIn p 1 s (fun f s => s.applyRelease (fieldB f.data 0 1 % 16) (fieldB f.data 8 8))

/-- R398: curtain k is abandoned on this device; the commands that run passes of the layer curtain end with it (R581). -/
def State.applyAbandon (s : State) (k : Nat) : State :=
  let rel := bits (s.dr (curReg SY_CUR_CFG k)) 31 16
  let s := (s.dwf (curReg SY_CUR_STAT k) 32 32 1).abandonWatches (fun w => w.ctr == rel)
  if k = 15 then (s.covering s.rv.pass).foldl (fun s k => s.replyAbandoned 0 k) s else s

/-- R398: ABANDON. -/
def execAbandonReceive (p : Port) (s : State) : Res := bcastIn p 2 s (fun f s => s.applyAbandon (fieldB f.data 0 1 % 16))

/-- R377, R396: a remote signal or curtain arrival is dropped. -/
def State.remDrop (s : State) : State :=
  (s.dinc SY_CNT_REMDROP 1).logErr { source := 9, cls := LOST, cause := 3, info := word (s.dr SY_ERR) }

/-- R396: ARRIVE, added to its curtain's central counter. -/
def execArriveReceive (p : Port) (s : State) : Res :=
  routedIn p 4 s (fun f s =>
    let k := fieldB f.data 0 1
    let cfg := s.dr (curReg SY_CUR_CFG k)
    if k < 16 ∧ bit cfg 54 ∧ bit cfg 52 ∧ bit cfg 53 ∧ s.ctxOfSlice f.slice = some (bits cfg 51 48) then
      (s.sendChange { ctr := .dev (bits (s.dr (curReg SY_CUR_RING k)) 15 0), amt := 1, scope := 2
                      src := .chip f.src 63 }).dinc SY_CNT_ARRIVE 1
    else s.remDrop)

/-! ### Signals and writes from other chips (R377, R453, R454, R767) -/

/-- R377: SIGNAL, translated in the context bound to the frame's slice. -/
def execSignalReceive (p : Port) (s : State) : Res :=
  routedIn p 2 s (fun f s =>
    match s.ctxOfSlice f.slice with
    | none => s.remDrop
    | some x =>
      match s.vmap x (fieldB f.data 0 2) with
      | none => s.remDrop
      | some q => s.sendChange { ctr := .dev q, amt := bits (fieldB f.data 8 8) 47 0, scope := fieldB f.data 2 1 % 4
                                 src := .chip f.src f.clus })

/-- R280, R454: an arrival from another chip; one that names no cluster of its slice's context is rejected at once. -/
def State.linkArrival (s : State) (f : Frame) (a : Arrival) : State :=
  let n := bits f.off 24 19
  let owner := (toCl n).map (fun c => (s.cl c).owner)
  if f.kind = 2 ∧ bits f.off 47 25 = 0 ∧ owner.isSome ∧ owner = s.ctxOfSlice f.slice ∧ f.off % 8 = 0 then s.sendArrival n a
  else if f.xend then s.answerXfer f.src f.clus f.xslot (some (f.kind * 2 ^ 60 + s.chip * 2 ^ 48 + f.off))
  else s

/-- R454: WRITE: its payload, or its decoded block, is one arrival. -/
def execWriteReceive (p : Port) (s : State) : Res :=
  routedIn p 0 s (fun f s => s.linkArrival f
    { chip := f.src, off := f.off % 524288, words := wordList f.data, from_ := .link f.src f.clus f.xslot f.xend })

/-- R453: ATOMIC: a posted arrival of one word. -/
def execAtomicReceive (p : Port) (s : State) : Res :=
  routedIn p 1 s (fun f s => s.linkArrival f
    { chip := f.src, off := f.off % 524288, words := [word (fieldB f.data 8 8)], amo := some (fieldB f.data 0 1)
      from_ := .link f.src f.clus f.xslot f.xend })

/-- R454: an answer is matched to the outstanding transfer of a store engine by SRCCLUS and XSLOT; SRCCLUS 63 names none. -/
def State.answered (s : State) (chip clus xslot : Nat) (rej : Option Nat) : State :=
  s.modN clus (fun k => { k with st := { k.st with xfers := k.st.xfers.map (fun y =>
    if 4 ≤ y.slot ∧ y.xslot = xslot ∧ gChip y.addr = chip ∧ gKind y.addr = 2 then
      { y with ready := true, rejected := rej.isSome, phys := rej.getD y.phys }
    else y) } })

/-- R454: REJECT. -/
def execRejectReceive (p : Port) (s : State) : Res :=
  routedIn p 6 s (fun f s => s.answered f.src (fieldB f.data 8 1) (fieldB f.data 9 1) (some (fieldB f.data 0 8)))

/-- R454: COMPLETE. -/
def execCompleteReceive (p : Port) (s : State) : Res :=
  routedIn p 7 s (fun f s => s.answered f.src (fieldB f.data 8 1) (fieldB f.data 9 1) none)

/-! ### The rack sync pulse (R439) -/

/-- R439: a rising edge of the rack sync pulse. Of two nearest multiples a free value tells which is meant (assumption 35). -/
def execRackSyncEdge (s : State) : Res :=
  if bit (s.dr MG_TB_CTRL) 0 then
    .next (({ s with timebase := s.dr MG_TB_LOAD } : State).dwf MG_TB_CTRL 0 0 0 |>.dw MG_TB_OFFSET 0)
  else
    let p := bits (s.dr MG_TB_CTRL) 63 32
    let r := s.timebase % p
    let tie := 2 * r == p
    let fr := s.free
    let up := decide (p < 2 * r) || (tie && fr.1.getLsbD 0)
    let d : Int := if up then (r : Int) - p else r
    .next ((if tie then fr.2 else s).dw MG_TB_OFFSET (wrapInt 32 d + 2 ^ 32))

end Sys2Proof.Machine
end

