-- ==== Sys2Proof/Machine/Understudy.lean ====
section
/-! DEFINITION. Sys2Proof/Machine/Understudy.lean: launches ended before their time (R251, R537, R579, R580), and understudy
mode (R529 to R541). -/

namespace Sys2Proof.Machine

/-! ### Launches (R251, R336, R579, R580) -/

/-- The clusters of a launch. -/
def State.launchCls (s : State) (x : Nat) (k : Cmd) : List Cl := allCl.filter (fun c => (s.cl c).launch == some (x, k.seq))

/-- R251, R336: a kernel is stopped from outside, its streams cancelled. -/
def State.stopKernel (s : State) (c : Cl) (status : Nat) : State :=
  if (s.cl c).core.mode = .stopped then s
  else
    let s := s.noteEnd c { clus := c.val, exited := false, status := status }
    (s.stopCore c).mod c (fun k => k.clearQueues.cancelAll)

/-- A running launch is ended: every cluster of it stops, and the cause is noted for its reply. -/
def State.endLaunch (s : State) (x : Nat) (k : Cmd) (why : CmdEnd) (status : Nat) : State :=
  ((s.launchCls x k).foldl (fun s c => s.stopKernel c status) s).modCmd x k (fun j =>
    { j with ended := if j.ended = .none then why else j.ended })

/-- The running launches of context x. -/
def State.running (s : State) (x : Nat) : List Cmd := (s.cmds x).filter (fun k => k.running && k.op == 0x0401)

/-! ### The mode (R529, R538, R539) -/

/-- STATE of MG_US_STATUS. -/
def State.usState (s : State) : Nat := bits (s.dr MG_US_STATUS) 1 0
/-- The paired context. -/
def State.usCtx (s : State) : Nat := bits (s.dr MG_US_CTRL) 17 14
/-- The partner's chip. -/
def State.usPartner (s : State) : Nat := bits (s.dr MG_US_CTRL) 13 2

/-- R530, R533: whether understudy mode compares the chains of cluster c. -/
def State.comparing (s : State) (c : Cl) : Bool := s.usState == 2 && s.usCtx == (s.cl c).owner

/-- R533: whether the engine must wait because 65,536 records are unmatched. -/
def State.usWaits (s : State) (c : Cl) : Bool := s.comparing c && decide (65536 ≤ s.us.own.length)

/-- The unmatched records change, and with them PENDING. -/
def State.setOwn (s : State) (own : List UsRec) : State :=
  ({ s with us := { s.us with own := own } } : State).dwf MG_US_STATUS 21 5 (min own.length 65536)

/-- Records not yet matched are discarded (R538, R539), and no running launch has been compared whole (R524). -/
def State.usDiscard (s : State) : State :=
  let s := s.setOwn []
  let s := { s with us := { s.us with theirs := [], asked := none, counts := none } }
  s.modCx s.usCtx (fun y => { y with cmds := y.cmds.map (fun k => { k with usWhole := false }) })

/-- R538: the mode enters ENDED with ABANDONED. -/
def State.usAbandon (s : State) : State :=
  if s.usState = 1 ∨ s.usState = 2 then (s.usDiscard.dwf MG_US_STATUS 1 0 3).dwf MG_US_STATUS 3 3 1 else s

/-- R538: context x is reset or pre-empted: the partner is told. -/
def State.usCtxLost (s : State) (x : Nat) : State :=
  if s.usCtx = x ∧ (s.usState = 1 ∨ s.usState = 2) then (s.sendMgmt s.usPartner (leBytes 8 tagUsEnd)).usAbandon else s

/-- R529: what the own pairing message says: PROG and L of the running launch, or of the lowest program (assumption 38). -/
def State.usOwn (s : State) : Nat × Nat :=
  let x := s.usCtx
  let progOf := fun (id : Nat) => ((s.cx x).progs.find? (fun p => p.id == id)).map (fun p => leNat (sliceB p.prog 0 12))
  match s.running x with
  | k :: _ => ((progOf (k.f 16 2)).getD 0, k.f 64 4)
  | [] => (((s.cx x).progs.head?.map (fun p => leNat (sliceB p.prog 0 12))).getD 0, 0)

/-- R529: both pairing messages are there: COMPARING if they agree, else ENDED with an error record. -/
def State.usAgree (s : State) : State :=
  match s.us.pair with
  | none => s
  | some p =>
    if s.usState ≠ 1 then s
    else
      let s := s.usDiscard
      let mine := s.usOwn
      let s := { s with us := { s.us with pair := none } }
      if p = mine then
        let clear := fun (k : Cluster) => if k.owner = s.usCtx then { k with ord := 0, vx := { k.vx with log := [] } } else k
        let s : State := { s with cls := s.cls.map clear }
        s.dwf MG_US_STATUS 1 0 2
      else
        ((s.dwf MG_US_STATUS 1 0 3).dwf MG_US_STATUS 4 4 1).logErr
          { source := 0x13, cls := INFO, cause := 0, ctx := some s.usCtx, info := word s.usPartner }

/-- R529: pairing starts. -/
def State.usStart (s : State) : State :=
  let s := s.dw MG_US_STATUS 1
  let m := s.usOwn
  let s := s.sendMgmt s.usPartner (leBytes 1 tagPair ++ leBytes 3 0 ++ leBytes 4 m.2 ++ leBytes 12 m.1)
  s.usAgree

/-- R539: EN is cleared. -/
def State.usStop (s : State) : State :=
  if s.usState = 3 then s.dwf MG_US_STATUS 1 0 0
  else if s.usState = 0 then s
  else (s.sendMgmt s.usPartner (leBytes 8 tagUsEnd)).usDiscard.dwf MG_US_STATUS 1 0 0

/-- R540: the firmware writes MG_US_CTRL. -/
def State.writeUsCtrl (s : State) (v : Nat) : State :=
  let old := s.dr MG_US_CTRL
  if bit old 0 && bits old 17 2 != bits v 17 2 then s
  else if bit old 0 && !(bit v 0) then s.usStop.dw MG_US_CTRL (v % 2 ^ 18)
  else
    let s := s.dw MG_US_CTRL (v % 2 ^ 18)
    if !(bit old 0) && bit v 0 then s.usStart else s

/-! ### Divergences (R534 to R537) -/

/-- R537: HALTDIV ends the running launches of the paired context. -/
def State.usHalt (s : State) : State :=
  if bit (s.dr MG_US_CTRL) 1 then
    (s.running s.usCtx).foldl (fun s k => s.endLaunch s.usCtx k (.fault FAULT 255) FAULT) s
  else s

/-- R535, R536: what the first capture holds of a record; for KIND 1 the beats are asked for. -/
def State.usCapture (s : State) (r : UsRec) (kind : Nat) : State :=
  if bit (s.dr MG_US_DIV0) 25 then s.dwf MG_US_DIV0 26 26 1
  else
    let s := s.dw MG_US_DIV0 (r.pass % 65536 + place 21 16 r.c + place 23 22 kind + 2 ^ 25 + place 63 32 r.ord)
    let s := (s.dw MG_US_DIV1 (if kind = 3 then 0 else r.num)).dw MG_US_DIV2 0
    if kind = 1 then
      ({ s with us := { s.us with asked := some r } } : State).sendMgmt s.usPartner
        (leBytes 1 tagAsk ++ leBytes 1 r.c ++ leBytes 2 0 ++ leBytes 4 r.ord)
    else s

/-- R534, R535, R537: a divergence. -/
def State.diverge (s : State) (r : UsRec) (kind : Nat) : State :=
  let s := (s.dinc MG_US_CNT_DIV 1).usCapture r kind
  let first := !(bit (s.dr MG_US_STATUS) 2)
  let s := s.modCx s.usCtx (fun y => { y with cmds := y.cmds.map (fun k => { k with usDiv := k.usDiv || k.running }) })
  let s := if first then
      let s := s.dwf MG_US_STATUS 2 2 1
      let d := leBytes 8 (s.dr MG_US_DIV0) ++ leBytes 8 (s.dr MG_US_DIV1)
      (s.event s.usCtx 6 0 s.timebase d).logErr
        { source := 0x13, cls := INFO, cause := kind, unit := r.c, ctx := some s.usCtx, info := word (s.dr MG_US_DIV0) }
    else s
  s.usHalt

/-- R534: a pair of matched records is compared. -/
def State.usCompare (s : State) (a b : UsRec) : State :=
  let s := s.dinc MG_US_CNT_COMPARED 1
  if a.beats ≠ b.beats ∨ a.status ≠ b.status then s.diverge a 2
  else if a.digest ≠ b.digest then s.diverge a 1
  else s

/-- R532: the records of cluster c are matched by ORD, in order, as far as both are there. -/
def State.usMatch (c : Nat) : Nat → State → State
  | 0, s => s
  | n + 1, s =>
    match s.us.own.find? (fun r => r.c == c) with
    | none => s
    | some a =>
      match s.us.theirs.find? (fun r => r.c == c && r.ord == a.ord) with
      | none => s
      | some b =>
        let s := s.setOwn (dropFirst (fun r => r.c == c) s.us.own)
        let s : State := { s with us := { s.us with theirs := dropFirst (fun r => r.c == c && r.ord == a.ord) s.us.theirs } }
        State.usMatch c n (s.usCompare a b)

/-- A chain record of 16 bytes (R531), with what its own device keeps of it. -/
def usRec (c : Nat) (b : List Byte) (num pass nm e1 e2 : Nat) : UsRec :=
  { c := c, ord := fieldB b 0 4, beats := fieldB b 4 4, digest := fieldB b 8 4, status := fieldB b 12 1
    num := num, pass := pass, nm := nm, e1 := e1, e2 := e2 }

/-- The bytes of a chain record (R531). -/
def UsRec.bytes (r : UsRec) : List Byte :=
  leBytes 4 r.ord ++ leBytes 4 r.beats ++ leBytes 4 r.digest ++ leBytes 1 r.status ++ leBytes 3 0

/-- R531, R532: a chain of cluster c has ended: its record is held, sent, and compared once the partner's is there. -/
def State.usRecord (s : State) (c : Cl) (r : UsRec) : State :=
  let s := (s.setOwn (s.us.own ++ [r])).mod c (fun k => { k with ord := k.ord + 1 })
  let s := s.sendMgmt s.usPartner (leBytes 1 tagRecord ++ leBytes 1 c.val ++ leBytes 6 0 ++ r.bytes)
  State.usMatch c.val s.us.own.length s

/-- R534: the partner's record counts: this side holds records of a cluster beyond them. -/
def State.usMissing (s : State) (counts : List Nat) : State :=
  (List.range 40).foldl (fun s c =>
    match s.us.own.find? (fun r => r.c == c && decide (counts.getD c 0 ≤ r.ord)) with
    | some r => s.diverge r 3
    | none => s) s

/-- R534: a launch of context x ends here: the record counts are sent, and those of the partner judged. -/
def State.usLaunchEnd (s : State) (x : Nat) : State :=
  if s.usState = 2 ∧ s.usCtx = x then
    let s := s.sendMgmt s.usPartner (leBytes 8 tagCounts ++ (s.cls.toList.flatMap (fun k => leBytes 4 k.ord)))
    match s.us.counts with
    | some n => ({ s with us := { s.us with counts := none } } : State).usMissing n
    | none => s
  else s

/-- R536: the beat digests that cluster c holds of the chain with an ordinal, if it holds them all. -/
def State.usBeats (s : State) (c ord : Nat) : Option (List (BitVec 32)) :=
  let es := (s.clN c).vx.log.filter (fun e => e.1 == ord)
  match es with
  | [] => none
  | e :: _ => if e.2.1 = 0 then some (es.map (fun e => e.2.2)) else none

/-- R536: the answer to a request for the beat digests of a chain. -/
def State.usAnswer (s : State) (chip c ord : Nat) : State :=
  let ds := (s.usBeats c ord).getD []
  s.sendMgmt chip (leBytes 1 tagDigests ++ leBytes 1 c ++ leBytes 2 (b2n (s.usBeats c ord).isSome) ++ leBytes 4 ord
    ++ leBytes 4 ds.length ++ ds.flatMap (fun d => leBytes 4 d.toNat))

/-- R536: the first differing beat is captured. -/
def State.usBeat (s : State) (r : UsRec) (n : Nat) : State :=
  let d0 := s.dr MG_US_DIV0
  if bit d0 25 = false ∨ bits d0 63 32 ≠ r.ord ∨ bits d0 21 16 ≠ r.c then s
  else
    let row := n / r.nm
    let s := s.dwf MG_US_DIV0 24 24 1
    let s := s.dwf MG_US_DIV1 31 16 (row % r.e1)
    let s := (s.dwf MG_US_DIV1 47 32 (row / r.e1 % r.e2)).dwf MG_US_DIV1 63 48 (row / r.e1 / r.e2)
    s.dw MG_US_DIV2 (n % r.nm)

/-! ### The partner's messages -/

/-- The first message of a tag that waits for the firmware is taken. -/
def State.takeBox (s : State) (tag : Nat) : State :=
  { s with rv := { s.rv with fwbox := dropFirst (fun m => fieldB m.2 0 1 == tag) s.rv.fwbox } }

/-- R529: the partner's pairing message. -/
def execUsPairingReceive (prog : BitVec 96) (l : BitVec 32) (s : State) : Res :=
  let s := s.takeBox tagPair
  if s.usState = 2 then .next s
  else .next ({ s with us := { s.us with pair := some (prog.toNat, l.toNat) } } : State).usAgree

/-- R532, R534: the partner's chain record. -/
def execUsChainRecordReceive (c : Cl) (record : BitVec 128) (s : State) : Res :=
  let s := s.takeBox tagRecord
  let r := usRec c.val (leBytes 16 record.toNat) 0 0 1 1 1
  if s.usState ≠ 2 then .next s
  else .next (State.usMatch c.val (s.us.own.length + 1) { s with us := { s.us with theirs := s.us.theirs ++ [r] } })

/-- R536: the partner's beat digests. -/
def execUsBeatDigestReceive (c : Cl) (ord : BitVec 32) (digests : Option (List (BitVec 32))) (s : State) : Res :=
  let s := s.takeBox tagDigests
  match s.us.asked with
  | none => .next s
  | some r =>
    if r.c ≠ c.val ∨ r.ord ≠ ord.toNat then .next s
    else
      let t : State := { s with us := { s.us with asked := none } }
      match digests, s.usBeats c.val ord.toNat with
      | some a, some b =>
        (match (List.range b.length).find? (fun n => a[n]? != b[n]?) with
         | some n => .next (t.usBeat r n)
         | none => .next t)
      | _, _ => .next t

/-- R534: the partner's record counts at the end of its launch. -/
def execUsRecordCountsReceive (counts : List Nat) (s : State) : Res :=
  let s := s.takeBox tagCounts
  if s.usState ≠ 2 then .next s
  else if (s.running s.usCtx).isEmpty then .next (s.usMissing counts)
  else .next { s with us := { s.us with counts := some counts } }

/-- R539: the partner's end message. -/
def execUsEndReceive (s : State) : Res := .next (s.takeBox tagUsEnd).usAbandon

/-- R538: the partner is lost. -/
def execUsPartnerLost (s : State) : Res := .next s.usAbandon

/-- R539: the firmware clears EN. -/
def execUsEnClear (s : State) : Res := .next (s.writeUsCtrl (s.dr MG_US_CTRL / 2 * 2))

end Sys2Proof.Machine
end

