-- ==== Sys2Proof/Machine/Weights.lean ====
section
/-! DEFINITION. Sys2Proof/Machine/Weights.lean: HBM frames, shards and their checks, paging, repair and replacement
(R483 to R512, R566 to R570). -/

namespace Sys2Proof.Machine

/-! ### Frames (R490, R618, R635) -/

/-- R618: the first frame and the first flies page (R497) of the contexts, and the ends. -/
def frame0 : Nat := 1024
def frameEnd : Nat := 294912
def flyEnd : Nat := 953674

/-- The frames in use, whether mapped or held by a shard. -/
def State.framesUsed (s : State) : List Nat :=
  (s.pages.filterMap (fun p => if bit p.2.toNat 1 then some (bits p.2.toNat 26 8) else none)) ++ s.wt.shards.flatMap (·.frames)

/-- n frames to map: the lowest in no use, or, failing that, frames that wait to be zeroed (assumption 36). -/
def State.pickFrames (s : State) (n : Nat) : List Nat :=
  let used := s.framesUsed
  let wait := s.mem.zeroing.map (·.frame)
  let from_ := fun (avoid : List Nat) =>
    (((upFrom frame0 (n + avoid.length)).filter (fun f => decide (f < frameEnd) && !(avoid.contains f)))).take n
  let a := from_ (used ++ wait)
  if a.length = n then a else from_ used

/-- R490: a frame is overwritten with zeros. -/
def State.zeroFrame (s : State) (f : Nat) : State :=
  let a := f * 2097152
  let mine := fun (w : Nat) => decide (a ≤ w * 8) && decide (w * 8 < a + 2097152)
  let s := s.breakResv a 2097152
  { s with mem := { s.mem with hbm := amErase s.mem.hbm a (a + 2097152), bad := s.mem.bad.filter (fun w => !(mine w))
                               cbad := s.mem.cbad.filter (fun w => !(mine w))
                               zeroing := s.mem.zeroing.filter (fun z => z.frame != f) } }

/-- n zeroed frames. -/
def State.takeFrames (s : State) (n : Nat) : List Nat × State :=
  let fs := s.pickFrames n
  (fs, fs.foldl (fun s f => s.zeroFrame f) s)

/-- R490: frames are given back: they wait to be zeroed. held: they count to the context until then (R649). -/
def State.freeFrames (s : State) (x : Nat) (fs : List Nat) (held : Bool) : State :=
  { s with mem := { s.mem with zeroing := s.mem.zeroing ++ fs.map (fun f => ⟨f, x, held⟩) } }

/-- R490, R635: the zeroing of a frame ends. -/
def execFrameZeroComplete (frame : Nat) (s : State) : Res :=
  whenever s (s.mem.zeroing.any (fun z => z.frame == frame && !z.held)) (s.zeroFrame frame)

/-- R566, R649: the frames that count to a context. -/
def State.framesOf (s : State) (x : Nat) : Nat :=
  (s.pages.filter (fun p => p.1 / 2097152 == x && bit p.2.toNat 1 && !(bit p.2.toNat 4))).length
    + ((s.wt.shards.filter (fun h => h.ctx == x)).map (·.frames.length)).foldl (· + ·) 0
    + (s.mem.zeroing.filter (fun z => z.ctx == x && z.held)).length

/-- The flies pages of an image. -/
def FlyImage.pages (f : FlyImage) : Nat := (f.data.length + 2097151) / 2097152

/-- The flies pages that count to a context. -/
def State.flyOf (s : State) (x : Nat) : Nat :=
  ((s.wt.flies.filter (fun f => f.ctx == x)).map (·.pages)).foldl (· + ·) 0

/-- R649: whether a command of context x that needs frames waits. -/
def State.zeroingOf (s : State) (x : Nat) : Bool := s.mem.zeroing.any (fun z => z.ctx == x && z.held)

/-- R567 to R570: whether context x may take n more frames. -/
def State.framesLeft (s : State) (x n : Nat) : Bool := decide (s.framesOf x + n ≤ (s.cx x).quota.frames)

/-- The global address of a page of context addresses. -/
def State.pageAddr (s : State) (p : Nat) : Nat := 2 ^ 60 + s.chip * 2 ^ 48 + p * 2097152

/-- R490: every line of n pages of a context leaves the cluster caches of its clusters, written back first. -/
def State.dropLines (s : State) (x page n : Nat) : State :=
  allCl.foldl (fun s c => if (s.cl c).owner = x then s.ccInv c (lineIn (s.pageAddr page) (n * 2097152)) else s) s

/-- R573: n new frames are mapped from a page of context x, each zeroed. bits_ gives the other bits of their entries. -/
def State.mapPages (s : State) (x page n bits_ : Nat) : State :=
  let r := s.takeFrames n
  ((List.range n).zip r.1).foldl (fun s p => s.setPage x (page + p.1) (3 + place 26 8 p.2 + bits_)) r.2

/-- R490, R573: n pages of context x are unmapped, their frames given back. -/
def State.unmapPages (s : State) (x page n : Nat) (held : Bool) : State :=
  let s := s.dropLines x page n
  let fs := (upFrom page n).filterMap (fun p => let e := s.page x p; if bit e 1 then some (bits e 26 8) else none)
  let s := (upFrom page n).foldl (fun s p => s.setPage x p 0) s
  (s.freeFrames x fs held).stopOutside x

/-! ### The page map of a shard (R488) -/

/-- R488: the entry of page i of a shard. -/
def State.shardEntry (s : State) (h : Shard) (i : Nat) : Nat :=
  let fly := h.fly.bind (fun n => s.wt.flies.find? (fun f => f.num == n))
  let back := if fly.isSome then 1 else if h.host.isSome then 2 else 0
  let bk := match fly with | some f => f.page + i | none => if h.host.isSome then i else 0
  let res := h.state == .resident
  let moving := h.state == .loading || h.state == .moving
  1 + 2 * b2n res + place 3 2 back + 16 + 32 * b2n (!h.writable) + 64 * b2n h.pin + 128 * b2n moving
    + place 26 8 (if res then h.frames.getD i 0 else 0) + place 47 27 bk

/-- The page map shows the shard as the table has it; a staged one is not mapped. -/
def State.mapShard (s : State) (h : Shard) : State :=
  if h.replaces.isSome then s
  else (upFrom 0 h.pages).foldl (fun s i => s.setPage h.ctx (h.page0 + i) (s.shardEntry h i)) s

/-- A shard of the table changes, and with it the page map. -/
def State.setShard (s : State) (h : Shard) (f : Shard → Shard) : State :=
  let s := s.modShard h f
  s.mapShard (f h)

/-! ### Images (R493, R494, R497) -/

/-- The weight key of a generation. -/
def State.wkey (s : State) (x gen : Nat) : Option WKey := (s.cx x).wkeys.find? (fun k => k.gen == gen)

/-- R493, R494: the chunks of a host image from number j on, decrypted; none where a tag fails. -/
def openChunks (key : BitVec 256) (hdr : List Byte) : Nat → Nat → Nat → List Byte → Option (List Byte)
  | 0, _, _, _ => none
  | n + 1, j, left, bs =>
    if left = 0 then some []
    else
      let k := min left 65536
      match Config.open_ key (sliceB hdr 8 8 ++ leBytes 4 j ++ hdr) (bs.take (k + 16)) with
      | none => none
      | some p =>
        match openChunks key hdr n (j + 1) (left - k) (bs.drop (k + 16)) with
        | none => none
        | some t => some (sliceB p 0 k ++ t)

/-- R510: causes of HM_WT_ERR. -/
def wtDigest : Nat := 1
def wtParse : Nat := 2
def wtTag : Nat := 3
def wtRead : Nat := 4
def wtNoBacking : Nat := 5

/-- What a copy of a shard holds: its bytes, or why it fails. -/
inductive Copy
  | bytes (bs : List Byte) (gen : Nat)
  | fails (cause : Nat)
  deriving DecidableEq, Repr

/-- R493, R494: the bytes of the backing copy of a shard: the flies image, or the host image that was read. -/
def State.copyOf (s : State) (h : Shard) (image : List Byte) : Copy :=
  match h.fly.bind (fun n => s.wt.flies.find? (fun f => f.num == n)) with
  | some f => .bytes (sliceB f.data 0 h.len) h.gen
  | none =>
    if h.host.isNone then .fails wtNoBacking
    else if image.length < 64 + h.len + 16 * ((h.len + 65535) / 65536) then .fails wtRead
    else
      let gen := fieldB image 16 4
      match s.wkey h.ctx gen with
      | none => .fails wtTag
      | some k =>
        match openChunks k.key (image.take 64) ((h.len + 65535) / 65536 + 1) 0 h.len (image.drop 64) with
        | none => .fails wtTag
        | some bs => .bytes bs gen

/-- R484, R485, R498: the check of a shard's bytes: none if it passes. -/
def checkShard (h : Shard) (bs : List Byte) : Option Nat :=
  match shardDigest bs with
  | none => some wtParse
  | some d => if d = h.digest then none else some wtDigest

/-- R498, R499, R511: a check of a shard has failed: captured and counted. -/
def State.wtFail (s : State) (h : Shard) (cause : Nat) : State :=
  ((s.dcap HM_WT_ERR 41 (h.id % 2 ^ 32 + place 34 32 cause + place 36 35 (min h.attempts 3) + place 40 37 h.ctx)).dinc
    HM_WT_CNT_CHKFAIL 1)

/-- R488, R489: the pages of a shard leave HBM; its frames are given back. -/
def State.dropFrames (s : State) (h : Shard) : State :=
  let s := if h.replaces.isSome then s else s.dropLines h.ctx h.page0 h.pages
  s.freeFrames h.ctx h.frames false

/-- The command that a load or page-in serves. -/
def State.wtCmd (s : State) (x : Nat) (seq : Option Nat) : Option Cmd :=
  match seq with
  | none => none
  | some n => (s.cmds x).find? (fun k => k.started && k.seq == n && (k.op == 0x0501 || k.op == 0x0503))

/-- R563, R582: the report of a load that failed. -/
def State.loadReport (s : State) (h : Shard) : List Byte := shardReport h.id 0xFFFFFFFF s.chip 0 0 false true

/-- R499, R508, R582: a shard becomes BAD. A load that waits for it replies SHARD and is undone; a replacement keeps its place
in the table, and its pass does not end. -/
def State.shardBad (s : State) (h : Shard) (cause : Nat) : State :=
  let s := (s.dinc HM_WT_CNT_BAD 1).logErr
    { source := 12, cls := LOST, cause := cause, ctx := some h.ctx, status := SHARD, info := word (s.dr HM_WT_ERR) }
  let s := s.dropFrames h
  match s.wtCmd h.ctx h.cmd with
  | some k =>
    if k.op = 0x0501 then
      let s : State := { s with wt := { s.wt with shards := s.wt.shards.filter (fun y => !(y.same h)) } }
      let s := if h.replaces.isSome then s else (upFrom h.page0 h.pages).foldl (fun s p => s.setPage h.ctx p 0) s
      let s := if h.replaces.isSome ∧ 2 ≤ s.role then
          let hold := s.wt.lost ++ [h.at_ - 1]
          ({ s with wt := { s.wt with lost := hold } } : State).sendReport (shardReport h.id (h.at_ - 1) s.chip 0 0 false true)
        else s
      s.reply h.ctx k SHARD (s.loadReport h) (s.progress k none [])
    else ((s.setShard h (fun y => { y with state := .bad, frames := [], cmd := none })).reply h.ctx k SHARD (s.loadReport h)
      (s.progress k none []))
  | none =>
    let s := s.setShard h (fun y => { y with state := .bad, frames := [], cmd := none })
    (upFrom h.page0 h.pages).foldl (fun s p => s.stopHalted h.ctx p FAULT) s

/-- R499: a re-fetch begins, if there is a backing copy and fewer than three have failed; else the shard is BAD. -/
def State.refetch (s : State) (h : Shard) (cause : Nat) : State :=
  if h.fly.isNone && h.host.isNone then s.shardBad h wtNoBacking
  else if 3 ≤ h.attempts then s.shardBad h cause
  else
    let s := if h.replaces.isSome then s else s.dropLines h.ctx h.page0 h.pages
    (s.setShard h (fun y => { y with state := .moving, queued := false })).dinc HM_WT_CNT_REFETCH 1

/-- R487: the pass from which a shard that has just come into HBM is stamped. -/
def State.stampFrom (s : State) (h : Shard) : Nat := if h.replaces.isSome && decide (2 ≤ s.role) then h.at_ else s.rv.pass

/-- R487, R488, R494: the bytes of a shard are in its frames: they are stamped, and its pages marked. -/
def State.shardIn (s : State) (h : Shard) (bs : List Byte) : State :=
  let s := s.shardWrite h bs
  let st : ShState := if h.replaces.isSome then .staged else .resident
  let tick := s.wt.tick + 1
  let up := fun (y : Shard) =>
    { y with state := st, attempts := 0, check := tick, injSince := 0, wait := false, queued := false, cmd := none }
  let s : State := { s with wt := { s.wt with tick := tick } }
  let s := s.modShard h up
  (s.stampNext (up h) (s.stampFrom h)).mapShard (up h)

/-- R497: the lowest n flies pages in no use, and the lowest image number (assumption 36). -/
def State.flyPlace (s : State) (n : Nat) : Nat × Nat :=
  let ends := 1024 :: s.wt.flies.map (fun f => f.page + f.pages)
  let free := ends.filter (fun p => decide (p + n ≤ flyEnd) && s.wt.flies.all (fun f =>
    decide (p + n ≤ f.page) || decide (f.page + f.pages ≤ p)))
  let page := free.foldl min (free.headD 1024)
  let num := ((List.range (s.wt.flies.length + 1)).find? (fun i => !(s.wt.flies.any (fun f => f.num == i)))).getD 0
  (page, num)

/-- R494, R497, R501: the flies copy of a shard, bound to the identity of its weight key. -/
def State.keepFly (s : State) (h : Shard) (bs : List Byte) (gen : Nat) : Option Nat × State :=
  if h.keepfly = false then (none, s)
  else if h.fly.isSome then (h.fly, s)
  else
    let ident := match s.wkey h.ctx gen with | some k => k.ident | none => 0
    let p := s.flyPlace h.pages
    let img : FlyImage := { num := p.2, ctx := h.ctx, ident := ident, shard := h.id, page := p.1, data := bs }
    (some p.2, { s with wt := { s.wt with flies := s.wt.flies ++ [img] } })

/-- R494, R496, R582: the copy read for a load passed: the shard is in, and the command answers. A WRITABLE one keeps no backing
copy. -/
def State.loadDone (s : State) (h : Shard) (bs : List Byte) (gen : Nat) : State :=
  let k := s.wtCmd h.ctx h.cmd
  let f := s.keepFly h bs gen
  let backed := fun (y : Shard) => if h.writable then { y with fly := none, host := none, pin := true } else { y with fly := f.1, gen := gen }
  let s := (f.2.modShard h backed).shardIn (backed h) bs
  match k with
  | some k => if k.op = 0x0501 then s.reply h.ctx k OK (leBytes 4 (if h.keepfly then f.1.getD 0 else 0xFFFFFFFF)) else s.reply h.ctx k OK
  | none => s

/-- R498: a copy is checked on arrival. -/
def State.arrivalOf (s : State) (h : Shard) (image : List Byte) : State × Option (List Byte × Nat) × Nat :=
  match s.copyOf h image with
  | .fails c => (s.wtFail h c, none, c)
  | .bytes bs gen =>
    let s := s.dinc HM_WT_CNT_CHECK 1
    match checkShard h bs with
    | none => (s, some (bs, gen), 0)
    | some c => (s.wtFail h c, none, c)

/-- The entry of the table that a load, page-in or re-fetch of a SHARDID works on. -/
def State.shardIn? (s : State) (x id : Nat) (st : ShState) : Option Shard :=
  s.wt.shards.find? (fun h => h.ctx == x && h.id == id && h.state == st)

/-- R572, R605, R704: whether the image of a shard cannot be read now: its context is pre-empted, the function may not master the
bus, or the flash interface has no clock. -/
def State.imageWaits (s : State) (h : Shard) : Bool :=
  (s.cx h.ctx).state == 2 || (h.fly.isNone && h.host.isSome && !(s.mayMaster h.ctx)) || (h.fly.isSome && s.domStopped 57)

/-- R494: the image of a load has been read. -/
def execWtLoadComplete (x : Ctx) (shard : BitVec 32) (image : List Byte) (s : State) : Res :=
  match s.shardIn? x.val shard.toNat .loading with
  | none => waits s
  | some h =>
    if s.imageWaits h then waits s
    else
      let r := s.arrivalOf h image
      match r.2.1 with
      | some b => .next (r.1.loadDone h b.1 b.2)
      | none => .next (r.1.refetch h r.2.2)

/-! ### Demotion (R504) -/

/-- R504: whether a live stream of the context reads the shard. -/
def State.shardRead (s : State) (h : Shard) : Bool :=
  s.cls.toList.any (fun k => k.owner == h.ctx && k.st.slots.any (fun p =>
    let d := streamD p.2.desc
    p.2.stop.isNone && d.dir == 0 && gKind d.addr == 1 && (d.idx || (upFrom 0 d.runs).any (fun r =>
      let a := gOff (d.runAddr r 0) / 2097152
      decide (h.page0 ≤ a) && decide (a < h.page0 + h.pages)))))

/-- R504: whether a shard may be demoted. -/
def State.canDemote (s : State) (h : Shard) : Bool :=
  h.state == .resident && !h.pin && !h.writable && (h.fly.isSome || h.host.isSome) && h.replaces.isNone
    && h.injPass != some s.rv.pass && !(s.shardRead h)

/-- R504: the next shard of context x to demote: the least recently injected, then the highest SHARDID. -/
def State.nextDemote (s : State) (x : Nat) : Option Shard :=
  (s.wt.shards.filter (fun h => h.ctx == x && s.canDemote h)).foldl (fun b h =>
    match b with
    | none => some h
    | some y => if h.inj < y.inj ∨ (h.inj = y.inj ∧ y.id < h.id) then some h else some y) none

/-- R504: a shard is demoted. -/
def State.demote (s : State) (h : Shard) : State :=
  let s := s.dropFrames h
  let s := s.setShard h (fun y => { y with state := .backed, frames := [], queued := false, stamp := none })
  let s : State := { s with wt := { s.wt with queue := s.wt.queue.filter (fun q => q != (h.ctx, h.id)) } }
  s.dinc HM_WT_CNT_DEMOTE 1

/-- Demote shards of context x, at most n, until a condition holds. -/
def State.demoteUntil (x : Nat) (ok : State → Bool) : Nat → State → State
  | 0, s => s
  | n + 1, s => if ok s then s else match s.nextDemote x with | some h => State.demoteUntil x ok n (s.demote h) | none => s

/-! ### Paging (R504) -/

/-- R504: a shard starts to come in: frames found, demoting others where the quota leaves none. The flag tells whether it
could. -/
def State.startPageIn (s : State) (h : Shard) (cmd : Option Nat) (pin : Bool) : Bool × State :=
  let s := State.demoteUntil h.ctx (fun s => s.framesLeft h.ctx h.pages) s.wt.shards.length s
  if s.framesLeft h.ctx h.pages = false then (false, s)
  else
    let r := s.takeFrames h.pages
    let p : PageIn := ⟨h.ctx, h.id, cmd, pin⟩
    let s : State := { r.2 with wt := { r.2.wt with pageIns := r.2.wt.pageIns ++ [p] } }
    (true, s.setShard h (fun y => { y with state := .moving, frames := r.1 }))

/-- R497, R504: the firmware takes the i-th page request. -/
def execPageInRequest (i : Nat) (s : State) : Res :=
  match s.mem.pageReqs[i]? with
  | none => waits s
  | some r =>
    let t := { s with mem := { s.mem with pageReqs := s.mem.pageReqs.eraseIdx i } }
    match s.shardAt r.1 r.2 with
    | none => .next (t.stopHalted r.1 r.2 FAULT)
    | some h =>
      match h.state with
      | .backed =>
        if 16 ≤ s.wt.pageIns.length then waits s
        else
          let p := t.startPageIn h none false
          .next (if p.1 then p.2 else p.2.stopHalted r.1 r.2 QUOTA)
      | .bad => .next (t.stopHalted r.1 r.2 FAULT)
      | _ => .next t

/-- A page-in of a shard. -/
def State.pageIn (s : State) (x id : Nat) : Option PageIn := s.wt.pageIns.find? (fun p => p.ctx == x && p.shard == id)

/-- R504, R583: a page-in has read every page of its backing copy: checked as it arrives, its pages become resident. -/
def execPageInComplete (x : Ctx) (shard : BitVec 32) (image : List Byte) (s : State) : Res :=
  match s.pageIn x.val shard.toNat, s.shardIn? x.val shard.toNat .moving with
  | some p, some h =>
    if s.imageWaits h then waits s else
    let s : State := { s with wt := { s.wt with pageIns := dropFirst (fun y => y == p) s.wt.pageIns } }
    let s := s.dinc (if h.fly.isSome then HM_WT_CNT_PGFLY else HM_WT_CNT_PGHOST) h.pages
    let h' := { h with cmd := p.cmd, pin := h.pin || p.pin }
    let s := s.modShard h (fun _ => h')
    let r := s.arrivalOf h' image
    match r.2.1 with
    | some b => .next (r.1.loadDone { h' with keepfly := false } b.1 b.2)
    | none => .next (r.1.refetch h' r.2.2)
  | _, _ => waits s

/-- R499: a re-fetched shard is checked. -/
def execRefetchComplete (x : Ctx) (shard : BitVec 32) (image : List Byte) (s : State) : Res :=
  match s.pageIn x.val shard.toNat, s.shardIn? x.val shard.toNat .moving with
  | none, some h =>
    if s.imageWaits h then waits s else
    let r := s.arrivalOf h image
    match r.2.1 with
    | some b => .next (r.1.loadDone h b.1 b.2)
    | none =>
      let h' := { h with attempts := h.attempts + 1 }
      .next ((r.1.modShard h (fun _ => h')).refetch h' r.2.2)
  | _, _ => waits s

/-! ### Checks (R498 to R500) -/

/-- R498 to R500: the first check of the queue completes. -/
def execShardCheckComplete (s : State) : Res :=
  match s.wt.queue with
  | [] => waits s
  | q :: t =>
    let s : State := { s with wt := { s.wt with queue := t } }
    match s.shardIn? q.1 q.2 .resident with
    | none => .next s
    | some h =>
      let bad := (upFrom 0 h.pages).any (fun i => !(s.hbmBad (h.phys (2097152 * i)) (min 2097152 (h.len - 2097152 * i))).isEmpty)
      let cause := if bad then some wtRead else checkShard h (s.shardBytes h)
      let s := s.dinc HM_WT_CNT_CHECK 1
      match cause with
      | none =>
        let tick := s.wt.tick + 1
        let s : State := { s with wt := { s.wt with tick := tick } }
        .next (s.modShard h (fun y => { y with check := tick, injSince := 0, wait := false, queued := false }))
      | some c =>
        let s := s.wtFail h c
        let s := if h.injPass = some s.rv.pass ∧ 2 ≤ s.role then
            ({ s with wt := { s.wt with hold := some s.rv.pass } } : State).sendReport
              (shardReport h.id s.rv.pass s.chip s.ringPos 0 false true)
          else s
        .next (s.refetch { h with attempts := 0 } c)

/-- R498: the idle scrub queues the resident shard of the oldest last check. -/
def execIdleScrubCheck (s : State) : Res :=
  let hs := s.wt.shards.filter (fun h => h.state == .resident && !h.writable && !h.queued)
  let old := hs.foldl (fun b h => match b with | none => some h | some y => if h.check < y.check then some h else some y) none
  match old with
  | none => waits s
  | some h =>
    if bit (s.dr HM_WT_CTRL) 24 && s.wt.queue.isEmpty then
      let t := s.modShard h (fun y => { y with queued := true })
      .next { t with wt := { t.wt with queue := [(h.ctx, h.id)] } }
    else waits s

/-! ### Repair (R502, R503) -/

/-- R503: the manager takes a shard report. -/
def execShardReportReceive (report : BitVec 128) (s : State) : Res :=
  whenever s (s.role == 3) (s.takeReport (leBytes 16 report.toNat))

/-- The chip at a ring position, as the description or frames show it (assumption 37). -/
def State.chipAt (s : State) (pos : Nat) : Option Nat :=
  let n := s.ringN
  if pos = s.ringPos then some s.chip
  else if pos = (s.ringPos + 1) % n then some s.cwChip
  else if pos = (s.ringPos + n - 1) % n then some s.acwChip
  else (s.rv.chips.find? (fun c => c.1 == pos)).map (·.2)

/-- R502: a repair of the slice of a position is requested; it fails when ENDWAIT passes without its end mark. -/
def State.askRepair (s : State) (pos : Nat) : State :=
  let up := fun (h : ShortSlice) => { h with asked := h.asked + 1, until_ := s.timebase + s.rvEndWait }
  let shorts := if s.rv.shorts.any (fun h => h.pos == pos) then updFirst (fun h => h.pos == pos) up s.rv.shorts
    else s.rv.shorts ++ [up { pos := pos, until_ := 0 }]
  let s := ({ s with rv := { s.rv with shorts := shorts } } : State).dinc LK_RV_CNT_REPAIR 1
  match s.chipAt pos with
  | some c => s.sendMgmt c (leBytes 1 tagRepair ++ leBytes 1 s.ringSlice ++ leBytes 2 s.rv.pass ++ leBytes 4 s.chip)
  | none => s

/-- R502: REPAIRWAIT after a mark that leaves its slice short, ENDWAIT without a mark, or a request that failed. -/
def execRepairWaitExpiry (pos : Nat) (s : State) : Res :=
  if bit (s.dr LK_RV_STATUS) 3 = false ∨ s.ringN ≤ pos ∨ pos = s.ringPos ∨ s.sliceWhole pos ∨ s.rv.given.contains s.rv.pass then waits s
  else
    match s.rv.shorts.find? (fun h => h.pos == pos) with
    | some h => whenever s (decide (h.until_ ≤ s.timebase) && decide (h.asked < 3)) (s.askRepair pos)
    | none => whenever s (decide (s.rv.relAt + s.rvEndWait ≤ s.timebase)) (s.askRepair pos)

/-- R503: the first piece of a position that is not whole. -/
def State.firstShort (s : State) (pos : Nat) : Nat :=
  let have_ := (s.wholePieces pos).map (·.num)
  ((List.range (have_.length + 1)).find? (fun n => !(have_.contains n))).getD 0

/-- R503: the device gives up on the pass. -/
def State.giveUp (s : State) (pos : Nat) : State :=
  let p := s.rv.pass
  let chip := (s.chipAt pos).getD 0
  let noend := !(s.rv.marks.any (fun m => m.src == pos))
  let piece := s.firstShort pos
  let s : State := { s with rv := { s.rv with given := nsIns s.rv.given p } }
  let s := s.dcap LK_RV_SHFAIL 57 (p % 65536 + place 27 16 pos + place 39 28 chip + place 55 40 piece + place 56 56 (b2n noend))
  let s := s.logErr { source := 14, cls := LOST, cause := 5, info := word (s.dr LK_RV_SHFAIL) }
  s.sendReport (shardReport 0xFFFFFFFF p chip pos piece noend false)

/-- R503: three requests failed, or SHARDTMO passed. -/
def execShardGiveUp (pos : Nat) (s : State) : Res :=
  if bit (s.dr LK_RV_STATUS) 3 = false ∨ s.ringN ≤ pos ∨ pos = s.ringPos ∨ s.sliceWhole pos ∨ s.rv.given.contains s.rv.pass then waits s
  else
    let asked := s.rv.shorts.any (fun h => h.pos == pos && decide (3 ≤ h.asked) && decide (h.until_ ≤ s.timebase))
    whenever s (asked || decide (s.rv.relAt + s.rvShardTmo ≤ s.timebase)) (s.giveUp pos)

/-- R453: the REPAIR frames of one piece. -/
def repairFrames (pass pos slice : Nat) (piece : List Byte) : List (List Byte) :=
  let parts := cut 448 piece
  ((List.range parts.length).zip parts).map (fun p =>
    leBytes 2 pass ++ leBytes 2 pos ++ leBytes 2 (recPiece piece) ++ leBytes 1 0 ++ leBytes 1 slice ++ leBytes 4 (448 * p.1)
      ++ leBytes 4 0 ++ p.2)

/-- R502: the injector resends its whole slice of the pass to a chip, with its end mark. -/
def State.resendSlice (s : State) (chip : Nat) : State :=
  let ps := (s.wt.shards.filter (fun h => h.injPass == some s.rv.pass)).flatMap (fun h =>
    ((shardPieces (s.shardBytes h)).getD []).map (·.2))
  let pass := s.rv.pass % 65536
  let s := ps.foldl (fun s p => (repairFrames pass s.ringPos s.ringSlice p).foldl (fun s d =>
    s.sendOp chip 0 3 8 0 0 63 0 d) s) s
  let total := (ps.map (fun p => p.length - 64)).foldl (· + ·) 0
  let s := s.sendOp chip 0 3 8 0 0 63 0 (leBytes 2 pass ++ leBytes 2 s.ringPos ++ leBytes 2 ps.length ++ leBytes 1 1
    ++ leBytes 1 s.ringSlice ++ leBytes 8 0 ++ leBytes 8 total)
  s.dinc LK_RV_CNT_REPAIRSRV 1

/-- R502: a repair request reaches the injector. -/
def execRepairRequestReceive (chip : BitVec 12) (slice : Byte) (pass : BitVec 16) (s : State) : Res :=
  whenever s (decide (2 ≤ s.role) && slice.toNat == s.ringSlice && pass.toNat == s.rv.pass % 65536 && s.rv.injDone)
    (s.resendSlice chip.toNat)

/-! ### Replacement (R506 to R509) -/

/-- R507, R509: the old shard's pages lead to the new frames, in one step; the old frames are given back. -/
def State.swap (s : State) (h old : Shard) : State :=
  let s := s.dropLines h.ctx h.page0 (max h.pages old.pages)
  let s := s.freeFrames h.ctx old.frames false
  let s : State := { s with wt := { s.wt with
    shards := s.wt.shards.filter (fun y => !(y.same old))
    pageIns := s.wt.pageIns.filter (fun p => !(p.ctx == old.ctx && p.shard == old.id))
    queue := s.wt.queue.filter (fun q => q != (old.ctx, old.id)) } }
  let s := s.setShard h (fun y => { y with state := .resident, replaces := none })
  let s := (upFrom (h.page0 + h.pages) (old.pages - h.pages)).foldl (fun s p => s.setPage h.ctx p 0) s
  s.dinc HM_WT_CNT_SWAP 1

/-- The staged shard of context x whose pass comes first, and the one it replaces. -/
def State.stagedPair (s : State) (x id : Nat) : Option (Shard × Shard) :=
  match (s.wt.shards.filter (fun h => h.ctx == x && h.id == id && h.state == .staged)).foldl (fun b h =>
    match b with
    | none => some h
    | some y => if h.at_ < y.at_ then some h else some y) none with
  | none => none
  | some h => match h.replaces with
    | some r => (s.shard x r).map (fun o => (h, o))
    | none => none

/-- R507: after the release of pass AT − 1 the replacement is swapped in. -/
def execReplacementSwap (x : Ctx) (shard : BitVec 32) (s : State) : Res :=
  match s.stagedPair x.val shard.toNat with
  | none => waits s
  | some (h, o) => whenever s (decide (2 ≤ s.role) && decide (h.at_ ≤ s.rv.pass)) (s.swap h o)

/-- R509: with no launch of the context running, a standalone replacement is swapped in. -/
def execStandaloneSwap (x : Ctx) (shard : BitVec 32) (s : State) : Res :=
  match s.stagedPair x.val shard.toNat with
  | none => waits s
  | some (h, o) => whenever s (s.role == 0 && !((s.cmds x.val).any (fun k => k.running))) (s.swap h o)

/-! ### Over quota (R279, R505, R570) -/

/-- R570: whether context x is within its quota. -/
def State.withinQuota (s : State) (x : Nat) : Bool :=
  let q := (s.cx x).quota
  decide (s.framesOf x ≤ q.frames) && decide (s.flyOf x ≤ q.fly) && decide (s.spUsed x ≤ q.spret)
    && decide ((s.ctrsOf x).length ≤ q.vctrs) && allCl.all (fun c => (s.cl c).owner != x || bit q.clmask c.val)

/-- R570: a quota event. -/
def State.quotaEvent (s : State) (x : Nat) (done : Bool) : State :=
  s.event x 8 0 s.timebase [BitVec.ofNat 8 (b2n (s.cx x).overQ + 2 * b2n done)]

/-- R505: whether a kernel of context x runs. -/
def State.kernelRuns (s : State) (x : Nat) : Bool :=
  (s.cmds x).any (fun k => k.running) || allCl.any (fun c => (s.cl c).owner == x && (s.cl c).run)

/-- R505, R570: a reclaim ends: the mark is cleared once the context is within its quota. -/
def State.reclaimEnd (s : State) (x : Nat) : State :=
  if s.withinQuota x then (s.modCx x (fun k => { k with overQ := false })).quotaEvent x true else s.quotaEvent x true

/-- R505: the firmware reclaims an over-quota context's resources. -/
def execQuotaReclaim (x : Ctx) (s : State) : Res :=
  if (s.cx x.val).overQ = false ∨ s.kernelRuns x.val then waits s
  else
    let s := (allCl.filter (fun c => (s.cl c).owner == x.val)).foldl (fun s c => s.reclaimCluster x.val c) s
    let s := if s.withinQuota x.val then s else s.maintain (place 5 2 x.val + place 10 7 4)
    let s := State.demoteUntil x.val (fun s => decide (s.framesOf x.val ≤ (s.cx x.val).quota.frames)) s.wt.shards.length s
    .next (s.reclaimEnd x.val)

/-- R279: retained buffers of one cluster of an over-quota context are reclaimed. -/
def execScratchpadReclaim (x : Ctx) (c : Cl) (s : State) : Res :=
  whenever s ((s.cx x.val).overQ && (s.cl c).owner == x.val && !(s.kernelRuns x.val)) (s.reclaimCluster x.val c)

end Sys2Proof.Machine
end

