-- ==== Sys2Proof/Machine/RegOps.lean ====
section
/-! DEFINITION. Sys2Proof/Machine/RegOps.lean: the device registers as the firmware, the debug path, the cores and the host's
functions reach them: what a read shows and what a write does (R11 to R15, R218, R301, R399, R403, R442, R481, R510, R540, R590,
R614, R636, R660, R693, R720, R734, R735, R748). -/

namespace Sys2Proof.Machine

/-! ### What registers show -/

/-- The least LAST of CL_STEP_RATE and its cluster (R706). -/
def State.minRate (s : State) : Nat × Nat :=
  let l := (List.range 40).map (fun c => (bits ((s.clN c).r CL_STEP_RATE) 15 0, c))
  l.foldl (fun b p => if p.1 < b.1 then p else b) (l.headD (0, 0))

/-- MG_CX_STATUS. -/
def State.cxStatus (s : State) (x : Nat) : Nat :=
  (s.cx x).state + place 2 2 (b2n (s.cx x).overQ) + place 11 3 (s.unreplied x)

/-- HM_WT_STATUS. -/
def State.wtStatus (s : State) : Nat :=
  b2n (!s.wt.queue.isEmpty) + place 12 1 (min s.wt.queue.length 4095) + place 17 13 s.wt.pageIns.length

/-- SC_STATUS, but for RNGFAIL. -/
def State.scStatus (s : State) : Nat :=
  place 7 1 s.sec.floor + place 11 8 s.sec.rootRev + place 12 12 (b2n s.sec.owner.isSome)

/-- Whether an address lies in a row of n registers of a stride, and which it names. -/
def regIndex (a base n stride : Nat) : Option Nat :=
  if base ≤ a ∧ a < base + n * stride ∧ (a - base) % stride = 0 then some ((a - base) / stride) else none

/-- What a status register of the device shows that other state of the model holds; none for a register that holds its own
fields. -/
def State.liveDev (s : State) (a : Nat) : Option Nat :=
  if a = HM_SHC_MSTATUS then some (setBits (s.dr a) 0 0 (b2n s.mem.maint.isSome))
  else if a = HM_WT_STATUS then some s.wtStatus
  else if a = PC_LINK_STATUS then some (setBits (s.dr a) 25 10 (if s.pcie.vfe then s.pcie.numVfs else 0))
  else if a = MG_SU_STATUS then some (setBits (s.dr a) 13 11 s.lcState)
  else if a = SC_STATUS then some (setBits (s.dr a) 12 1 (s.scStatus / 2))
  else if a = SC_BOOT then some (setBits (setBits (s.dr a) 1 1 (b2n s.sec.pend)) 3 2 s.sec.tries)
  else if a = MG_EL_STATUS then some (s.err.total % 2 ^ 32 + place 32 32 (b2n s.err.fatal))
  else if a = MG_DBG_STATUS then some (setBits (setBits (s.dr a) 6 4 s.lcState) 1 1 (b2n s.sec.token.isSome))
  else if a = MG_DBG_CSEL then some (setBits (s.dr a) 17 17 (b2n (s.clN (bits (s.dr a) 5 0)).core.bpHit))
  else if a = PW_GOV_STATUS then some (setBits (setBits (s.dr a) 47 32 s.minRate.1) 53 48 s.minRate.2)
  else
    match regIndex a SY_CTR 65536 8, regIndex a MG_CX_STATUS 16 0x1000, regIndex a HM_STK_STATUS 8 0x1000,
        regIndex a MG_EL_LOG 4096 8 with
    | some p, _, _, _ => some (s.dctr p)
    | _, some x, _, _ => some (s.cxStatus x)
    | _, _, some st, _ => some (setBits (s.dr a) 25 12 (s.mem.bad.filter (fun w => stackOf (w * 8) == st)).length)
    | _, _, _, some w => some (fieldB (amGet [] s.err.log (w / 4)) (w % 4 * 8) 8)
    | _, _, _, _ =>
      match regIndex a SC_IDDIG 4 8, regIndex a MG_DBG_NONCE 4 8 with
      | some n, _ => some (fieldB (certKeyDigest idCert) (8 * n) 8)
      | _, some n => some (s.sec.nonce.toNat / 2 ^ (64 * n) % 2 ^ 64)
      | _, _ => none

/-- R218: the value of a device register outside the cluster blocks; an address that names no register reads zero. -/
def State.devValue (s : State) (a : Nat) : Nat :=
  match s.liveDev a with
  | some v => v
  | none => if (fieldsIn devRegRows a).isSome then s.dr a else 0

/-- R256: the cluster block that an address lies in, and the offset. -/
def clBlock (a : Nat) : Option (Cl × Nat) :=
  if 0x02000000 ≤ a then (toCl ((a - 0x02000000) / 65536)).map (fun c => (c, a % 65536)) else none

/-- A read of a device register: of a cluster block, with what the read does there; of the debug path's windows (R742, R743). -/
def State.devRead (s : State) (a : Nat) : Word × State :=
  match clBlock a with
  | some (c, off) => s.clRead c off
  | none =>
    if a = MG_DBG_CDATA then let t := s.dbgCdata none; (t.readData, t)
    else if a = MG_DBG_MDATA then let t := s.dbgMdata none; (t.readData, t)
    else (word (s.devValue a), s)

/-! ### Writes -/

/-- The captures of the device registers: address and place of VALID. -/
def devCaptures : List (Nat × Nat) :=
  [(SY_ERR, 36), (LK_ERR, 16), (HM_WT_ERR, 41), (LK_RV_SHFAIL, 57), (SC_ERR, 31)]
    ++ (List.range 8).map (fun st => (stkReg HM_STK_ERR st, 43))

/-- R11 to R14: a write takes effect under the access codes of the fields; a capture is cleared with its VALID. -/
def State.devPlain (s : State) (a v : Nat) : State :=
  match fieldsIn devRegRows a with
  | none => s
  | some fs =>
    let old := s.dr a
    let new := writeFields fs old v
    s.dw a (match devCaptures.find? (fun p => p.1 == a) with | some p => clearCapture old new p.2 | none => new)

/-- R540: MG_US_DIV0 is written; clearing VALID clears all three capture registers. -/
def State.writeUsDiv (s : State) (v : Nat) : State :=
  let had := bit (s.dr MG_US_DIV0) 25
  let s := s.devPlain MG_US_DIV0 v
  if had && bit v 25 then (((s.dw MG_US_DIV0 (place 26 26 (bits (s.dr MG_US_DIV0) 26 26))).dw MG_US_DIV1 0).dw MG_US_DIV2 0) else s

/-- R590: EN of context x is set: TAIL, SERIAL, OFFSET and NEXT start again. -/
def State.cxEnable (s : State) (x : Nat) : State :=
  let s := (s.dwf (cxReg MG_CX_RRHEAD x) 63 32 0).dwf (cxReg MG_CX_ERHEAD x) 63 32 0
  let s := s.dw (cxReg MG_CX_INTAKE x) (2 ^ 20)
  s.modCx x (fun k => { k with serial := 0, lost := 0, sealAt := none })

/-- R590: MG_CX_CTRL of context x is written. -/
def State.writeCxCtrl (s : State) (x v : Nat) : State :=
  let was := bit (s.dr (cxReg MG_CX_CTRL x)) 0
  let s := s.devPlain (cxReg MG_CX_CTRL x) v
  if !was && bit v 0 then s.cxEnable x else s

/-- R590: a ring register of context x is written; BASE stays while EN is set. -/
def State.writeCxRing (s : State) (x r v : Nat) : State :=
  let old := s.dr (cxReg r x)
  let v := if bit (s.dr (cxReg MG_CX_CTRL x)) 0 then bits v 11 0 + place 63 12 (bits old 63 12) else v
  s.devPlain (cxReg r x) v

/-- R546: RESTART of context x. -/
def State.cxRestart (s : State) (x : Nat) : State :=
  (s.dw (cxReg MG_CX_INTAKE x) (2 ^ 20)).modCx x (fun k => { k with sealAt := none })

/-- R735, R728: debug access closes; halted cores resume. -/
def State.closeDebug (s : State) : State :=
  if s.debugOpen = false then s
  else
    let s := s.dwf MG_DBG_STATUS 0 0 0
    let s := allCl.foldl (fun s c => (s.clearHalt c).dw (MG_DBG_BP + 8 * c.val) 0) s
    (s.dw MG_DBG_ATTACH 0).logErr { source := 0x16, cls := INFO, cause := 2 }

/-- R729: CLR. -/
def State.clearLog (s : State) : State := { s with err := { s.err with log := [], total := 0, fatal := false } }

/-- R646: KICK. -/
def State.kick (s : State) : State := { s with boot := { s.boot with kick := s.pw.uptime } }

/-- Writes of the registers that need open debug access (R734). -/
def State.dbgWrite (s : State) (a v : Nat) : State := if s.debugOpen then s.devPlain a v else s.denied

/-- R445: LK_PORT_CTRL of port p is written. -/
def State.writePortCtrl (s : State) (p v : Nat) : State :=
  let was := bit (s.dr (portReg LK_PORT_CTRL p)) 0
  let s := s.devPlain (portReg LK_PORT_CTRL p) (v / 2 * 2 + b2n was)
  if bit v 0 = was then s else if bit v 0 then s.portEn p else s.portOff p

/-- Writes of the rows of like registers. -/
def State.writeRow (s : State) (a v : Nat) : State :=
  match regIndex a SY_PAIR 256 8, regIndex a SY_VMAP 65536 8, regIndex a SY_CUR_CFG 16 0x20, regIndex a LK_PORT_CTRL 8 0x1000 with
  | some k, _, _, _ => s.writeDevPair k v
  | _, some n, _, _ => s.writeVmap (n / 4096) (n % 4096) v
  | _, _, some k, _ => s.writeCurCfg k v
  | _, _, _, some p => s.writePortCtrl p v
  | _, _, _, _ =>
    match regIndex a LK_PORT_VCBUF 8 0x1000, regIndex a MG_CX_CTRL 16 0x1000, regIndex a MG_CX_RRING 16 0x1000,
        regIndex a MG_CX_ERING 16 0x1000 with
    | some p, _, _, _ => s.writeVcbuf p v
    | _, some x, _, _ => s.writeCxCtrl x v
    | _, _, some x, _ => s.writeCxRing x MG_CX_RRING v
    | _, _, _, some x => s.writeCxRing x MG_CX_ERING v
    | _, _, _, _ =>
      match regIndex a MG_CX_INTAKE 16 0x1000, regIndex a MG_DBG_BP 40 8 with
      | some x, _ => if bit v 53 then s.cxRestart x else s
      | _, some _ => s.dbgWrite a v
      | _, _ => s.devPlain a v

/-- MG_DBG_CSEL is written: BPHIT belongs to the cluster selected. -/
def State.writeCsel (s : State) (v : Nat) : State :=
  let c := bits (s.dr MG_DBG_CSEL) 5 0
  let s := s.devPlain MG_DBG_CSEL v
  if bit v 17 then s.modN c (fun k => { k with core := { k.core with bpHit := false } }) else s

/-- A write of a device register outside the cluster blocks. -/
def State.devWriteOut (s : State) (who : Writer) (a v : Nat) : State :=
  if a = HM_SHC_MAINT then s.writeMaint v
  else if a = SY_SETV then s.writeSySetv who v
  else if a = MG_US_CTRL then s.writeUsCtrl v
  else if a = MG_US_DIV0 then s.writeUsDiv v
  else if a = MG_SU_WDOG then (let s := s.devPlain a v; if bit v 0 then s.kick else s)
  else if a = MG_EL_CTRL then (let s := s.devPlain a v; if bit v 1 then s.clearLog else s)
  else if a = MG_DBG_CTRL then (let s := s.devPlain a v; if bit v 0 then s.closeDebug else s)
  else if a = MG_DBG_ATTACH then s.dbgWrite a v
  else if a = MG_DBG_CSEL then s.writeCsel v
  else if a = MG_DBG_CDATA then s.dbgCdata (some (word v))
  else if a = MG_DBG_MDATA then s.dbgMdata (some (word v))
  else s.writeRow a v

/-- A write of a device register. -/
def State.devWrite (s : State) (who : Writer) (a v : Nat) : State :=
  match clBlock a with
  | some (c, off) => s.clWrite who c off v
  | none => s.devWriteOut who a v

/-- R218, R734: a write of a register by a party: a core reaches its own cluster's block only, and the debug path writes only
while access is open, and never an SC_ register. -/
def execRegisterWrite (who : Writer) (addr : Nat) (val : Word) (s : State) : Res :=
  match who with
  | .firmware => .next (s.devWrite who addr val.toNat)
  | .debugPath =>
    if s.debugOpen = false then .next s.denied
    else if 0x0E000000 ≤ addr ∧ addr < 0x0F000000 then .next s
    else .next (s.devWrite who addr val.toNat)
  | .core c =>
    match clBlock addr with
    | some (d, off) =>
      let prot := off < 0x100 ∨ (0x300 ≤ off ∧ off < 0x400)
      if d = c ∧ ¬ prot then .next (s.clWrite who d off val.toNat) else .next s
    | none => .next s

/-! ### The rows that are single register accesses -/

/-- R590: MG_CX_CTRL is written with EN set. -/
def execMgCxEnSet (x : Ctx) (val : Word) (s : State) : Res := .next (s.writeCxCtrl x.val (val.toNat / 2 * 2 + 1))

/-- R590: MG_CX_CTRL is written with EN clear. -/
def execMgCxEnClear (x : Ctx) (val : Word) (s : State) : Res := .next (s.writeCxCtrl x.val (val.toNat / 2 * 2))

/-- R546: RESTART is written. -/
def execIntakeRestart (x : Ctx) (s : State) : Res := .next (s.cxRestart x.val)

/-- R735: CLOSE is written, or debug access closes for a reset or a life-cycle change. -/
def execDebugClose (s : State) : Res := .next s.closeDebug

/-- R730: FREEZE is written. -/
def execFreezeWrite (on : Bool) (s : State) : Res := .next (s.dwf MG_DBG_CTRL 1 1 (b2n on))

/-- R729: CLR is written. -/
def execMgElClr (s : State) : Res := .next s.clearLog

/-- R646: MG_SU_WDOG is written with KICK. -/
def execWdogKick (val : Word) (s : State) : Res := .next (s.devPlain MG_SU_WDOG val.toNat).kick

end Sys2Proof.Machine
end

