-- ==== Sys2Proof/Machine/Playbill.lean ====
section
/-! DEFINITION. Sys2Proof/Machine/Playbill.lean: what the firmware writes for a launch: the run block (R518) and the playbills
(R522 to R524). -/

namespace Sys2Proof.Machine

/-- The parts of n bytes from a that lie in one page each. -/
def pageParts : Nat → Nat → Nat → List (Nat × Nat)
  | 0, _, _ => []
  | f + 1, a, n => if n = 0 then [] else let k := min n (2097152 - a % 2097152); (a, k) :: pageParts f (a + k) (n - k)

/-- The parts of a range. -/
def partsOf (a n : Nat) : List (Nat × Nat) := pageParts (n / 2097152 + 2) a n

/-- R518, R522: the firmware writes bytes to a global address of context x; a scratchpad without a window (assumption 42). -/
def State.fwWrite (s : State) (x a : Nat) (bs : List Byte) : State :=
  match gKind a with
  | 1 => (partsOf (gOff a) bs.length).foldl (fun s p => match s.translate x p.1 with
      | .at_ q false => s.hbmWrite q ((bs.drop (p.1 - gOff a)).take p.2)
      | _ => s) s
  | 2 => s.modN (bits a 24 19) (fun k => k.spWrite (a % 524288) bs)
  | 3 => s.hostWrite x (gOff a) bs
  | _ => s

/-- R523, R677: the digest over the shards of context x, in ascending SHARDID; WTS is its first 12 bytes. -/
def State.wts (s : State) (x : Nat) : List Byte :=
  let hs := s.wt.shards.filter (fun h => h.ctx == x && h.state != .staged && h.state != .loading)
  let m := hs.foldl (fun m h => amIns m h.id h.digest) ([] : List (Nat × BitVec 256))
  leBytes 32 (Config.sha3 (m.flatMap (fun e => leBytes 4 e.1 ++ leBytes 32 e.2.toNat))).toNat

/-- R524: what the device saw during a launch on its clusters. -/
def State.billFlags (s : State) (x : Nat) (k : Cmd) (incomplete : Bool) : Nat :=
  let seen := (s.launchCls x k).foldl (fun f c => Nat.lor f (s.cl c).flags) 0
  let wr := s.wt.shards.any (fun h => h.ctx == x && h.state != .staged && h.state != .loading && h.writable)
  let whole := k.usWhole && s.usState == 2 && !k.usDiv
  bits seen 2 0 + 8 * b2n wr + 16 * b2n incomplete + 32 * b2n whole + 64 * b2n k.usDiv

/-- R523: the playbill of a launch. -/
def State.playbill (s : State) (x : Nat) (k : Cmd) (incomplete : Bool) : List Byte :=
  let ring := s.role ≥ 2
  let prog := (((s.cx x).progs.find? (fun g => g.id == k.f 16 2)).map (·.prog)).getD []
  let front := leBytes 2 1 ++ leBytes 1 (s.billFlags x k incomplete) ++ leBytes 1 0 ++ sliceB k.pkt 64 4
    ++ leBytes 2 (if ring then s.ringN else 1) ++ leBytes 2 (if ring then s.ringPos else 0)
  let rest := sliceB prog 0 12 ++ (s.wts x).take 12 ++ sliceB k.pkt 80 12 ++ leBytes 12 (Config.sha3 (sliceB k.pkt 72 8)).toNat
  front ++ leBytes 4 (crc32c (front ++ rest)).toNat ++ rest

/-- The playbill addresses of a launch. -/
def Cmd.bills (k : Cmd) : List Nat := (upFrom 0 (min (k.f 60 1) 4)).map (fun i => k.f (128 + 8 * i) 8)

/-- R522: the playbills of a launch that has run are written. -/
def State.writeBills (s : State) (x : Nat) (k : Cmd) (incomplete : Bool) : State :=
  if k.op = 0x0401 ∧ k.running then
    let b := s.playbill x k incomplete
    k.bills.foldl (fun s a => (s.fwWrite x a b).dinc MG_DT_CNT_PLAYBILL 1) s
  else s

/-! ### What a launch has done (R561, R562) -/

/-- R562: the clusters of a launch that made EXIT. -/
def Cmd.exits (k : Cmd) : Nat := (k.ends.filter (·.exited)).length

/-- R561: the streams of a launch that ended STOPPED or CANCELLED, by ascending cluster and then slot. -/
def State.endedStrms (s : State) (x : Nat) (k : Cmd) : List (Nat × EndedStrm) :=
  (s.launchCls x k).flatMap (fun c => (List.range 16).flatMap (fun n =>
    ((s.cl c).ended.filter (fun e => e.slot == n)).map (fun e => (c.val, e))))

/-- R571: a command in flight ends with ABANDONED; a launch that runs writes its playbills. -/
def State.abandonCmd (s : State) (x : Nat) (k : Cmd) : State :=
  if k.op = 0x0401 ∧ k.running then
    let s := s.writeBills x k true
    let k' := { k with work := k.exits }
    s.reply x k ABANDONED [] (s.progress k' none (s.endedStrms x k))
  else s.replyAbandoned x k

end Sys2Proof.Machine
end

