-- ==== Sys2Proof/Machine/Resets.lean ====
section
/-! DEFINITION. Sys2Proof/Machine/Resets.lean: what resets wipe: clusters, links and contexts (R166, R277, R346, R400, R597, R610,
R648 to R655), and clusters that pass between contexts (R167). -/

namespace Sys2Proof.Machine

/-! ### Clusters (R166, R277, R400, R650, R744) -/

/-- Device watches and cues whose place in cluster c is wiped. -/
def CueDest.inCluster (d : CueDest) (c : Nat) : Bool :=
  match d with | .slot a _ => a == c | .wait a => a == c | .host _ _ => false

/-- The watches and cues of cluster c are gone. -/
def State.dropWatches (s : State) (c : Cl) : State :=
  { s with sy := { s.sy with watches := s.sy.watches.filter (fun w => !(w.dest.inCluster c.val))
                             cues := s.sy.cues.filter (fun q => !(q.dest.inCluster c.val)) } }

/-- R422: an injection whose stream is freed is stopped. -/
def State.dropInject (s : State) (c : Cl) : State :=
  if (s.cl c).st.slots.any (fun p => (streamD p.2.desc).inject) then s.injectEnd false else s

/-- What every wipe of a cluster does outside it: the cache written back, watches cued with ABANDONED, injections stopped,
breakpoints cleared. -/
def State.beforeWipe (s : State) (c : Cl) : State :=
  ((((s.ccFlush c).abandonLocal c).dropWatches c).dropInject c).clearDebug c

/-- A cluster after its reset: arrivals that it had admitted are still to be answered, and are rejected (R282). -/
def Cluster.afterReset (k : Cluster) (now : Nat) : Cluster :=
  { owner := k.owner, launch := k.launch, tk := k.tk, ended := k.ended, rejs := k.rejs
    waitA := k.admA.map (·.arr) ++ k.waitA, hangAt := now }

/-- R166, R277, R650: cluster c is wiped and at reset. -/
def State.wipeCluster (s : State) (c : Cl) : State :=
  (s.beforeWipe c).mod c (fun k => k.afterReset s.timebase)

/-- The registers that survive a change of context: all but the prop table and the windows (R277). -/
def Cluster.passRegs (k : Cluster) : List (Nat × Word) :=
  amErase (amErase k.regs CL_PROP (CL_PROP + 512)) CL_SP_WIN (CL_SP_WIN + 64)

/-- A cluster that has passed to context x. -/
def Cluster.passed (k : Cluster) (x now : Nat) : Cluster :=
  { owner := x, tk := k.tk, rejs := k.rejs, waitA := k.admA.map (·.arr) ++ k.waitA, hangAt := now, regs := k.passRegs
    steps := k.steps, flags := k.flags, rateN := k.rateN, rateOk := k.rateOk, rateMm := k.rateMm, rateWin := k.rateWin
    arr := { gauge := k.arr.gauge, nextRun := k.arr.nextRun, lastRun := k.arr.lastRun }
    vx := { nextChain := k.vx.nextChain, lastChain := k.vx.lastChain, summary := k.vx.summary }
    st := { next := k.st.next, last := k.st.last } }

/-- R166, R167, R277, R346, R400: cluster c passes to context x; 16 names none. -/
def State.passCluster (s : State) (c : Cl) (x : Nat) : State :=
  (s.beforeWipe c).mod c (fun k => k.passed x s.timebase)

/-- Every started RESET command of a kind that names an object replies OK. -/
def State.replyResets (s : State) (kind obj : Nat) : State :=
  (List.range 16).foldl (fun s x =>
    ((s.cmds x).filter (fun k => k.started && k.op == 0x0A03 && k.f 16 1 == kind && k.f 18 2 == obj)).foldl
      (fun s k => s.reply x k OK) s) s

/-- R650, R723: a reset of cluster c begins: its core stops with a status, its queues and streams end. -/
def State.resetCluster (s : State) (c : Cl) (status : Nat) : State :=
  if (s.cl c).wiping then s
  else
    let s := s.noteEnd c { clus := c.val, exited := false, status := status }
    let s := (s.stopCore c).mod c (fun k => { k.clearQueues.cancelAll with wiping := true })
    s.dinc MG_SU_CNT_CLRST 1

/-- R167, R650: what cluster c has accepted has ended, but for operations that wait for another agent. -/
def Cluster.drained (k : Cluster) : Bool :=
  k.st.xfers.isEmpty && (k.arr.flights.isEmpty || k.backpressure) && k.admissible.isNone
    && k.vx.chains.all (fun x => !x.busy)

/-- R650: the wipe of cluster c ends, and with it the reset. -/
def execClusterWipeComplete (c : Cl) (s : State) : Res :=
  whenever s ((s.cl c).wiping && (s.cl c).drained) ((s.wipeCluster c).replyResets 2 c.val)

/-! ### Links (R651, R655) -/

/-- R651: the reset of port p. Its enable is kept (assumption 39). -/
def State.resetPort (s : State) (p : Nat) : State :=
  let k := s.linkOf p
  let lastKeyed := s.portState p == 4 && !((s.linkPorts k).any (fun n => n != p && s.portState n == 4))
  let en := bits (s.dr (portReg LK_PORT_CTRL p)) 0 0
  let s := s.portDown p 0
  let s := if lastKeyed then s.linkDown k else s
  let s := { s with regs := amErase s.regs (portReg LK_PORT_CTRL p) (portReg LK_PORT_CTRL p + 0x1000) }
  let s := s.dwf (portReg LK_PORT_CTRL p) 0 0 en
  (s.modPort p (fun q => { q with offAt := some (s.timebase + 1000000) })).dinc MG_SU_CNT_LKRST 1

/-- R651: the laser of port p has been off for a millisecond. -/
def execLinkResetOffExpiry (p : Port) (s : State) : Res :=
  match (s.port p.val).offAt with
  | none => waits s
  | some t =>
    if s.timebase < t then waits s
    else
      let s := s.modPort p.val (fun q => { q with offAt := none })
      let s := if bit (s.dr (portReg LK_PORT_CTRL p.val)) 0 then s.portEn p.val else s
      .next (s.replyResets 3 p.val)

/-- R647, R725: every port goes to OFF. -/
def State.portsOff (s : State) : State := (List.range 8).foldl (fun s p => s.portDown p 0) s

/-! ### The counters and curtains of a context (R384, R398, R400, R653) -/

/-- The curtains 0 to 14 that context x has configured. -/
def State.curtainsOf (s : State) (x : Nat) : List Nat :=
  (List.range 15).filter (fun k => let c := s.dr (curReg SY_CUR_CFG k); bit c 54 && bits c 51 48 == x)

/-- R398: whether this device is to release curtain k and has not. -/
def State.owesRelease (s : State) (k : Nat) : Bool :=
  let c := s.dr (curReg SY_CUR_CFG k)
  let r := s.dr (curReg SY_CUR_RING k)
  bit c 54 && bit c 52 && bit c 53
    && decide (amGet 0 s.sy.released k * bits r 40 28 < s.dctr (bits r 15 0))

/-- R398: curtain k is abandoned here, and if this device is its manager every member is told. -/
def State.abandonCurtain (s : State) (k : Nat) : State :=
  let s := if s.owesRelease k then s.broadcast 2 (leBytes 8 k) else s
  s.applyAbandon k

/-- Whether a destination is held for the pre-empted context x (R384): its cluster is numbered apart. -/
def CueDest.heldBy (d : CueDest) (x : Nat) : Bool :=
  match d with | .slot c _ => c / 64 == x + 1 | .wait c => c / 64 == x + 1 | .host _ _ => false

/-- R400, R653: the device counters, translation table, pair entries and curtain entries of context x are wiped, their
watches cued with ABANDONED first; the watches that the context holds itself are gone. -/
def State.wipeSync (s : State) (x : Nat) : State :=
  let ps := s.ctrsOf x
  let ks := s.curtainsOf x
  let s := s.abandonWatches (fun w => ps.contains w.ctr)
  let s := ks.foldl (fun s k => s.abandonCurtain k) s
  let gone := fun (a : Nat) => (decide (SY_VMAP + 0x8000 * x ≤ a) && decide (a < SY_VMAP + 0x8000 * (x + 1)))
    || (decide (SY_PAIR + 128 * x ≤ a) && decide (a < SY_PAIR + 128 * (x + 1)))
    || ks.any (fun k => decide (curReg SY_CUR_CFG k ≤ a) && decide (a < curReg SY_CUR_CFG k + 0x20))
  { s with
    regs := s.regs.filter (fun r => !(gone r.1))
    sy := { s.sy with
      ctr := s.sy.ctr.filter (fun e => !(ps.contains e.1))
      changes := s.sy.changes.filter (fun ch => match ch.ctr with | .dev p => !(ps.contains p) | .loc _ _ => true)
      watches := s.sy.watches.filter (fun w => w.ctx != x)
      cues := s.sy.cues.filter (fun q => !(q.dest.heldBy x) && (match q.dest with | .host y _ => y != x | _ => true))
      sent := s.sy.sent.filter (fun e => !(ks.contains e.1))
      released := s.sy.released.filter (fun e => !(ks.contains e.1)) } }

/-! ### The memory of a context (R490, R501, R648) -/

/-- The HBM frames mapped or held by context x. -/
def State.allFrames (s : State) (x : Nat) : List Nat :=
  (s.pages.filterMap (fun p =>
      if p.1 / 2097152 = x ∧ bit p.2.toNat 1 ∧ bit p.2.toNat 4 = false then some (bits p.2.toNat 26 8) else none))
    ++ (s.wt.shards.filter (fun h => h.ctx == x)).flatMap (·.frames)

/-- Context x loses its pages and shards; its frames wait to be zeroed, and its flies images remain. -/
def State.wipeMemory (s : State) (x : Nat) (held : Bool) : State :=
  let fs := s.allFrames x
  let s := s.freeFrames x fs held
  { s with
    pages := amErase s.pages (x * 2097152) ((x + 1) * 2097152)
    mem := { s.mem with pageReqs := s.mem.pageReqs.filter (fun p => p.1 != x) }
    wt := { s.wt with shards := s.wt.shards.filter (fun h => h.ctx != x)
                      pageIns := s.wt.pageIns.filter (fun p => p.ctx != x)
                      queue := s.wt.queue.filter (fun q => q.1 != x) } }

/-- The clusters of context x. -/
def State.clustersOf (s : State) (x : Nat) : List Cl := allCl.filter (fun c => (s.cl c).owner == x)

/-- R648: the clusters of context x are wiped; no launch holds them. -/
def State.wipeClusters (s : State) (x : Nat) : State :=
  (s.clustersOf x).foldl (fun s c =>
    ((s.wipeCluster c).mod c (fun k => { k with launch := none })).replyResets 2 c.val) s

/-! ### Function-level reset (R597, R610, R648, R649, R655) -/

/-- The page of registers of context x returns to its reset values. -/
def State.resetCxPage (s : State) (x : Nat) : State :=
  { s with regs := amErase s.regs (cxReg MG_CX_CTRL x) (cxReg MG_CX_CTRL x + 0x1000) }

/-- R655: understudy mode ends and its registers are reset when context x is its context. -/
def State.resetUs (s : State) (x : Nat) : State :=
  if s.usCtx = x then
    let s := s.usCtxLost x
    { s with us := {}, regs := amErase (amErase s.regs MG_US_CTRL MG_DT_CNT_TCC) MG_US_CNT_COMPARED MG_DT_CNT_PLAYBILL }
  else s

/-- What a context keeps over its reset: state, over-quota mark, quota and command window; the packets left there are not taken
(R610). -/
def CtxSt.afterFlr (k : CtxSt) : CtxSt := { state := k.state, overQ := k.overQ, quota := k.quota, window := k.window }

/-- R648: the function-level reset of context x. Frames are zeroed later (R649). -/
def State.flrCtx (s : State) (x : Nat) : State :=
  let s := s.modCx x CtxSt.afterFlr
  let s := s.resetCxPage x
  let s : State := { s with
    rv := { s.rv with relayed := s.rv.relayed.filter (fun r => r.ctx != x) }
    pcie := { s.pcie with held := s.pcie.held.filter (fun h => h.fn != x) } }
  let s := s.resetUs x
  let s := s.wipeClusters x
  let s := s.wipeSync x
  let s := s.wipeMemory x true
  ({ s with boot := { s.boot with flrs := nsIns s.boot.flrs x } } : State).dinc MG_SU_CNT_FLR 1

/-- R610: configuration space, MSI-X table and IDE stream of function fn return to their reset state. -/
def State.resetFn (s : State) (fn : Nat) : State :=
  let clr := fun (m : Nat) => if bit m fn then m - 2 ^ fn else m
  let p := s.pcie
  { s with pcie := { p with
      bme := clr p.bme, mse := clr p.mse, msixEn := clr p.msixEn, fmask := clr p.fmask
      table := amErase p.table (64 * fn) (64 * fn + 64), pba := p.pba.filter (fun v => v / 64 != fn)
      dstate := amDel p.dstate fn, cfg := amErase p.cfg (4096 * fn) (4096 * fn + 4096)
      ide := amDel p.ide fn } }

/-- The virtual functions that exist. -/
def State.vfs (s : State) : List Nat := if s.pcie.vfe then upFrom 1 (min s.pcie.numVfs 15) else []

/-- Whether a function exists. -/
def State.fnLive (s : State) (fn : Nat) : Bool := fn == 0 || s.vfs.contains fn

/-- R597: the virtual functions cease to exist, and their contexts are reset. -/
def State.dropVfs (s : State) : State :=
  let vs := s.vfs
  let s : State := { s with pcie := { s.pcie with vfe := false } }
  vs.foldl (fun s v => (s.flrCtx v).resetFn v) s

/-- R597, R610: a function-level reset of function fn. -/
def State.flr (s : State) (fn : Nat) : State :=
  if fn = 0 then
    let s := s.dropVfs
    let s := (s.flrCtx 0).resetFn 0
    { s with pcie := { s.pcie with ari := false, numVfs := 0 } }
  else (s.flrCtx fn).resetFn fn

/-- R610: FLR of a function that exists. -/
def execPcieFlr (fn : Fn) (s : State) : Res := whenever s (s.fnLive fn.val && s.stage != 0) (s.flr fn.val)

/-- R649: the frames of a reset context have been zeroed. -/
def execFlrZeroingComplete (x : Ctx) (s : State) : Res :=
  if s.boot.flrs.contains x.val then
    let s := ((s.mem.zeroing.filter (fun z => z.ctx == x.val && z.held)).map (·.frame)).foldl (fun s f => s.zeroFrame f) s
    .next { s with boot := { s.boot with flrs := nsDel s.boot.flrs x.val } }
  else waits s

end Sys2Proof.Machine
end

