-- ==== Sys2Proof/Machine/Startup.lean ====
section
/-! DEFINITION. Sys2Proof/Machine/Startup.lean: power-on and warm resets, the boot ROM, the stages, and the state that a
FATAL error leaves (R568, R637 to R647, R653 to R661, R668 to R675, R696 to R700, R725, R731). -/

namespace Sys2Proof.Machine

/-! ### The boot ROM (R659, R664, R665, R668 to R673, R675) -/

/-- R675: the attestation certificate of the running firmware. -/
def Security.attestCert (k : Security) : List Byte :=
  mkCert 2 k.lc (certKeyDigest idCert) (leBytes 32 k.fwMeas.toNat) k.floor (Config.pub keyAttest k.attestCtx) keyIdentity

/-- R671: an image runs: FWMEAS, certificates. -/
def Security.load (k : Security) (header : List Byte) : Security :=
  let k := { k with header := header, fwMeas := Config.sha3 header }
  { k with certs := idCert ++ k.attestCert }

/-- Fields of an image header (R669). -/
def imgClass (h : List Byte) : Nat := fieldB h 6 1
def imgRevoke (h : List Byte) : Nat := fieldB h 7 1
def imgSvn (h : List Byte) : Nat := fieldB h 8 4
def imgFloor (h : List Byte) : Nat := fieldB h 12 4
def imgLen (h : List Byte) : Nat := fieldB h 16 4
def imgSigner (h : List Byte) : Nat := fieldB h 20 1

/-- The image written in a slot; empty for the image as shipped. -/
def Security.slot (k : Security) (n : Nat) : List Byte := if n = 0 then k.slotA else k.slotB

/-- Bytes 0 to 63 of the image in a slot. -/
def Security.slotHeader (k : Security) (n : Nat) : List Byte :=
  if (k.slot n).isEmpty then Config.shipped n else (k.slot n).take 64

/-- R670: the offset at which an image breaks check 1, if it does. -/
def imgForm (b : List Byte) : Option Nat :=
  if fieldB b 0 4 ≠ 0x4F434657 then some 0
  else if fieldB b 4 2 ≠ 1 then some 4
  else if imgClass b ≥ 32 then some 6
  else if imgRevoke b ≥ 16 then some 7
  else if imgSvn b > 64 then some 8
  else if imgFloor b > imgSvn b then some 12
  else if imgLen b % 64 ≠ 0 ∨ imgLen b < 64 ∨ 16777216 < imgLen b then some 16
  else if imgSigner b > 3 then some 20
  else if bit (imgRevoke b) (imgSigner b) then some 7
  else match (upFrom 21 3 ++ upFrom 56 8 ++ upFrom 5421 19).find? (fun o => fieldB b o 1 ≠ 0) with
    | some o => some o
    | none => none

/-- R670: the check that an image fails, with the offending offset. -/
def Security.verifyImage (k : Security) (b : List Byte) : Option (Nat × Nat) :=
  match imgForm b with
  | some o => some (1, o)
  | none =>
    if bit k.rootRev (imgSigner b) || Config.sha3 (sliceB b 64 1984) != Config.fuse (imgSigner b) then some (2, 64)
    else if Config.verify (sliceB b 64 1984) (b.take 64 ++ sliceB b 2048 3373) = false then some (3, 2048)
    else if bit (imgClass b) k.lc = false then some (4, 6)
    else if imgSvn b < k.floor then some (5, 8)
    else if leNat (sliceB b 24 32) ≠ (Config.sha3 (sliceB b 5440 (imgLen b))).toNat then some (6, 24)
    else none

/-- R670, R671: the check that the image in a slot fails at a start; an image as shipped passes (assumption 40). -/
def Security.slotFails (k : Security) (n : Nat) : Option (Nat × Nat) :=
  if (k.slot n).isEmpty then none else k.verifyImage (k.slot n)

/-- A failure of the security element is captured (R670). -/
def State.scErr (s : State) (source step off : Nat) : State :=
  s.dcap SC_ERR 31 (source + place 5 3 step + place 30 6 off)

/-- R641, R760, R765: a failed step of start-up: FAIL, the event and the error record; FAULT# with its alert when no slot verifies. -/
def State.startFail (s : State) (code unit cls : Nat) : State :=
  let s := if code = 4 then s else s.dwf MG_SU_STATUS 6 5 code
  let s : State := if code = 1 then { s with mb := { s.mb with alerts := nsIns s.mb.alerts 2 } } else s
  let s := s.event 0 4 0 s.timebase [BitVec.ofNat 8 s.stage, BitVec.ofNat 8 (bits (s.dr MG_SU_STATUS) 3 3)]
  s.logErr { source := 0x12, cls := cls, cause := code, unit := unit, info := word (s.dr MG_SU_STATUS) }

/-- R658, R659: the flash key is destroyed and a new one made, and the flies tables are empty. -/
def State.newFlashKey (s : State) : State :=
  let a := s.draw
  let b := a.2.draw
  { b.2 with sec := { b.2.sec with flashKey := (a.1, b.1), flashLc := b.2.sec.lc }, wt := { b.2.wt with flies := [] } }

/-- R671: a slot is booted. -/
def State.bootSlot (s : State) (n : Nat) (fromPend : Bool) : State :=
  let h := s.sec.slotHeader n
  let s : State := { s with sec := s.sec.load h, boot := { s.boot with fwOk := true, fromPend := fromPend } }
  s.dw SC_BOOT (place 0 0 n + place 4 4 (bits (s.dr SC_BOOT) 4 4) + place 12 6 (imgSvn h) + place 19 13 (imgFloor h))

/-- R671, R673: the ROM verifies the images and boots one; pick says which verifies where the operand of the command tells, and
their checks tell otherwise. A failing step that the operand does not name is free. -/
def State.bootRom (s : State) (pick : Option (Option BootPick)) : State :=
  let s := if s.sec.flashLc = s.sec.lc then s else s.newFlashKey
  let fails := fun (s : State) (n : Nat) => match pick with
    | none => s.sec.slotFails n
    | some p =>
      if p = some (if n = 0 then .slotA else .slotB) then none
      else some (1 + (Config.freeValue s.freeCount).toNat % 6, (Config.freeValue s.freeCount).toNat / 8 % 2 ^ 25)
  let noteFail := fun (s : State) (f : Nat × Nat) => s.free.2.scErr 1 f.1 f.2
  let usePend := s.sec.pend && decide (s.sec.tries < 2)
  let other := 1 - s.sec.active
  let first := if usePend then other else s.sec.active
  let s : State := { s with sec :=
    if usePend then { s.sec with tries := s.sec.tries + 1 } else { s.sec with pend := false, tries := 0 } }
  match fails s first with
  | none => s.bootSlot first usePend
  | some f =>
    let s := noteFail s f
    let s := if usePend then
        ({ s with sec := { s.sec with pend := false, tries := 0 } } : State).dwf SC_BOOT 4 4 1
      else s
    match fails s (1 - first) with
    | none => s.bootSlot (1 - first) false
    | some f => (noteFail s f).startFail 1 0xFFFF CFAULT

/-! ### What resets leave (R568, R637, R643, R647, R653, R655) -/

/-- R568: the contexts after power-on or warm reset. -/
def ctxAtStart : Vector CtxSt 16 :=
  (Vector.replicate 16 ({} : CtxSt)).set 0
    { state := 1, quota := { clmask := 2 ^ 40 - 1, frames := 293888, fly := 952650, spret := 327680, vctrs := 4096 } }

/-- R655: the registers that a warm reset keeps. -/
def warmKeeps (a : Nat) : Bool :=
  (0x0F000000 ≤ a && a < 0x10000000) || (0x0E000000 ≤ a && a < 0x0F000000) || (MG_TB_LOAD ≤ a && a ≤ MG_TB_OFFSET)
    || (MG_SU_CNT_WARM ≤ a && a ≤ MG_SU_CNT_ABSORBED) || (MG_EL_CTRL ≤ a && a < 0x10000100)
    || (MG_EL_CNT ≤ a && a < MG_EL_CNT + 0x100)

/-- R655, R721, R748: the registers that the power-on reset keeps: those of the standby domain. -/
def powerKeeps (a : Nat) : Bool :=
  a == PW_CNT_THERMSHUT || (MG_EL_CTRL ≤ a && a < 0x10000100) || (MG_EL_CNT ≤ a && a < MG_EL_CNT + 0x100)

/-- What the security element keeps without its volatile state. -/
def Security.cold (k : Security) : Security :=
  { k with fwMeas := 0, header := [], certs := [], recovery := [], mail := [], nonce := 0, token := none }

/-- Everything that a reset of the whole device wipes is at reset; what the fuses, the flash and the standby domain hold is
kept, and the registers that the test names. -/
def State.wiped (s : State) (keep : Nat → Bool) : State :=
  { pending := s.pending, wt := { flies := s.wt.flies }, sec := s.sec.cold, pw := s.pw, jtag := s.jtag, mb := s.mb
    boot := { straps := s.boot.straps, base := s.pw.uptime }
    err := { s.err with dead := false }
    pcie := { sent := s.pcie.sent, perst := s.pcie.perst, perstAt := s.pcie.perstAt }
    regs := s.regs.filter (fun r => keep r.1), timebase := s.timebase, pll := s.pll, readData := s.readData
    busData := s.busData, freeCount := s.freeCount, rngCount := s.rngCount, hostMem := s.hostMem }

/-- R638, R639: the straps are sampled; the role follows. -/
def State.sampleStraps (s : State) : State :=
  let v := s.boot.straps
  let err := bit v 0 && bit v 1
  let s := (s.dw MG_SU_STRAP (v % 32)).dwf MG_SU_STATUS 4 4 (b2n err)
  s.dwf LK_RV_STATUS 1 0 (b2n (bit v 0 && !err))

/-- The stages begin again: stage 0, with the cause; the ROM boots; debug access stands as R731 gives. -/
def State.begin0 (s : State) (cause : Nat) (pick : Option (Option BootPick)) : State :=
  let s := (s.sampleStraps.dwf MG_SU_STATUS 10 8 cause).dwf MG_DBG_STATUS 0 0 (b2n (decide (s.sec.lc ≤ 1)))
  let n := s.draw
  let s : State := { n.2 with sec := { n.2.sec with nonce := n.1 }, ctx := ctxAtStart }
  let clock := fun (k : Cluster) => { k with hangAt := s.timebase }
  let s : State := { s with cls := s.cls.map clock }
  (s.enterStage 0).bootRom pick

/-- The domains with a PLL: all but the optical receivers (R699). -/
def pllDomains : Nat := (2 ^ 60 - 1) - (2 ^ 48 - 2 ^ 40)

/-- R704: the blocks of domains that had lost lock start again. -/
def State.relockAll (s : State) : State :=
  if s.pw.lost.isEmpty then s
  else ({ s with pw := { s.pw with lost := [], dead := [] } } : State).dw PW_CLK_STATUS (Nat.lor (s.dr PW_CLK_STATUS) pllDomains)

/-- R643, R647, R704: a warm reset. -/
def State.warmReset (s : State) (cause : Nat) : State :=
  let s := s.closeDebug.relockAll.dinc MG_SU_CNT_WARM 1
  (s.wiped warmKeeps).begin0 cause none

/-- R643, R696: the power-on reset. THERMTRIP and OCTRIP come from their latches (R713, R718). -/
def State.powerOn (s : State) (cause : Nat) (pick : Option (Option BootPick)) : State :=
  let trips := place 3 3 (b2n s.pw.tripTherm) + place 4 4 (b2n s.pw.tripOc)
  let s : State := { s with timebase := 0, pll := false }
  let s := s.wiped powerKeeps
  let s : State := { s with err := { s.err with merges := [] }
                            pw := { uptime := s.pw.uptime, vin := true, vstby := true, on := true, opened := s.pw.opened } }
  (s.dw PW_STATUS trips).begin0 cause pick

/-- R696, R697: everything outside the standby domain is without power. -/
def State.powerOff (s : State) : State :=
  let s : State := { s with timebase := 0, pll := false }
  let s := s.wiped powerKeeps
  let p := s.pw
  { s with pw := { uptime := p.uptime, vin := p.vin, vstby := p.vstby, tripTherm := p.tripTherm, tripOc := p.tripOc
                   opened := p.opened, isOpen := p.isOpen, shut := p.shut }
           err := { s.err with merges := [] } }

/-- What the standby domain loses with its input (R697, R713, R729, R748, R762). -/
def State.standbyOff (s : State) : State :=
  { s with regs := [], err := {}, mb := {}, jtag := {}, pw := {} }

/-- R696: the inputs have come into range for long enough. Two starts follow one another only after a loss of power, and none
happens while the input switch is open or a thermal shutdown is in force. -/
def execPowerGood (straps : BitVec 5) (fwVerifies : Option BootPick) (s : State) : Res :=
  if s.pw.on || s.pw.isOpen || s.pw.shut then waits s
  else .next (({ s with boot := { s.boot with straps := straps.toNat } } : State).powerOn 0 (some fwVerifies))

/-- R696: loss of the 48 V input, or of the standby input. -/
def execInputLoss (standbyLost : Bool) (s : State) : Res :=
  let t := s.powerOff
  let t : State := { t with pw := { t.pw with vin := false } }
  .next (if standbyLost then t.standbyOff else t)

/-- R439, R700: the PLLs lock in stage 0, and the timebase counts from 0. -/
def execPllLock (s : State) : Res :=
  if s.pw.on && !s.pll then
    let s : State := { s with pll := true, timebase := 0 }
    .next ((s.dwf PW_STATUS 0 0 1).dw PW_CLK_STATUS pllDomains)
  else waits s

/-! ### Stages (R30, R33, R640 to R642, R672) -/

/-- R640: stage 2, and in the standalone role stage 3 at once, when the stacks are trained and wiped and the flies mounted. -/
def State.tryStage2 (s : State) : State :=
  if s.stage == 1 && (List.range 8).all s.stackReady && !s.mem.wiping && s.boot.mounted && s.lcState != 0 && s.lcState != 4 then
    let s := s.enterStage 2
    if s.role = 0 then s.enterStage 3 else s
  else s

/-- R672: the slot from which the firmware reaches stage 1 is committed. -/
def State.commitFw (s : State) : State :=
  if s.boot.fromPend then
    let h := s.sec.header
    let k := s.sec
    { s with boot := { s.boot with fromPend := false }
             sec := { k with active := 1 - k.active, pend := false, tries := 0, floor := max k.floor (imgFloor h)
                             rootRev := Nat.lor k.rootRev (imgRevoke h) } }
  else s

/-- R633, R640: stage 1 is entered: the firmware runs, the PF is configured, and the stacks begin to train. -/
def execStage1Enter (s : State) : Res :=
  if s.pw.on && s.pll && s.boot.fwOk && s.stage == 0 then
    let s := (s.commitFw.enterStage 1).dwf PC_LINK_STATUS 9 9 0
    let s := s.kick
    .next (if s.lcState = 4 then s else (List.range 8).foldl (fun s st => s.dwf (stkReg HM_STK_STATUS st) 1 0 1) s)
  else waits s

/-- R633, R641: a stack's training ends. A stack is retried twice. -/
def execHbmTrainingComplete (st : Stk) (ok : Bool) (s : State) : Res :=
  let r := stkReg HM_STK_STATUS st.val
  if bits (s.dr r) 1 0 ≠ 1 then waits s
  else if ok then
    let s := s.dwf r 1 0 2
    .next (if (List.range 8).all s.stackReady then { s with mem := { s.mem with wiping := true } } else s)
  else
    let n := amGet 0 s.boot.trainFails st.val + 1
    let s : State := { s with boot := { s.boot with trainFails := amSet 0 s.boot.trainFails st.val n } }
    .next (if n ≤ 2 then s else (s.dwf r 1 0 3).startFail 2 st.val CFAULT)

/-- R634: every line of every stack is zero. -/
def execHbmWipeComplete (s : State) : Res :=
  if s.mem.wiping then
    .next ({ s with mem := { s.mem with wiping := false, hbm := [], bad := [], cbad := [], zeroing := [] } } : State).tryStage2
  else waits s

/-- R640, R641: the flies are mounted, or fail to; they are retried twice. -/
def execFliesMountComplete (ok : Bool) (s : State) : Res :=
  if s.stage = 0 ∨ s.boot.mounted ∨ 3 ≤ s.boot.mountFails then waits s
  else if ok then .next ({ s with boot := { s.boot with mounted := true } } : State).tryStage2
  else
    let s : State := { s with boot := { s.boot with mountFails := s.boot.mountFails + 1 } }
    .next (if s.boot.mountFails ≤ 2 then s else s.startFail 3 0xFFFF CFAULT)

/-- R640: the deadline of a stage, in nanoseconds. -/
def stageDeadline : Nat → Nat
  | 0 => 20000000
  | 1 => 100000000
  | 2 => 4000000000
  | _ => 12000000000

/-- R33, R640, R641: a deadline passes before its stage is entered. -/
def execStageDeadlineExpiry (n : Fin 4) (s : State) : Res :=
  if s.pw.on && decide (s.stage < n.val) && !(s.boot.missed.contains n.val)
      && decide (s.boot.base + stageDeadline n.val ≤ s.pw.uptime) then
    let s : State := { s with boot := { s.boot with missed := nsIns s.boot.missed n.val } }
    let wait := n.val == 3 && s.role == 1 && bits (s.dr LK_RV_STATUS) 2 2 == 0
    let s := if wait then s.dwf MG_SU_STATUS 3 3 1 else s
    .next (s.startFail 4 0xFFFF INFO)
  else waits s

/-- R646: twice PERIOD has passed without a KICK. -/
def execWatchdogExpiry (s : State) : Res :=
  let per := bits (s.dr MG_SU_WDOG) 31 16
  whenever s (s.pw.on && s.stage != 0 && per != 0 && decide (s.boot.kick + 2000000 * per ≤ s.pw.uptime)) (s.warmReset 3)

/-! ### PERST# (R644, R758) -/

/-- R644: PERST# in the ring roles: a function-level reset of every context; the PCI Express block is reset. While a
wider reset runs the resets of the contexts are absorbed (R652). -/
def State.perstRing (s : State) : State :=
  let s := if s.stage = 0 then s.dinc MG_SU_CNT_ABSORBED 16 else (List.range 16).foldl (fun s x => s.flrCtx x) s
  let s : State := { s with pcie := { sent := s.pcie.sent }, sec := { s.sec with mail := [] } }
  s.dw PC_LINK_STATUS (b2n (s.stage == 0) * 512)

/-- R758: PERST# falls: a reset if it has been high for a millisecond. -/
def execPerstFall (s : State) : Res :=
  if s.pcie.perst = false then waits s
  else
    let long := decide (s.pcie.perstAt + 1000000 ≤ s.pw.uptime)
    let t : State := { s with pcie := { s.pcie with perst := false, perstAt := s.pw.uptime } }
    .next (if s.pw.on && long then (if s.role = 0 then t.warmReset 6 else t.perstRing) else t)

/-- R758: PERST# rises. -/
def execPerstRise (s : State) : Res :=
  if s.pcie.perst then waits s else .next { s with pcie := { s.pcie with perst := true, perstAt := s.pw.uptime } }

/-! ### FATAL errors (R725) -/

/-- R725: what a FATAL error does. -/
def State.fatalError (s : State) (e : ErrRec) : State :=
  let s := s.logErr { e with cls := FATAL }
  let s : State := { s with err := { s.err with fatal := true, dead := true }, mb := { s.mb with alerts := nsIns s.mb.alerts 2 } }
  let s := s.portsOff
  let s := (List.range 16).foldl (fun s k => if s.owesRelease k then s.applyAbandon k else s) s
  let s := allCl.foldl (fun s c => s.stopKernel c FAULT) s
  let s : State := { s with rv := { s.rv with relayed := [] } }
  (List.range 16).foldl (fun s x => (s.cmds x).foldl (fun s k => (s.writeBills x k true).reply x k FAULT) s) s

end Sys2Proof.Machine
end

