-- ==== Sys2Proof/Machine/VectorUnit.lean ====
section
/-! DEFINITION. Sys2Proof/Machine/VectorUnit.lean: the vector engine of a cluster (R173 to R212, R771). -/

namespace Sys2Proof.Machine

/-- The vector engine of a cluster changed by f. -/
def State.vxm (s : State) (c : Cl) (f : Vx → Vx) : State := s.mod c (fun k => { k with vx := f k.vx })

/-! ### Descriptors -/

/-- The stage slots in use. -/
def stages (d : List Byte) : List StageD := (List.range (chainD d).nstage).map (stageD d)

/-- R187: the tensors that the selectors name. -/
def selected (d : List Byte) : List Nat :=
  (stages d).flatMap (fun g => [g.bsel, g.csel].filter (fun v => v == 1 || v == 2))

/-- The source tensors the loop nest reads (R187). -/
def readTensors (d : List Byte) : List Nat :=
  0 :: [1, 2].filter (fun i => (selected d).contains i && i != (chainD d).rsink)

/-- The source tensors the chain names, read or not (R182). -/
def sourceTensors (d : List Byte) : List Nat :=
  [0, 1, 2].filter (fun i => (i == 0 || i != (chainD d).rsink) && (tensorD d i).space != 0)

/-- A place of the loop nest (i0, i1, i2, i3). -/
abbrev Idx := Nat × Nat × Nat × Nat

/-- R179: the element a tensor names at a place. -/
def TensorD.at_ (t : TensorD) (i : Idx) : Int := t.base + i.1 * t.d0s + i.2.1 * t.s1 + i.2.2.1 * t.s2 + i.2.2.2 * t.s3

/-- R178: the logical index of a place. -/
def ChainD.logical (d : ChainD) (i : Idx) : Nat :=
  wrapInt 64 (d.lbase + i.1 * d.l0 + i.2.1 * d.l1 + i.2.2.1 * d.l2 + i.2.2.2 * d.l3)

/-- R175: beats of one (i1, i2, i3). -/
def ChainD.rowBeats (d : ChainD) : Nat := (d.e0 + 255) / 256

/-- R175: the places of beat b, in lane order. -/
def ChainD.lanes (d : ChainD) (b : Nat) : List Idx :=
  let m := b % d.rowBeats
  let r := b / d.rowBeats
  (upFrom (256 * m) (min 256 (d.e0 - 256 * m))).map (fun i0 => (i0, r % d.e1, r / d.e1 % d.e2, r / (d.e1 * d.e2)))

/-- R196: the place of a tree result of beat b's reduction. -/
def ChainD.treePlace (d : ChainD) (b : Nat) : Idx :=
  let r := b / d.rowBeats
  (0, if d.rd1 then 0 else r % d.e1, r / d.e1 % d.e2, r / (d.e1 * d.e2))

/-- Whether beat b ends its reduction. -/
def ChainD.treeEnds (d : ChainD) (b : Nat) : Bool :=
  b % d.rowBeats + 1 == d.rowBeats && (!d.rd1 || b / d.rowBeats % d.e1 + 1 == d.e1)

/-- R78, R79, R520: the rounding of an element of a conversion. -/
def rndOf (mode seed site idx : Nat) : Rnd := if mode = 1 then .stoch (philox seed site 0 idx) else .nearest

/-- The format of a tensor; INT8 stands for a code that no check has let pass. -/
def TensorD.f (t : TensorD) : Fmt := (Fmt.ofCode t.fmt).getD .int8

/-- R181: row and element place of element e of a tile register. -/
def tilePlace (x : Tile) (trans : Bool) (e : Nat) : Nat × Nat :=
  let epr := rowElems x.shape x.fmt x.pair
  if trans then (e % x.rows, e / x.rows) else (e / epr, e % epr)

/-- R141, R181: where the scale of place (row, el) lies in the scale store. DEDUCED (assumption 21): in a LINEAR shape
the element counts in row order, with TRANS too. -/
def tileScaleAt (x : Tile) (p : Nat × Nat) : Nat :=
  if x.shape = 4 then (p.1 * rowElems 4 x.fmt x.pair + p.2) / 32 else scaleBytes x.shape x.fmt * p.1 + p.2 / 32

/-- Bytes that the bits of element e of a packed run touch: first byte, count, shift (R54). -/
def elemSpan (f : Fmt) (e : Nat) : Nat × Nat × Nat :=
  let b := f.elemBits
  (e * b / 8, (e * b % 8 + b + 7) / 8, e * b % 8)

/-- The buffer of tensor i, as read at the chain's acceptance (R275). -/
def Chain.buf (x : Chain) (i : Nat) : Buf := amGet ⟨0, 0⟩ x.bufs i

/-! ### Raw values (R160) -/

/-- R160: the raw form. -/
def Raw.bytes (r : Raw) : List Byte :=
  if r.held then leBytes 12 (wrapInt 96 r.ent.a) ++
    leBytes 1 (b2n r.ent.nan + 2 * b2n r.ent.range + 4 * b2n r.ent.sat) ++ leBytes 1 1 ++ leBytes 2 r.gauge.code
  else List.replicate 16 0

/-- A raw value from its 16 bytes. -/
def Raw.ofBytes (bs : List Byte) : Raw :=
  let g := Gauge.ofCode (fieldB bs 14 2)
  let fl := fieldB bs 12 1
  ⟨⟨if g.mode then fieldB bs 0 4 else sgn 96 (fieldB bs 0 12), bit fl 0, bit fl 1, bit fl 2⟩, bit (fieldB bs 13 1) 0, g⟩

/-- R159: the raw value of accumulator entry i. -/
def MxArray.raw (a : MxArray) (i : Nat) : Raw :=
  match a.blockRec (i / 1024) (i % 1024 / 32) with
  | some g => ⟨amGet {} a.acc i, true, g⟩
  | none => {}

/-- R159: gauged add-in of a held value into entry i. -/
def MxArray.addIn (a : MxArray) (i : Nat) (r : Raw) : MxArray :=
  if r.held = false then a
  else
    let a := a.hold (i / 1024) (i % 1024 / 32) r.gauge
    { a with acc := amSet {} a.acc i (accAdd (amGet {} a.acc i) r.ent.a r.ent.nan r.ent.range r.ent.sat) }

/-- R198: whether an add-in into entry i under a gauge record is refused. -/
def MxArray.refuses (a : MxArray) (i : Nat) (g : Gauge) : Bool :=
  g.mode || (match a.blockRec (i / 1024) (i % 1024 / 32) with | some h => h != g | none => false)

/-! ### Reading elements (R76, R84, R180, R181, R199, R200, R771) -/

/-- An element as read: its exact value; whether it is an accumulator entry, an FP32 value that passes unchanged, or an MX
element; and its events. -/
structure Elem where
  v     : Val
  acc   : Bool := false
  pass  : Bool := false
  mx    : Bool := false
  nanent : Bool := false
  rangeent : Bool := false
  satent : Bool := false
  nanin : Bool := false
  ue    : Bool := false
  deriving DecidableEq, Repr

/-- A decoded element of a format under its scale byte. -/
def decodedElem (f : Fmt) (code scale : Nat) (bad : Bool) : Elem :=
  if bad then { v := .nan, ue := true }
  else
    let v := if f.mx then (f.decode code).withScale scale else f.decode code
    { v := v, mx := f.mx, nanin := v == .nan }

/-- Element e of a packed run in a scratchpad buffer. -/
def Cluster.bufElem (k : Cluster) (b : Buf) (t : TensorD) (e : Nat) : Elem :=
  let sp := elemSpan t.f e
  let a := b.base + sp.1
  let code := leNat (k.spRead a sp.2.1) / 2 ^ sp.2.2 % 2 ^ t.f.elemBits
  let sa := b.base + t.scoff + e / 32
  decodedElem t.f code (amGet 0 k.sp sa).toNat
    (!(k.spBad a sp.2.1).isEmpty || (t.f.mx && !(k.spBad sa 1).isEmpty))

/-- Element e of a tile register. DEDUCED (assumption 22): a poisoned word gives the vector engine a NaN (R200), where
R163 gives other readers zero. -/
def Cluster.tileElem (k : Cluster) (t : TensorD) (e : Nat) : Elem :=
  let x := k.tile t.handle
  let p := tilePlace x t.trans e
  let sp := elemSpan x.fmt p.2
  let offs := (upFrom sp.1 sp.2.1).map (fun j => rowOffset x.shape x.fmt x.pair p.1 j)
  let code := leNat (offs.map (k.tileByte t.handle)) / 2 ^ sp.2.2 % 2 ^ x.fmt.elemBits
  let so := tileScaleAt x p
  decodedElem x.fmt code (amGet 0 x.scale so).toNat
    (offs.any (k.tileBadAt t.handle) || (x.fmt.mx && x.badScale.contains (so / 8)))

/-- Accumulator entry e; lost names the entries found uncorrectable in this beat. -/
def Cluster.accElem (k : Cluster) (e : Nat) (lost : List Nat) : Elem :=
  let r := k.arr.raw e
  if r.held = false then { v := .fin false 0 0, acc := true, ue := lost.contains e }
  else { v := accVal r.gauge r.ent, acc := true, pass := r.gauge.mode, nanent := r.ent.nan, rangeent := r.ent.range,
         satent := r.ent.sat, ue := lost.contains e }

/-- The element of tensor i at a place. -/
def Cluster.elem (k : Cluster) (x : Chain) (i : Nat) (p : Idx) (lost : List Nat) : Elem :=
  let t := tensorD x.desc i
  let e := (t.at_ p).toNat
  match t.space with
  | 1 | 2 => k.bufElem (x.buf i) t e
  | 3 => k.tileElem t e
  | 4 => k.accElem e lost
  | 5 => let v := f32Val (BitVec.ofNat 32 t.base); { v := v, nanin := v == .nan }
  | _ => { v := .fin false 0 0 }

/-- The events of reading an element. -/
def Elem.count (e : Elem) : VxCounts :=
  { nanent := b2n e.nanent, rangeent := b2n e.rangeent, satent := b2n e.satent, nanin := b2n e.nanin, ue := b2n e.ue }

/-- Sum of counts. -/
def VxCounts.add (a b : VxCounts) : VxCounts :=
  ⟨a.nanent + b.nanent, a.rangeent + b.rangeent, a.satent + b.satent, a.nanin + b.nanin, a.invalid + b.invalid,
   a.divz + b.divz, a.cvtsat + b.cvtsat, a.cvtnan + b.cvtnan, a.grange + b.grange, a.ue + b.ue⟩

/-- The events of a conversion. -/
def Conv.count (r : Conv) : VxCounts := { cvtsat := b2n r.sat, cvtnan := b2n r.nan }

/-- R76, R771: an element enters its lane; rnd is the readout's rounding. -/
def Elem.lane (e : Elem) (rnd : Rnd) : BitVec 32 × VxCounts :=
  if e.acc && !e.pass then
    let r := Fmt.fp32.convert rnd e.v
    (BitVec.ofNat 32 r.code, e.count.add r.count)
  else if e.acc then (f32Round e.v, e.count.add { cvtnan := b2n (e.v == .nan) })
  else
    match e.mx, e.v with
    | true, .fin n m x =>
      let r := Fmt.fp32.convert .nearest (.fin n m x)
      (BitVec.ofNat 32 r.code, e.count.add r.count)
    | _, v => (f32Round v, e.count)

/-! ### Stages (R187 to R191) -/

/-- Lists of 32 consecutive elements. -/
def chunks32 {α : Type} : Nat → List α → List (List α)
  | 0, _ => []
  | n + 1, l => if l.isEmpty then [] else l.take 32 :: chunks32 n (l.drop 32)

/-- R83, R189: values converted to a format, block by block for an MX format: the scales, and the elements. -/
def convertAll (f : Fmt) (vs : List (Val × Rnd)) : List Nat × List Conv :=
  if f.mx then
    let bl := (chunks32 vs.length vs).map (fun b => mxConvert f (b.map (·.2)) (b.map (·.1)))
    (bl.map (·.1), bl.flatMap (·.2))
  else ([], vs.map (fun p => f.convert p.2 p.1))

/-- R189 CVT: each lane rounded to the stage's format and returned as FP32; a value beyond FP32 saturates (R80;
assumption 23). -/
def cvtStage (g : StageD) (seed : Nat) (lanes : List (BitVec 32 × Nat)) : List (BitVec 32) × VxCounts :=
  let f := (Fmt.ofCode g.fmt).getD .fp32
  let r := convertAll f (lanes.map (fun p => (f32Val p.1, rndOf g.rnd seed g.site p.2)))
  let val := fun (n : Nat) (x : Conv) =>
    let v := f.decode x.code
    if f.mx then v.withScale (r.1.getD (n / 32) 127) else v
  ((List.range r.2.length).zip r.2 |>.map (fun p => BitVec.ofNat 32 (Fmt.fp32.convert .nearest (val p.1 p.2)).code),
   r.2.foldl (fun a x => a.add x.count) {})

/-- An operand of a stage, by its selector. -/
def operand (t1 t2 : BitVec 32) (imm : BitVec 32) (sel : Nat) : BitVec 32 :=
  match sel with | 1 => t1 | 2 => t2 | _ => imm

/-- A table slot. -/
def Vx.slot (v : Vx) (n : Nat) : TableSlot := match n with | 0 => v.t0 | 1 => v.t1 | 2 => v.t2 | _ => v.t3

/-- Set a table slot. -/
def Vx.setSlot (v : Vx) (n : Nat) (t : TableSlot) : Vx :=
  match n with | 0 => { v with t0 := t } | 1 => { v with t1 := t } | 2 => { v with t2 := t } | _ => { v with t3 := t }

/-- One stage on one lane, CVT apart: the value and its INVALID and DIVZ events (R199). -/
def laneStage (v : Vx) (g : StageD) (a t1 t2 : BitVec 32) : BitVec 32 × VxCounts :=
  if g.op = 0x14 then
    let r := tableOp (v.slot g.tslot).ent g.nseg g.immb g.shift a
    (r, { invalid := b2n (isNan r && !isNan a) })
  else
    let b := operand t1 t2 g.immb g.bsel
    let c := operand t1 t2 g.immc g.csel
    let r := stageOp g.op a b c
    (r, { invalid := b2n (isNan r && !isNan a && !(opReadsB g.op && isNan b) && !(opReadsC g.op && isNan c)),
          divz := b2n (opDivz g.op a) })

/-- One stage on all lanes: each lane carries its value, T1, T2 and its logical index. -/
def runStage (v : Vx) (seed : Nat) (g : StageD) (ls : List (BitVec 32 × BitVec 32 × BitVec 32 × Nat)) :
    List (BitVec 32 × BitVec 32 × BitVec 32 × Nat) × VxCounts :=
  if g.op = 0x15 then
    let r := cvtStage g seed (ls.map (fun l => (l.1, l.2.2.2)))
    ((r.1.zip ls).map (fun p => (p.1, p.2.2)), r.2)
  else
    let r := ls.map (fun l => let q := laneStage v g l.1 l.2.1 l.2.2.1; ((q.1, l.2), q.2))
    (r.map (·.1), r.foldl (fun a p => a.add p.2) {})

/-! ### Writing elements (R54, R104, R141, R181, R183) -/

/-- What a beat has done so far: the cluster, the chain, and the bytes it has written for its digest (R530). -/
structure Beat where
  k  : Cluster
  x  : Chain
  el : List Byte := []
  sc : List Byte := []
  deriving DecidableEq, Repr

/-- Put an element code into scratchpad bytes. -/
def Cluster.putBufElem (k : Cluster) (base : Nat) (f : Fmt) (e code : Nat) : Cluster :=
  let sp := elemSpan f e
  let old := leNat (k.spRead (base + sp.1) sp.2.1)
  k.spWrite (base + sp.1) (leBytes sp.2.1 (setBits old (sp.2.2 + f.elemBits - 1) sp.2.2 code))

/-- Put an element code into a tile register at a place; with the last group of a 6-bit linear row its unused bytes are
written zero (R140). -/
def Cluster.putTileElem (k : Cluster) (t : Nat) (p : Nat × Nat) (code : Nat) : Cluster :=
  let x := k.tile t
  let sp := elemSpan x.fmt p.2
  let offs := (upFrom sp.1 sp.2.1).map (fun j => rowOffset x.shape x.fmt x.pair p.1 j)
  let old := leNat (offs.map (k.tileByte t))
  let k := (offs.zip (leBytes sp.2.1 (setBits old (sp.2.2 + x.fmt.elemBits - 1) sp.2.2 code))).foldl
    (fun k q => k.putTileByte t q.1 q.2) k
  if x.shape = 4 ∧ x.fmt.elemBits = 6 ∧ p.2 + 1 = rowElems 4 x.fmt x.pair then
    let used := rowElems 4 x.fmt x.pair * 6 / 8
    (upFrom used (rowBytes 4 x.fmt x.pair - used)).foldl (fun k j =>
      k.putTileByte t (rowOffset 4 x.fmt x.pair p.1 j) 0) k
  else k

/-- R183: the number of an element place among those a chain has written. -/
def placeKey (t : Nat) (p : Nat × Nat) : Nat := (t * 1024 + p.1) * 1024 + p.2

/-- R183: a row whose every element this chain has written becomes valid, its scales with it; its words lose their
poison. -/
def Beat.rowDone (b : Beat) (t row : Nat) : Beat :=
  let y := b.k.tile t
  if (List.range (rowElems y.shape y.fmt y.pair)).all (fun e => b.x.wrote.contains (placeKey t (row, e))) then
    let offs := (List.range (rowBytes y.shape y.fmt y.pair)).map (rowOffset y.shape y.fmt y.pair row)
    let clr := fun (z : Tile) (base : Nat) =>
      { z with badData := z.badData.filter (fun w => !(offs.contains (base + w * 8))) }
    let k := b.k.setTile t (((clr (b.k.tile t) 0).mark true row).mark false row)
    { b with k := if y.pair then k.setTile (t + 1) (clr (k.tile (t + 1)) 32768) else k }
  else b

/-- Write element e of a tensor with its code. -/
def Beat.put (b : Beat) (i : Nat) (t : TensorD) (e code : Nat) : Beat :=
  if t.space = 3 then
    let p := tilePlace (b.k.tile t.handle) t.trans e
    ({ b with k := b.k.putTileElem t.handle p code,
              x := { b.x with wrote := nsIns b.x.wrote (placeKey t.handle p) } }).rowDone t.handle p.1
  else { b with k := b.k.putBufElem (b.x.buf i).base t.f e code }

/-- Write the scale of the block that holds element e of a tensor. -/
def Beat.putScale (b : Beat) (i : Nat) (t : TensorD) (e scale : Nat) : Beat :=
  if t.space = 3 then
    let y := b.k.tile t.handle
    let o := tileScaleAt y (tilePlace y t.trans e)
    { b with k := b.k.setTile t.handle { y with scale := amSet 0 y.scale o (BitVec.ofNat 8 scale),
                                                badScale := y.badScale } }
  else { b with k := b.k.spWrite ((b.x.buf i).base + t.scoff + e / 32) (leBytes 1 scale) }

/-- R54: codes of one format packed in order. -/
def packCodes (f : Fmt) (cs : List Nat) : List Byte :=
  leBytes ((cs.length * f.elemBits + 7) / 8) (cs.foldr (fun c n => c % 2 ^ f.elemBits + 2 ^ f.elemBits * n) 0)

/-- Write converted elements and the scales of their blocks, and note their bytes. -/
def Beat.putAll (b : Beat) (i : Nat) (t : TensorD) (es : List Nat) (r : List Nat × List Conv) : Beat :=
  let b := (es.zip r.2).foldl (fun b p => b.put i t p.1 p.2.code) b
  let b := ((List.range r.1.length).zip r.1).foldl (fun b p => b.putScale i t (es.getD (32 * p.1) 0) p.2) b
  { b with el := b.el ++ packCodes t.f (r.2.map (·.code)), sc := b.sc ++ r.1.flatMap (leBytes 1),
           x := { b.x with counts := b.x.counts.add (r.2.foldl (fun a c => a.add c.count) {}) } }

/-! ### Sinks (R190, R196, R205) -/

/-- R76: a direct conversion to FP32 leaves an infinity, which only a float-mode entry holds, unchanged. -/
def keepInf (f : Fmt) (vs : List (Val × Rnd)) : List Nat × List Conv :=
  if f = .fp32 then ([], vs.map (fun p => match p.1 with
    | .inf s => ⟨(inf32 s).toNat, false, false⟩
    | v => f.convert p.2 v))
  else convertAll f vs

/-- R205: whether the sink is assembled. -/
def assembled (t : TensorD) : Bool := t.space == 3 && t.trans && (t.f.mx || t.f.elemBits == 4 || t.f.elemBits == 6)

/-- R205: form and write the rows of this beat whose 32 places are gathered. -/
def Beat.flush (b : Beat) (t : TensorD) (rows : List Nat) : Beat :=
  let R := (b.k.tile t.handle).rows
  let mine := rows.flatMap (fun r => b.x.asm.filter (fun p => p.1 % R == r))
  let b := b.putAll 3 t (mine.map (·.1)) (convertAll t.f (mine.map (fun p => (p.2.val, p.2.rnd))))
  { b with x := { b.x with asm := b.x.asm.filter (fun p => !(rows.contains (p.1 % R))) } }

/-- The sink takes the values of a beat with the words of their conversion. The lanes of a sink with D0S 0 meet one
element: pick names the lane whose value stays (assumption 24). -/
def Beat.sink (b : Beat) (t : TensorD) (ps : List Idx) (vs : List (Val × Rnd)) (pick : Nat)
    (cv : Fmt → List (Val × Rnd) → List Nat × List Conv := convertAll) : Beat :=
  if t.space = 0 then b
  else
    let es := ps.map (fun p => (t.at_ p).toNat)
    if assembled t then
      let R := (b.k.tile t.handle).rows
      let asm := (es.zip vs).foldl (fun m p => amIns m p.1 ⟨p.2.1, p.2.2⟩) b.x.asm
      let b := { b with x := { b.x with asm := asm } }
      if (ps.headD (0, 0, 0, 0)).2.1 % 32 = 31 then b.flush t (es.map (· % R)) else b
    else if t.d0s = 0 then
      let n := pick % vs.length
      b.putAll 3 t (es.take 1) (cv t.f ((vs.drop n).take 1))
    else b.putAll 3 t es (cv t.f vs)

/-! ### The reduction tree (R193 to R196) -/

/-- R194: adjacent pairs added. -/
def pairUp : List (BitVec 32) → List (BitVec 32)
  | a :: b :: t => fadd a b :: pairUp t
  | l => l

/-- R194: the fixed binary tree over a beat's lanes; 8 levels reduce 256. -/
def treeSum (ls : List (BitVec 32)) : BitVec 32 :=
  (pairUp (pairUp (pairUp (pairUp (pairUp (pairUp (pairUp (pairUp ls)))))))).headD 0

/-- R195, R65, R71: an FP32 lane value as a gauged addend under GREC. -/
def gsumf (g : Gauge) (r : Raw) (v : BitVec 32) : Raw × Bool :=
  let p := gaugeProduct g (f32Val v)
  (⟨accAdd r.ent p.1 p.2.1 p.2.2 false, true, g⟩, p.2.2)

/-- R195, R197: one raw value into a GSUM. -/
def gsum (r : Raw) (v : Raw) : Raw :=
  if v.held = false then r
  else if r.held then { r with ent := accAdd r.ent v.ent.a v.ent.nan v.ent.range v.ent.sat } else v

/-- MAX, MIN and ARGMAX of one lane: its reduced index and value. -/
def extreme (mode : Nat) (t : Tree) (i : Nat) (v : BitVec 32) : Tree :=
  let t := if t.seen then t else { t with seen := true, idx := i }
  if isNan v then t
  else if t.any = false then { t with any := true, f := v, idx := i }
  else if (if mode = 3 then decide (ordKey v < ordKey t.f) else decide (ordKey t.f < ordKey v)) then
    { t with f := v, idx := i }
  else t

/-- The tree takes the lanes of a beat of an arithmetic chain. -/
def treeTake (d : ChainD) (t : Tree) (ps : List Idx) (vs : List (BitVec 32)) : Tree × VxCounts :=
  match d.tree with
  | 1 =>
    let b := treeSum vs
    ({ t with any := true, seen := true, f := if t.any then fadd t.f b else b }, {})
  | 6 =>
    let g := Gauge.ofCode (d.grec % 32768)
    let r := vs.foldl (fun (a : Raw × Nat) v => let q := gsumf g a.1 v; (q.1, a.2 + b2n q.2)) (t.raw, 0)
    ({ t with any := true, seen := true, raw := { r.1 with gauge := g } }, { grange := r.2 })
  | 2 | 3 | 4 =>
    ((ps.zip vs).foldl (fun t p => extreme d.tree t (if d.rd1 then p.1.2.1 * d.e0 + p.1.1 else p.1.1) p.2) t, {})
  | _ => (t, {})

/-- The exact value of a finished reduction. -/
def Tree.value (t : Tree) (mode : Nat) : Val :=
  if mode = 5 ∨ mode = 6 then (if t.raw.held then accVal t.raw.gauge t.raw.ent else .fin false 0 0)
  else if t.any then f32Val t.f else .nan

/-- R201: RESULT of a finished reduction. -/
def Tree.resultBytes (t : Tree) (mode : Nat) (raw : Bool) : List Byte :=
  if raw then t.raw.bytes
  else if mode = 5 ∨ mode = 6 then leBytes 16 (Fmt.fp32.convert .nearest (t.value mode)).code
  else leBytes 4 (f32Round (t.value mode)).toNat ++ leBytes 12 (if mode = 4 then t.idx else 0)

/-- R196: a finished reduction goes to the RSINK tensor and to the summary. -/
def Beat.treeDone (b : Beat) (seed : Nat) (place : Idx) : Beat :=
  let d := chainD b.x.desc
  let i := d.rsink
  let t := tensorD b.x.desc i
  let tr := b.x.tree
  let e := (t.at_ place).toNat
  let b :=
    if i = 0 then b
    else if t.raw then
      { b with k := b.k.spWrite ((b.x.buf i).base + 16 * e) tr.raw.bytes, el := b.el ++ tr.raw.bytes }
    else if t.space = 4 then
      { b with k := { b.k with arr := b.k.arr.addIn e tr.raw }, el := b.el ++ (if tr.raw.held then tr.raw.bytes else []) }
    else
      let v := tr.value d.tree
      let b := b.putAll i t [e] (convertAll t.f [(v, rndOf t.rnd seed t.site (d.logical place))])
      if d.tree = 4 then
        let b := b.put i t (e + 1) tr.idx
        { b with el := b.el ++ leBytes 4 tr.idx }
      else b
  { b with x := { b.x with tree := {}, result := tr.resultBytes d.tree (i != 0 && t.raw) } }

/-! ### Beats -/

/-- R159: readout-and-clear clears each block whose 32 entries the beat's access covers. -/
def Cluster.clearRead (k : Cluster) (d : List Byte) (ps : List Idx) : Cluster :=
  (readTensors d).foldl (fun k i =>
    let t := tensorD d i
    if t.space = 4 ∧ t.clr then
      let es := ps.map (fun p => (t.at_ p).toNat)
      (es.filter (fun e => e % 32 == 0 && (upFrom e 32).all (fun x => es.contains x))).foldl (fun k e =>
        { k with arr := k.arr.clearBlock (e / 1024) (e % 1024 / 32) }) k
    else k) k

/-- R190: whether the chain converts its ACC source directly to the sink's format. -/
def directChain (d : List Byte) : Bool :=
  let h := chainD d
  !h.kind && h.nstage == 0 && h.tree == 0 && (tensorD d 0).space == 4

/-- A beat of an arithmetic chain. -/
def Beat.arith (b : Beat) (seed : Nat) (ps : List Idx) (lost : List Nat) (pick : Nat) : Beat :=
  let d := b.x.desc
  let h := chainD d
  let log := ps.map h.logical
  let t0 := tensorD d 0
  let t3 := tensorD d 3
  let n := b.x.beat
  if directChain d then
    let es := ps.map (fun p => b.k.elem b.x 0 p lost)
    let b := { b with k := b.k.clearRead d ps,
                      x := { b.x with counts := es.foldl (fun (a : VxCounts) (e : Elem) => a.add e.count) b.x.counts } }
    b.sink t3 ps ((es.zip log).map (fun (p : Elem × Nat) => (p.1.v, rndOf t0.rnd seed t0.site p.2))) pick keepInf
  else
    let rd := readTensors d
    let col := fun (i : Nat) =>
      if rd.contains i then
        let t := tensorD d i
        (ps.zip log).map (fun p => (b.k.elem b.x i p.1 lost).lane (rndOf t.rnd seed t.site p.2))
      else ps.map (fun _ => (0#32, {}))
    let c0 := col 0
    let c1 := col 1
    let c2 := col 2
    let cnt := (c0 ++ c1 ++ c2).foldl (fun (a : VxCounts) p => a.add p.2) b.x.counts
    let ls := (c0.zip (c1.zip (c2.zip log))).map (fun q => (q.1.1, q.2.1.1, q.2.2.1.1, q.2.2.2))
    let r := (stages d).foldl (fun (a : List (BitVec 32 × BitVec 32 × BitVec 32 × Nat) × VxCounts) g =>
      let q := runStage b.k.vx seed g a.1
      (q.1, a.2.add q.2)) (ls, cnt)
    let out := r.1.map (·.1)
    let tr := treeTake h b.x.tree ps out
    let b := { b with k := b.k.clearRead d ps, x := { b.x with counts := r.2.add tr.2, tree := tr.1 } }
    let b := b.sink t3 ps ((out.zip log).map (fun p => (f32Val p.1, rndOf t3.rnd seed t3.site p.2))) pick
    if h.tree ≠ 0 ∧ h.treeEnds n then b.treeDone seed (h.treePlace n) else b

/-- The raw source values of a beat of a gauged chain. A value whose word is poisoned enters as a held NaN under the gauge
record of its destination (R200; assumption 25). -/
def Cluster.rawSource (k : Cluster) (x : Chain) (p : Idx) (lost : List Nat) : Raw × Bool :=
  let t := tensorD x.desc 0
  let e := (t.at_ p).toNat
  if t.space = 4 then (k.arr.raw e, lost.contains e)
  else
    let a := (x.buf 0).base + 16 * e
    (Raw.ofBytes (k.spRead a 16), !(k.spBad a 16).isEmpty)

/-- The gauge record a beat's values meet: their accumulator target's, or the reduction's. -/
def Cluster.destGauge (k : Cluster) (x : Chain) (p : Idx) : Option Gauge :=
  let t := tensorD x.desc 3
  if t.space = 4 then k.arr.blockRec ((t.at_ p).toNat / 1024) ((t.at_ p).toNat % 1024 / 32)
  else if x.tree.raw.held then some x.tree.raw.gauge else none

/-- The values a gauged beat carries. -/
def Cluster.rawValues (k : Cluster) (x : Chain) (ps : List Idx) (lost : List Nat) : List (Raw × Bool) :=
  ps.map (fun p =>
    let r := k.rawSource x p lost
    if r.2 then (⟨{ nan := true }, true, (k.destGauge x p).getD (if r.1.gauge.mode then {} else r.1.gauge)⟩, true) else r)

/-- R195, R198: whether a gauged beat is refused: some add-in, tree input, or tree result would be. -/
def Cluster.beatRefused (k : Cluster) (x : Chain) (n : Nat) (ps : List Idx) (vs : List Raw) : Bool :=
  let h := chainD x.desc
  let t3 := tensorD x.desc 3
  let heldOf := vs.filter (·.held)
  let tree := vs.foldl gsum x.tree.raw
  let add := (ps.zip vs).foldl (fun (a : MxArray × Bool) p =>
    let e := (t3.at_ p.1).toNat
    if p.2.held = false ∨ t3.space ≠ 4 then a
    else (a.1.hold (e / 1024) (e % 1024 / 32) p.2.gauge, a.2 || a.1.refuses e p.2.gauge)) (k.arr, false)
  let rs := tensorD x.desc h.rsink
  let re := (rs.at_ (h.treePlace n)).toNat
  add.2
    || (h.tree == 5 && heldOf.any (fun v => v.gauge.mode || v.gauge != tree.gauge))
    || (h.tree == 5 && h.rsink != 0 && rs.space == 4 && h.treeEnds n && tree.held && add.1.refuses re tree.gauge)

/-- A beat of a gauged chain that is not refused. -/
def Beat.gauged (b : Beat) (ps : List Idx) (vs : List (Raw × Bool)) (pick : Nat) : Beat :=
  let d := b.x.desc
  let h := chainD d
  let n := b.x.beat
  let t3 := tensorD d 3
  let b := { b with k := b.k.clearRead d ps,
                    x := { b.x with counts := vs.foldl (fun a v => a.add { ue := b2n v.2 }) b.x.counts } }
  let es := ps.map (fun p => (t3.at_ p).toNat)
  let b :=
    if t3.space = 4 then
      { b with k := { b.k with arr := (es.zip vs).foldl (fun a p => a.addIn p.1 p.2.1) b.k.arr },
               el := b.el ++ vs.flatMap (fun v => if v.1.held then v.1.bytes else []) }
    else if t3.space = 1 ∨ t3.space = 2 then
      let w := if t3.d0s = 0 then (es.take 1).zip ((vs.drop (pick % vs.length)).take 1) else es.zip vs
      { b with k := w.foldl (fun k p => k.spWrite ((b.x.buf 3).base + 16 * p.1) p.2.1.bytes) b.k,
               el := b.el ++ w.flatMap (fun p => p.2.1.bytes) }
    else b
  if h.tree = 5 then
    let b := { b with x := { b.x with tree := { b.x.tree with raw := vs.foldl (fun a v => gsum a v.1) b.x.tree.raw } } }
    if h.treeEnds n then b.treeDone 0 (h.treePlace n) else b
  else b

/-- The poisoned scratchpad words a beat reads (R267). -/
def Cluster.beatBad (k : Cluster) (x : Chain) (ps : List Idx) : List Nat :=
  (readTensors x.desc).foldl (fun m i =>
    let t := tensorD x.desc i
    if t.space = 1 ∨ t.space = 2 then
      ps.foldl (fun m p =>
        let e := (t.at_ p).toNat
        let sp := if t.raw then (16 * e, 16, 0) else elemSpan t.f e
        let m := (k.spBad ((x.buf i).base + sp.1) sp.2.1).foldl nsIns m
        if t.f.mx && !t.raw then (k.spBad ((x.buf i).base + t.scoff + e / 32) 1).foldl nsIns m else m) m
    else m) []

/-- Tile registers whose poisoned words a beat reads, with the number of elements it finds so. -/
def Cluster.beatTiles (k : Cluster) (x : Chain) (ps : List Idx) : List (Nat × Nat) :=
  (readTensors x.desc).filterMap (fun i =>
    let t := tensorD x.desc i
    if t.space = 3 then
      let n := (ps.filter (fun p => (k.tileElem t (t.at_ p).toNat).ue)).length
      if n = 0 then none else some (t.handle, n)
    else none)

/-- R174: the steps a beat takes at its busiest port. -/
def beatSteps (d : List Byte) (n : Nat) : Nat :=
  let bytes := fun (i : Nat) =>
    let t := tensorD d i
    let m := if t.d0s = 0 then 1 else n
    if t.raw then 16 * m else (m * t.f.elemBits + 7) / 8 + (if t.f.mx then (m + 31) / 32 else 0)
  let used := readTensors d ++ [3]
  let acc := (used.filter (fun i => (tensorD d i).space == 4)).length
  let sp := (used.filter (fun i => (tensorD d i).space == 1 || (tensorD d i).space == 2)).foldl (fun a i => a + bytes i) 0
  let tile := fun (t : Nat) (w : Bool) =>
    (used.filter (fun i => (tensorD d i).space == 3 && (tensorD d i).handle == t && (i == 3) == w)).foldl
      (fun a i => a + bytes i) 0
  let tl := (List.range 8).foldl (fun a t => max a (max ((tile t false + 511) / 512) ((tile t true + 511) / 512))) 0
  max (max 1 acc) (max ((sp + 63) / 64) tl)

/-- R191, R192: a chain's tables are loaded before its first beat. -/
def Cluster.loadTables (k : Cluster) (x : Chain) : Cluster :=
  let gs := stages x.desc
  ((List.range gs.length).zip gs).foldl (fun k p =>
    if p.2.op = 0x14 ∧ p.2.tload then
      let b := amGet ⟨0, 0⟩ x.bufs (8 + p.1)
      let ent := (List.range (p.2.nseg + 1)).map (fun j =>
        BitVec.ofNat 32 (leNat (k.spRead (b.base + p.2.offset + 4 * j) 4)))
      let old := (k.vx.slot p.2.tslot).ent
      { k with vx := k.vx.setSlot p.2.tslot ⟨true, ent ++ old.drop ent.length⟩ }
    else k) k

/-- The chain whose beats enter next: the oldest that still has some. -/
def Vx.current (v : Vx) : Option Chain := v.chains.find? Chain.busy

/-- Replace a chain, by its ticket. -/
def Vx.setChain (v : Vx) (x : Chain) : Vx := { v with chains := v.chains.map (fun y => if y.tk = x.tk then x else y) }

/-- R536: the digest log keeps the last 8,192 beats. -/
def Vx.logDigest (v : Vx) (ord beat : Nat) (d : BitVec 32) : Vx :=
  { v with log := (v.log ++ [(ord, beat, d)]).drop (v.log.length + 1 - 8192) }

/-- Where a word that a beat's check bits show stands (assumption 4): 0 to 65,535 the scratchpad; from 65,536 on the tile
registers, 10,240 each; from 147,456 on the accumulator memory. -/
def State.vxEcc (s : State) (c : Cl) (e : Ecc) (blocks : List Nat) : State :=
  let go := fun (w : Nat) (mk : Nat → Ecc) =>
    if w < 65536 then s.spEcc c (mk w)
    else if w < 147456 then s.tileEcc c ((w - 65536) / 10240) (mk ((w - 65536) % 10240))
    else s.accEcc c (mk (w - 147456)) blocks
  match e with
  | .clean => s
  | .corrected w => go w .corrected
  | .uncorrectable w => go w .uncorrectable

/-- The accumulator entries lost to an uncorrectable word (R164, R165). -/
def eccLost : Ecc → List Nat
  | .uncorrectable w =>
    if w < 147456 then [] else if w - 147456 < 131072 then [w - 147456] else upFrom (32 * (w - 147456 - 131072)) 32
  | _ => []

/-- One beat of chain x, not refused: everything but the error reports. -/
def Cluster.beat (k : Cluster) (x : Chain) (ps : List Idx) (lost : List Nat) (pick : Nat) : Cluster :=
  let seed := k.r CL_VX_SEED
  let b : Beat := { k := k, x := x }
  let b := if (chainD x.desc).kind then b.gauged ps (k.rawValues x ps lost) pick else b.arith seed ps lost pick
  let dg := crc32c (b.el ++ b.sc)
  let n := b.x.beat
  let y := { b.x with beat := n + 1, digests := if x.cmp then b.x.digests ++ [dg] else b.x.digests }
  let v := b.k.vx.setChain y
  let before := ((k.vx.chains.takeWhile (fun y => y.tk != x.tk)).filter (fun y => y.cmp)).length
  let k := { b.k with vx := if x.cmp then v.logDigest (k.ord + before) n dg else v }
  if b.x.counts.satent = x.counts.satent then k else { k with flags := Nat.lor k.flags 2 }

/-- R208: a beat of the oldest chain that has one left enters, and has its effect. -/
def execVxBeat (c : Cl) (ecc : Ecc) (s : State) : Res :=
  let k := s.cl c
  match k.vx.current with
  | none => waits s
  | some x =>
    if k.vx.hold ≠ 0 then waits s
    else
      let d := chainD x.desc
      let k := if x.loaded then k else k.loadTables x
      let x := { x with loaded := true }
      let ps := d.lanes x.beat
      let acc := (readTensors x.desc).flatMap (fun i => let t := tensorD x.desc i
        if t.space = 4 then ps.map (fun p => (t.at_ p).toNat / 32) else [])
      let s := (s.mod c (fun _ => { k with vx := k.vx.setChain x })).vxEcc c ecc acc
      let k := s.cl c
      let lost := eccLost ecc
      if d.kind && k.beatRefused x x.beat ps ((k.rawValues x ps lost).map (·.1)) then
        .next (s.vxm c (fun v => v.setChain { x with stopped := true, tree := {} }))
      else
        let bad := k.beatBad x ps
        let tl := k.beatTiles x ps
        let f := s.free
        let s := if (tensorD x.desc 3).d0s = 0 then f.2 else s
        let k' := k.beat x ps lost f.1.toNat
        let ue := match k'.vx.chains.find? (fun y => y.tk == x.tk) with | some y => y.counts.ue - x.counts.ue | none => 0
        let s := s.mod c (fun _ => { k' with vx := { k'.vx with hold := beatSteps x.desc ps.length - 1 } })
        let s := (s.cinc c CL_VX_CNT_BEATS 1).cinc c CL_VX_CNT_UE ue
        let s := s.spEncounters c 0 bad
        .next (tl.foldl (fun s p => s.tileUe c p.1 p.2) s)

end Sys2Proof.Machine
end

