-- ==== Sys2Proof/Machine/VectorChain.lean ====
section
/-! DEFINITION. Sys2Proof/Machine/VectorChain.lean: the checks of a chain (R204, R205), its acceptance and its completion
(R182, R201, R202, R210), and the records of understudy mode that chains form (R530, R531, R536). -/

namespace Sys2Proof.Machine

/-! ### Queues of a chain (R182, R204) -/

/-- The QUEUE source of a chain. -/
def queueSource (d : List Byte) : Option Nat := (sourceTensors d).find? (fun i => (tensorD d i).space == 2)

/-- Whether the sink is a QUEUE tensor. -/
def queueSink (d : List Byte) : Bool := (tensorD d 3).space == 2

/-- R177: whether an extent is zero. -/
def noBeats (d : List Byte) : Bool :=
  let h := chainD d
  h.e0 == 0 || h.e1 == 0 || h.e2 == 0 || h.e3 == 0

/-- The handle of the QUEUE source. -/
def Cluster.srcHandle (k : Cluster) (d : List Byte) : Option HEntry :=
  if (queueSource d).isSome then (k.queue (k.port 2)).head? else none

/-- The handle of the QUEUE sink: the next one, if both ports are bound to one queue. -/
def Cluster.sinkHandle (k : Cluster) (d : List Byte) : Option HEntry :=
  if queueSink d then
    (k.queue (k.port 4))[if (queueSource d).isSome && k.port 4 == k.port 2 then 1 else 0]?
  else none

/-- R182: every queue the chain pops from holds a handle. -/
def Cluster.queuesReady (k : Cluster) (d : List Byte) : Bool :=
  noBeats d ||
    (((queueSource d).isNone || (k.srcHandle d).isSome) && (!(queueSink d) || (k.sinkHandle d).isSome)
      && (!(chainD d).popres || !k.resq.isEmpty))

/-- R275: the buffers of the tensors (by tensor) and tables (8 and up) that a chain names. -/
def Cluster.chainBufs (k : Cluster) (d : List Byte) : List (Nat × Buf) :=
  let q := fun (e : Option HEntry) => match e with | some h => k.prop h.handle | none => ⟨0, 0⟩
  (List.range 4).filterMap (fun i =>
      let t := tensorD d i
      match t.space with
      | 1 => some (i, k.prop t.handle)
      | 2 => some (i, if i = 3 then q (k.sinkHandle d) else q (k.srcHandle d))
      | _ => none)
    ++ ((List.range (stages d).length).zip (stages d)).filterMap (fun p =>
        if p.2.op = 0x14 ∧ p.2.tload then some (8 + p.1, k.prop p.2.handle) else none)

/-! ### Checks (R204) -/

/-- Whether a tensor's SCOFF must be zero and is not (R185). -/
def TensorD.scoffBad (t : TensorD) : Bool :=
  t.scoff != 0 && !((t.space == 1 || t.space == 2) && !t.raw && (match Fmt.ofCode t.fmt with | some f => f.mx | none => false))

/-- Check 1. -/
def chainCheck1 (q : QInsn) (d : List Byte) : Bool :=
  let h := chainD d
  let ts := (List.range 4).map (tensorD d)
  let gs := stages d
  bits q.rs1.toNat 63 19 == 0 && q.rs1.toNat % 64 == 0 && bits q.rs2.toNat 63 7 == 0 && !h.rsv
    && decide (h.nstage ≤ 8) && decide (h.tree ≤ 6) && h.rsink != 3
    && (upFrom (64 + 16 * h.nstage) (128 - 16 * h.nstage)).all (fun o => fieldB d o 1 == 0)
    && gs.all (fun g => !g.rsv && decide (g.op ≤ 0x15) && decide (g.rnd ≤ 1)
        && !(g.op == 0x15 && (Fmt.ofCode g.fmt).isNone) && !(g.op == 0x14 && g.tload && g.offset % 4 != 0))
    && ts.all (fun t => !t.rsv && !t.scoffBad && decide (t.space ≤ 5) && decide (t.rnd ≤ 1)
        && (t.space == 0 || (Fmt.ofCode t.fmt).isSome))

/-- Whether a tensor is a RAW buffer. -/
def TensorD.rawBuf (t : TensorD) : Bool := (t.space == 1 || t.space == 2) && t.raw

/-- Check 3. -/
def chainCheck3 (d : List Byte) : Bool :=
  let h := chainD d
  let t := tensorD d
  let gs := stages d
  let sel := selected d
  let rs := t h.rsink
  let loads : List Nat := (gs.filter (fun g => g.op == 0x14 && g.tload)).map (fun g => g.tslot)
  (t 0).space != 0
    && sel.all (fun i => (t i).space != 0 && i != h.rsink)
    && gs.all (fun g => !(opReadsB g.op && g.bsel == 0) && !(opReadsC g.op && g.csel == 0))
    && !(h.rsink != 0 && h.tree == 0)
    && (t 3).space != 5
    && (h.rsink == 0 || rs.space == 1 || rs.space == 3 || (rs.space == 4 && h.kind && h.tree == 5))
    && decide (((sourceTensors d).filter (fun i => (t i).space == 2)).length ≤ 1)
    && (List.range 4).all (fun i => let x := t i
        !(x.space == 5 && (x.d0s != 0 || x.s1 != 0 || x.s2 != 0 || x.s3 != 0)) && !(x.raw && (!x.rawBuf || x.fmt != 0)))
    && decide loads.Nodup
    && (if h.kind then
          h.nstage == 0 && (h.tree == 0 || h.tree == 5) && ((t 0).space == 4 || (t 0).rawBuf)
            && ((t 3).space == 0 || (t 3).space == 4 || (t 3).rawBuf)
        else
          h.tree != 5 && (t 3).space != 4 && !(t 3).raw && (sourceTensors d).all (fun i => !(t i).raw)
            && (h.rsink == 0 || ((!rs.raw || h.tree == 6) && (h.tree != 4 || rs.fmt == 12))))

/-- The loop extents that matter to a tensor: a zero stride leaves the element as it is. -/
def spanExt (e : Nat) (s : Int) : Nat := if s = 0 then 1 else e

/-- Every place of the loop nest at which a tensor names a different element; the RSINK tensor is addressed with i0 = 0,
and i1 = 0 under RD1 (R196). -/
def ChainD.reach (h : ChainD) (t : TensorD) (tree : Bool) : List Idx :=
  (List.range (spanExt h.e3 t.s3)).flatMap (fun i3 => (List.range (spanExt h.e2 t.s2)).flatMap (fun i2 =>
    (List.range (if tree && h.rd1 then 1 else spanExt h.e1 t.s1)).flatMap (fun i1 =>
      (List.range (if tree then 1 else spanExt h.e0 t.d0s)).map (fun i0 => (i0, i1, i2, i3)))))

/-- The least and greatest element a tensor names. -/
def ChainD.range_ (h : ChainD) (t : TensorD) (tree : Bool) : Int × Int :=
  let add := fun (p : Int × Int) (s : Int) (e : Nat) =>
    let d := s * ((e : Int) - 1)
    if 0 ≤ d then (p.1, p.2 + d) else (p.1 + d, p.2)
  add (add (add (add ((t.base : Int), (t.base : Int)) t.d0s (if tree then 1 else h.e0))
    t.s1 (if tree && h.rd1 then 1 else h.e1)) t.s2 h.e2) t.s3 h.e3

/-- R205: every beat of an ACC tensor with D0S 1 starts at a multiple of 32 and ends in the same row. Row-relative starts
repeat with period 32 in each outer index. -/
def accFits (h : ChainD) (t : TensorD) : Bool :=
  let ok := fun (e : Nat) (s : Int) => e == 1 || s % 32 == 0
  t.base % 32 == 0 && ok h.e1 t.s1 && ok h.e2 t.s2 && ok h.e3 t.s3
    && (List.range (min h.e3 32)).all (fun i3 => (List.range (min h.e2 32)).all (fun i2 =>
      (List.range (min h.e1 32)).all (fun i1 => (List.range h.rowBeats).all (fun m =>
        decide (wrapInt 10 (t.at_ (256 * m, i1, i2, i3)) + min 256 (h.e0 - 256 * m) ≤ 1024)))))

/-- R205: every beat of an MX sink with TRANS 0 starts at a multiple of 32 and covers whole blocks. -/
def mxSinkFits (h : ChainD) (t : TensorD) : Bool :=
  t.d0s == 1 && h.e0 % 32 == 0 && t.base % 32 == 0 && (h.e1 == 1 || t.s1 % 32 == 0) && (h.e2 == 1 || t.s2 % 32 == 0)
    && (h.e3 == 1 || t.s3 % 32 == 0)

/-- Check 4: a tile tensor against its register (R147, R181, R185). -/
def Cluster.tileFits (k : Cluster) (h : ChainD) (t : TensorD) (read tree : Bool) : Bool :=
  let x := k.tile t.handle
  let n := x.rows * rowElems x.shape x.fmt x.pair
  x.shape != 0 && !x.member && x.fmt.code == t.fmt
    && (!read || (h.reach t tree).all (fun p =>
        let e := t.at_ p
        !(decide (0 ≤ e) && decide (e < n)) || x.valid.contains (tilePlace x t.trans e.toNat).1))

/-- Check 4. -/
def Cluster.chainCheck4 (k : Cluster) (d : List Byte) : Bool :=
  let h := chainD d
  let t := tensorD d
  let rd := readTensors d
  let used := sourceTensors d ++ [3] ++ (if h.rsink = 0 then [] else [h.rsink])
  let slots := fun (n : Nat) => (k.vx.slot n).valid || k.vx.chains.any (fun x => !x.loaded && x.busy &&
    (stages x.desc).any (fun g => g.op == 0x14 && g.tload && g.tslot == n))
  used.all (fun i =>
    let x := t i
    let tree := i == h.rsink && i != 0
    match x.space with
    | 3 => k.tileFits h x (rd.contains i) tree
    | 4 =>
      (x.fmt == (if i = 0 && !h.kind && h.nstage == 0 && h.tree == 0 && (t 3).space != 0 then (t 3).fmt else 12))
        && (tree || x.d0s == 0 || accFits h x)
        && (x.fmt == 12 || (h.reach x tree).all (fun p =>
            match k.arr.blockRec ((x.at_ p).toNat / 1024) ((x.at_ p).toNat % 1024 / 32) with
            | some g => !g.mode | none => true))
    | _ => true)
    && used.all (fun i => !(t i).trans || (t i).space == 3)
    && (if assembled (t 3) then
          let x := t 3
          let r := (k.tile x.handle).rows
          x.s1 == (r : Int) && h.e1 % 32 == 0 && x.d0s == 1 && x.base / r % 32 == 0
        else if ((t 3).space == 1 || (t 3).space == 2 || (t 3).space == 3) && !(t 3).raw && (t 3).f.mx then mxSinkFits h (t 3)
        else true)
    && (h.rsink == 0 || (t h.rsink).raw || !(t h.rsink).f.mx)
    && (stages d).all (fun g => !(g.op == 0x15 && (match Fmt.ofCode g.fmt with | some f => f.mx | none => false) && h.e0 % 32 != 0)
        && !(g.op == 0x14 && !g.tload && !(slots g.tslot)))

/-- Check 5: elements within their spaces, scales within their stores, tables within their buffers. -/
def Cluster.chainCheck5 (k : Cluster) (d : List Byte) : Bool :=
  let h := chainD d
  let bufs := k.chainBufs d
  let used := readTensors d ++ [3] ++ (if h.rsink = 0 then [] else [h.rsink])
  used.all (fun i =>
    let t := tensorD d i
    let tree := i == h.rsink && i != 0
    let p := h.range_ t tree
    let hi := (if tree && h.tree == 4 then p.2 + 1 else p.2)
    let b := (amGet ⟨0, 0⟩ bufs i).size
    t.space == 0 || t.space == 5 || (decide (0 ≤ p.1) &&
      (match t.space with
       | 3 =>
         let x := k.tile t.handle
         decide (hi < (x.rows * rowElems x.shape x.fmt x.pair : Nat))
           && (x.fmt.mx == false || x.shape != 4 || (h.reach t tree).all (fun q =>
               decide (tileScaleAt x (tilePlace x t.trans (t.at_ q).toNat) < 2048)))
       | 4 => decide (hi < 131072)
       | _ =>
         if t.raw then decide (16 * hi + 16 ≤ (b : Int))
         else
           let e := hi.toNat
           decide (((e + 1) * t.f.elemBits + 7) / 8 ≤ b) && (!t.f.mx || decide (t.scoff + e / 32 < b)))))
    && ((List.range (stages d).length).zip (stages d)).all (fun p =>
      !(p.2.op == 0x14 && p.2.tload) || decide (p.2.offset + 4 * (p.2.nseg + 1) ≤ (amGet ⟨0, 0⟩ bufs (8 + p.1)).size))

/-- Check 6: with an ACC source, the records of all it reaches are compared before the first beat (R198): each add-in, and
each value of a reduction with the first held one. -/
def Cluster.chainCheck6 (k : Cluster) (d : List Byte) : Bool :=
  let h := chainD d
  let t0 := tensorD d 0
  let t3 := tensorD d 3
  let rec_ := fun (e : Int) => k.arr.blockRec (e.toNat / 1024) (e.toNat % 1024 / 32)
  let rs := tensorD d h.rsink
  !(h.kind && t0.space == 4) ||
    (List.range h.e3).all (fun i3 => (List.range h.e2).all (fun i2 => (List.range h.e1).all (fun i1 =>
      (List.range h.e0).all (fun i0 =>
        match rec_ (t0.at_ (i0, i1, i2, i3)) with
        | none => true
        | some g =>
          !((t3.space == 4 || h.tree == 5) && g.mode)
            && (t3.space != 4 || (match rec_ (t3.at_ (i0, i1, i2, i3)) with | some x => x == g | none => true))
            && (h.tree != 5 || h.rsink == 0 || rs.space != 4 ||
                (match rec_ (rs.at_ (0, if h.rd1 then 0 else i1, i2, i3)) with | some x => x == g | none => true))
            && (h.tree != 5 || (match rec_ (t0.at_ (0, if h.rd1 then 0 else i1, i2, i3)) with
                | some x => x == g | none => true))))))

/-- R204: the checks, in order. -/
def Cluster.chainCheck (k : Cluster) (q : QInsn) (d : List Byte) : Check :=
  if chainCheck1 q d = false then .fault SHAPE
  else if noBeats d then .noEffect
  else if chainCheck3 d = false then .fault SHAPE
  else if k.chainCheck4 d = false then .fault SHAPE
  else if k.chainCheck5 d = false then .fault EXTENT
  else if k.chainCheck6 d = false then .fault SHAPE
  else .pass

/-! ### Acceptance -/

/-- R182, R186: the chain an accepted vx.chain becomes. -/
def mkChain (s : State) (c : Cl) (q : QInsn) (d : List Byte) : Chain :=
  let k := s.cl c
  let none_ := noBeats d
  { num := k.vx.nextChain, tk := q.tk, desc := d,
    sig := if bit q.rs2.toNat 6 then some (bits q.rs2.toNat 5 0) else none,
    src := if none_ then none else k.srcHandle d, sink := if none_ then none else k.sinkHandle d,
    bufs := if none_ then [] else k.chainBufs d,
    pass := bits (s.dr LK_RV_STATUS) 31 16, cmp := s.comparing c }

/-- R182: an accepted chain pops its handles, and a result handle under POPRES. -/
def Cluster.popChain (k : Cluster) (d : List Byte) : Cluster :=
  if noBeats d then k
  else
    let k := if (queueSource d).isSome then k.setQueue (k.port 2) (k.queue (k.port 2)).tail else k
    let k := if queueSink d then k.setQueue (k.port 4) (k.queue (k.port 4)).tail else k
    if (chainD d).popres then { k with resq := k.resq.tail } else k

/-- Accept a chain that passes its checks or has no effect. -/
def State.acceptChain (s : State) (c : Cl) (q : QInsn) (d : List Byte) : State :=
  let x := mkChain s c q d
  ((s.acceptHead c .vector q (word x.num)).mod c (fun k => k.popChain d)).vxm c (fun v =>
    { v with chains := v.chains ++ [x], nextChain := (v.nextChain + 1) % 65536 })

/-- R204: the vector engine takes vx.chain. -/
def execVxChainAccept (c : Cl) (s : State) : Res :=
  let k := s.cl c
  match k.ready .vector 0 with
  | none => waits s
  | some q =>
    let d := k.spRead (bits q.rs1.toNat 18 0) 320
    if s.usWaits c || !(k.queuesReady d) then waits s
    else
      match k.chainCheck q d with
      | .fault st => .next (s.faultHead c .vector q st)
      | _ => .next (s.acceptChain c q d)

/-! ### Completion (R182, R201, R202, R210, R531) -/

/-- R201: STATUS of the summary record. -/
def Chain.status (x : Chain) : Nat := if x.stopped then 1 else if x.counts.ue ≠ 0 then 2 else 0

/-- R201: the counts of the record, saturated. -/
def VxCounts.list (v : VxCounts) : List Nat :=
  [v.nanent, v.rangeent, v.satent, v.nanin, v.invalid, v.divz, v.cvtsat, v.cvtnan, v.grange].map (fun n => min n (2 ^ 32 - 1))

/-- R201: the summary record. -/
def Chain.summary (x : Chain) : List Byte :=
  leBytes 2 x.num ++ leBytes 1 x.status ++ leBytes 1 0 ++ leBytes 4 x.beat
    ++ x.counts.list.flatMap (leBytes 4) ++ leBytes 4 (min x.counts.ue (2 ^ 32 - 1)) ++ sliceB x.result 0 16

/-- R182, R238: the pushes a chain makes when it ends: queue and entry. -/
def Cluster.chainPushes (k : Cluster) (x : Chain) : List (Nat × HEntry) :=
  (match x.src with | some h => [(k.port 3, { h with own := none })] | none => [])
    ++ (match x.sink with
        | some h => [(k.port 5, { word := BitVec.ofNat 32 (h.handle + 256 * x.num) })] | none => [])

/-- Whether every push finds room. -/
def Cluster.roomFor (k : Cluster) (ps : List (Nat × HEntry)) : Bool :=
  (List.range 8).all (fun n => decide ((k.queue n).length + (ps.filter (fun p => p.1 == n)).length ≤ 16))

/-- R531: the chain record: its ordinal, beats, digest and status. -/
def Chain.record (x : Chain) (ord : Nat) : List Byte :=
  leBytes 4 ord ++ leBytes 4 x.beat
    ++ leBytes 4 (crc32c (x.digests.flatMap (fun d => leBytes 4 d.toNat))).toNat ++ leBytes 1 x.status ++ leBytes 3 0

/-- The end of the oldest chain, its pushes made: summary record, counters, interrupt and signal (R199, R201, R202,
R211, R212). -/
def State.endChain (s : State) (c : Cl) (x : Chain) : State :=
  let s := (s.progressed c).vxm c (fun v => { v with
    chains := v.chains.filter (fun y => y.tk ≠ x.tk), lastChain := x.num
    summary := amSetMany 0 v.summary (64 * (x.num % 16)) x.summary })
  let flagged := x.counts.list.any (· ≠ 0)
  let s := s.cinc c CL_VX_CNT_CHAINS 1
  let s := s.cinc c CL_VX_CNT_FLAGGED (b2n flagged)
  let s := s.cinc c CL_VX_CNT_REFUSED (b2n x.stopped)
  let ctrl := s.cr c CL_VX_CTRL
  let s := if (bit ctrl 0 && x.status != 0) || (bit ctrl 1 && (flagged || x.counts.ue != 0)) then s.irq c 19 else s
  match x.sig with | some n => s.engInc c n | none => s

/-- R210: the oldest chain ends, once its beats are done and its pushes find room; it forms its chain record if its
digests were formed (R531). -/
def execVxChainComplete (c : Cl) (s : State) : Res :=
  let k := s.cl c
  match k.vx.chains with
  | [] => waits s
  | x :: _ =>
    if x.busy || !(k.roomFor (k.chainPushes x)) then waits s
    else
      let s := (k.chainPushes x).foldl (fun s p => s.pushQ c p.1 p.2) s
      let s := s.endChain c x
      .next (if x.cmp && s.comparing c then
          let h := chainD x.desc
          s.usRecord c (usRec c.val (x.record (s.cl c).ord) x.num x.pass h.rowBeats h.e1 h.e2)
        else s)

end Sys2Proof.Machine
end

