-- ==== Sys2Proof/Machine/ClusterStep.lean ====
section
/-! DEFINITION. Sys2Proof/Machine/ClusterStep.lean: one step of a cluster (R108 to R113, R174, R209, R325) with the counters that
count steps, and the queue parity error at mx.run (R723). -/

namespace Sys2Proof.Machine

/-- R126, R723: the array takes mx.run; a parity error of its queue ends the kernel with FAULT and resets the cluster. -/
def execMxRunAccept (c : Cl) (parityError : Bool) (s : State) : Res :=
  if parityError then
    if ((s.cl c).head .array).isNone || (s.cl c).wiping then waits s
    else
      let s := s.logErr { source := 10, cls := CFAULT, cause := 3, unit := c.val, ctx := some (s.cl c).owner }
      .next (s.resetCluster c FAULT)
  else mxRunAccept c s

/-! ### Counters of steps -/

/-- R230: whether the core waits for an engine's result before its next instruction. -/
def State.awaitsRd (s : State) (c : Cl) : Bool :=
  (s.cl c).coreReady && (match s.fetch c with
    | .ok w len _ => (match baseWord w len with | some b => (s.cl c).core.awaits b | none => false)
    | _ => false)

/-- R228: whether the core waits for room in an engine queue. -/
def State.awaitsQueue (s : State) (c : Cl) : Bool := (s.cl c).coreReady && s.blocked c && !(s.awaitsRd c)

/-- Whether the core is in sy.wait, sy.waitinv, a fence or cache.inv; and whether it awaits a cue. -/
def Stall.counts : Stall → Bool × Bool
  | .none => (false, false)
  | .cue _ => (true, true)
  | .fenceEng _ _ => (true, false)
  | .fenceKern _ => (true, false)
  | .exit _ _ => (true, false)
  | .cacheInv _ _ => (true, false)
  | .page _ _ _ => (false, false)
  | .hostRead _ _ _ _ _ => (false, false)

/-- R144: whether a tile.cfg or tile.rel at the head of its queue waits for its registers. -/
def Cluster.tileWaits (k : Cluster) : Bool :=
  match k.head .tile with
  | none => false
  | some q =>
    (bits q.word.toNat 14 12 == 0 || bits q.word.toNat 14 12 == 2) && !(k.pend .tile) && !k.wiping
      && k.mustWait q.tk (k.insnRegs .tile q)

/-- R182: whether the head chain waits for a queue handle. -/
def Cluster.chainWaits (k : Cluster) : Bool :=
  match k.ready .vector 0 with
  | none => false
  | some q => !(k.queuesReady (k.spRead (bits q.rs1.toNat 18 0) 320))

/-- The counters that a step of cluster c advances, as it finds the cluster. -/
def State.countStep (s : State) (c : Cl) : State :=
  let k := s.cl c
  let w := k.core.stall.counts
  let hold := s.usWaits c && (k.ready .vector 0).isSome
  let s' := (s.cinc c CL_CORE_CNT_RDSTALL (b2n (s.awaitsRd c))).cinc c CL_CORE_CNT_QSTALL (b2n (s.awaitsQueue c))
  let s' := (s'.cinc c CL_CORE_CNT_WAIT (b2n w.1)).cinc c CL_SY_CNT_WAIT (b2n w.2)
  let s' := (s'.cinc c CL_TILE_CNT_WAIT (b2n k.tileWaits)).cinc c CL_VX_CNT_WAIT (b2n (k.chainWaits && !hold))
  let s' := (s'.cinc c CL_VX_CNT_HOLD (b2n (k.vx.hold != 0))).cinc c ST_CNT_XWAIT (b2n (k.xwait 0 || k.xwait 1))
  s'.dinc MG_US_CNT_HOLD (b2n hold)

/-- R209: the vector engine's part of a step. -/
def State.vectorStep (s : State) (c : Cl) : State :=
  s.mod c (fun k => { k with vx := { k.vx with hold := k.vx.hold - 1, held := k.vx.hold != 0 } })

/-- R108: one step of cluster c: the array, the vector engine's holds, the streams' waits, and the step itself. While a push of
the array finds room, or a finished run has not completed, these come first. -/
def execArrayPipelineStep (c : Cl) (slip : Option Slip) (ecc : Ecc) (s : State) : Res :=
  if (s.cl c).stepReady then
    let s := (s.countStep c).arrayStep c slip ecc
    let s := (List.range 8).foldl (fun s n => s.strmStep c n) (s.vectorStep c)
    .next (s.mod c (fun k => { k with steps := k.steps + 1, rateN := k.rateN + 1 }))
  else waits s

end Sys2Proof.Machine
end

