-- ==== Sys2Proof/Machine/Intake.lean ====
section
/-! DEFINITION. Sys2Proof/Machine/Intake.lean: the intake of command windows and the checks of a packet (R542 to R552, R569, R656,
R725), management messages and relayed packets (R436, R587), and coalesced messages (R560). -/

namespace Sys2Proof.Machine

/-! ### The opcodes (R566) -/

/-- R566: an opcode: its LEN (0 where it follows from a field), whether it is administrative, and the parameter bytes it
uses, as offset and length. -/
structure OpInfo where
  op    : Nat
  len   : Nat
  admin : Bool := false
  used  : List (Nat × Nat) := []
  deriving DecidableEq, Repr

/-- R566: the opcodes of families 0x01 to 0x04. -/
def opTable1 : List OpInfo := [
  ⟨0x0101, 3, false, [(16, 1)]⟩, ⟨0x0102, 5, true, [(16, 1), (32, 22)]⟩, ⟨0x0103, 3, true, [(16, 1)]⟩,
  ⟨0x0104, 5, true, [(16, 1), (32, 22)]⟩, ⟨0x0105, 3, true, [(16, 1)]⟩, ⟨0x0106, 3, true, [(16, 1)]⟩,
  ⟨0x0107, 3, true, [(16, 2)]⟩,
  ⟨0x0201, 4, false, [(32, 12)]⟩, ⟨0x0202, 4, false, [(32, 12)]⟩, ⟨0x0203, 4, false, [(16, 8), (32, 16)]⟩,
  ⟨0x0204, 4, false, [(16, 16), (40, 8)]⟩, ⟨0x0205, 4, false, [(16, 1), (32, 16)]⟩, ⟨0x0206, 3, false, [(16, 1)]⟩,
  ⟨0x0207, 4, false, [(16, 4), (32, 16)]⟩, ⟨0x0301, 4, false, [(16, 4), (32, 16)]⟩, ⟨0x0302, 3, false, [(16, 2)]⟩,
  ⟨0x0401, 11, false, [(16, 2), (20, 41), (64, 96)]⟩, ⟨0x0402, 3, false, [(16, 4)]⟩, ⟨0x0403, 3, false, [(16, 4)]⟩,
  ⟨0x0404, 3, true, [(16, 8)]⟩]

/-- R566: the opcodes of families 0x05 to 0x0A. -/
def opTable2 : List OpInfo := [
  ⟨0x0501, 9, false, [(32, 96)]⟩, ⟨0x0502, 3, false, [(16, 4)]⟩, ⟨0x0503, 3, false, [(16, 5)]⟩,
  ⟨0x0504, 3, false, [(16, 4)]⟩, ⟨0x0505, 3, false, [(16, 4)]⟩, ⟨0x0506, 3, false, [(16, 4)]⟩, ⟨0x0507, 3, false, [(16, 4)]⟩,
  ⟨0x0601, 3, false, [(16, 4)]⟩, ⟨0x0602, 3, false, [(16, 4)]⟩, ⟨0x0603, 3, false, [(16, 2), (24, 8)]⟩,
  ⟨0x0604, 4, false, [(16, 2), (24, 10)]⟩, ⟨0x0605, 3, false, [(16, 4)]⟩, ⟨0x0606, 3, false, [(16, 2)]⟩,
  ⟨0x0607, 3, false, [(16, 1), (18, 5)]⟩, ⟨0x0608, 4, false, [(16, 1), (18, 4), (24, 3), (32, 6)]⟩,
  ⟨0x0701, 5, true, [(32, 32)]⟩, ⟨0x0702, 0, true, [(16, 4)]⟩, ⟨0x0703, 3, true, [(16, 3)]⟩, ⟨0x0704, 0, false, [(16, 2)]⟩,
  ⟨0x0705, 3, false, []⟩, ⟨0x0801, 3, false, []⟩, ⟨0x0802, 3, false, [(24, 8)]⟩, ⟨0x0803, 3, true, [(16, 16)]⟩,
  ⟨0x0804, 3, true, [(16, 1), (18, 3)]⟩, ⟨0x0901, 4, false, [(16, 4), (32, 8)]⟩, ⟨0x0902, 5, false, [(16, 4), (32, 40)]⟩,
  ⟨0x0903, 4, false, [(16, 8), (32, 8)]⟩, ⟨0x0904, 4, true, [(16, 4), (32, 8)]⟩, ⟨0x0A01, 3, false, []⟩,
  ⟨0x0A02, 4, true, [(16, 1), (20, 4), (32, 8)]⟩, ⟨0x0A03, 3, false, [(16, 1), (18, 2)]⟩]

/-- The opcode of a number. -/
def opInfo (op : Nat) : Option OpInfo := (opTable1 ++ opTable2).find? (fun o => o.op == op)

/-- LEN of the packet inside a RELAY. -/
def innerLen (p : List Byte) : Nat := fieldB p 40 2

/-- R566: the LEN that a packet of an opcode must have; RT_WRITE and RELAY give it by a field. -/
def OpInfo.lenOf (o : OpInfo) (p : List Byte) : Nat :=
  if o.op = 0x0702 then (40 + 4 * fieldB p 18 2 + 15) / 16
  else if o.op = 0x0704 then 3 + innerLen p
  else o.len

/-- The parameter bytes that a packet's opcode uses. -/
def usedBytes (p : List Byte) : List (Nat × Nat) :=
  match opInfo (pktOp p) with
  | none => []
  | some o =>
    if o.op = 0x0702 then o.used ++ [(32, 4 * fieldB p 18 2)]
    else if o.op = 0x0704 then o.used ++ [(32, 16 * innerLen p)]
    else o.used

/-- R14, R548: the first parameter byte that is not used and not zero. -/
def reservedByte (p : List Byte) : Option Nat :=
  let used := usedBytes p
  let quota := pktOp p == 0x0102 || pktOp p == 0x0104
  ((upFrom 16 (pktLen p * 16 - 24)).find? (fun o =>
    fieldB p o 1 != 0 && !(used.any (fun u => decide (u.1 ≤ o) && decide (o < u.1 + u.2))))).map (fun o =>
      if quota && decide (54 ≤ o) then 54 else if pktOp p == 0x0401 && decide (61 ≤ o) && decide (o < 64) then 61 else o)

/-- R551: the least offset among the fields that break the protocol. -/
def leastOff (xs : List (Bool × Nat)) (r : Option Nat) : Option Nat :=
  ((xs.filter (·.1)).map (·.2)).foldl (fun m o => match m with | none => some o | some n => some (min n o)) r

/-- The meaning of an opcode row. A count or length of zero, which zero names, completes with OK and no effect (R552); the opcode's
own checks of fields follow (R550 order 7, R551), which bad lists with their offsets. none_ is the answer to a count of zero. -/
def opcodeRow (x : Ctx) (op : Nat) (s : State) (zero : Cmd → Bool) (bad : Cmd → List (Bool × Nat)) (f : Cmd → State → State)
    (none_ : Cmd → State → State := fun k s => s.reply x.val k OK) : Res :=
  command x op s (fun k s =>
    match leastOff (if zero k then [] else bad k) (reservedByte k.pkt) with
    | some o => s.replyMal x.val k o
    | none => if zero k then none_ k s else f k s)

/-- For an opcode without a count. -/
def noCount (_ : Cmd) : Bool := false
/-- For an opcode without checks of fields. -/
def noFields (_ : Cmd) : List (Bool × Nat) := []

/-- R547: the records of the largest reply of an opcode (R557, R603). -/
def replyRoom (op : Nat) : Nat :=
  if op = 0x0704 then 4
  else if longOp op || [0x0301, 0x0501, 0x0503, 0x0903, 0x0904, 0x0A02].contains op then 3
  else if op = 0x0505 then 3
  else 1

/-! ### The checks of a packet (R550) -/

/-- R569: the opcodes accepted at stage 1. -/
def stage1Op (op : Nat) : Bool := [0x0801, 0x0901, 0x0902, 0x0A01, 0x0A03].contains op

/-- R725: the opcodes that a device with a FATAL error still answers. -/
def fatalOp (op : Nat) : Bool := [0x0801, 0x0802, 0x0A03, 0x0A01, 0x0901, 0x0902].contains op

/-- R33, R569: the opcodes that need the ring. -/
def ringOp (p : List Byte) : Bool :=
  [0x0404, 0x0704, 0x0804].contains (pktOp p) || (pktOp p == 0x0608 && bit (fieldB p 26 1) 0)

/-- The diagnostics, security and life-cycle families. -/
def openFamily (op : Nat) : Bool := [8, 9, 10].contains (op / 256)

/-- R550, order 4: whether role, life-cycle state or context forbid an opcode (R30, R34, R414, R529, R566, R575, R581, R587, R589,
R656). -/
def State.forbids (s : State) (x : Nat) (p : List Byte) (admin relayed : Bool) : Bool :=
  let op := pktOp p
  let role := s.role
  (x != 0 && (admin || (op == 0x0A03 && (fieldB p 16 1 == 1 || fieldB p 16 1 == 3))))
    || (role == 0 && (op / 256 == 7 || op == 0x0804))
    || (role == 2 && !relayed && !(openFamily op))
    || ((op == 0x0404 || op == 0x0704) && (role == 0 || role == 2))
    || (op == 0x0704 && x != 0 && (s.sliceOf x).isNone)
    || ((op == 0x0205 || op == 0x0206) && role == 2)
    || (s.lcState == 3 && x != 0 && !(openFamily op))
    || (s.lcState == 4 && !([0x0801, 0x0901, 0x0902, 0x0A01].contains op))

/-- R550, orders 1 to 6: the status and offset with which a packet of context x fails; none if it passes. -/
def State.pktCheck (s : State) (x : Nat) (p : List Byte) (relayed : Bool) : Option (Nat × Nat) :=
  if fieldB p 2 1 / 8 ≠ 0 then some (MALFORMED, 2)
  else if fieldB p 3 1 ≠ x then some (MALFORMED, 3)
  else if fieldB p 10 2 ≠ 0 then some (MALFORMED, 10)
  else
    match opInfo (pktOp p) with
    | none => some (MALFORMED, 0)
    | some o =>
      let op := pktOp p
      if op = 0x0702 ∧ 1014 < fieldB p 18 2 then some (MALFORMED, 18)
      else if op = 0x0704 ∧ (innerLen p < 3 ∨ 253 < innerLen p) then some (MALFORMED, 40)
      else if pktLen p ≠ o.lenOf p then some (MALFORMED, 8)
      else if s.err.dead ∧ ¬ fatalOp op then some (FAULT, 0)
      else if s.forbids x p o.admin relayed then some (DENIED, 0)
      else if s.stage < (if stage1Op op then 1 else if ringOp p ∧ s.role ≠ 0 then 3 else 2) then some (NOT_READY, 0)
      else if (s.cx x).state = 0 ∧ op ≠ 0x0101 ∧ ¬ stage1Op op then some (DENIED, 0)
      else none

/-- A packet is taken: it becomes a command in flight, or is answered at once. -/
def State.takePkt (s : State) (x seq : Nat) (p : List Byte) (origin : Option (Nat × Nat)) : State :=
  let k : Cmd := { seq := seq, pkt := p, room := replyRoom (pktOp p), origin := origin }
  let s := s.dinc (cxReg MG_CX_CNT_TAKEN x) 1
  match s.pktCheck x p origin.isSome with
  | some (st, off) => s.answer x k st (if st = MALFORMED then leBytes 2 off else []) []
  | none => s.modCx x (fun y => { y with cmds := y.cmds ++ [k] })

/-! ### The intake (R542 to R549) -/

/-- What the intake of a context finds at its place in the window. -/
inductive Found
  | nothing
  | wedge
  | sealed (pkt : List Byte)
  deriving DecidableEq, Repr

/-- n bytes of the command window of context x, as its intake sees them (R610). -/
def State.window (s : State) (x off n : Nat) : List Byte := amGetMany 0 (s.cx x).intake off n

/-- R704: whether every house core is stopped for want of lock. -/
def State.noHouse (s : State) : Bool := (upFrom 50 4).all s.domStopped

/-- R544: the next packet of context x. -/
def State.findPkt (s : State) (x : Nat) : Found :=
  let w := s.dr (cxReg MG_CX_INTAKE x)
  let off := bits w 19 0
  let next := bits w 51 20
  if bit (s.dr (cxReg MG_CX_CTRL x)) 0 = false ∨ bit w 52 ∨ s.stage = 0 ∨ s.noHouse then .nothing
  else
    let h := s.window x off 32
    let len := pktLen h
    if fieldB h 4 4 ≠ next then .nothing
    else if len < 3 ∨ 256 < len ∨ 0x100000 < off + len * 16 then .wedge
    else
      let p := s.window x off (len * 16)
      if fieldB p (len * 16 - 8) 4 = next then .sealed p else .nothing

/-- R543: whether the seal's CRC matches. -/
def sealOk (p : List Byte) : Bool := (crc32c (p.take (p.length - 8))).toNat == fieldB p (p.length - 4) 4

/-- R544: the intake goes past a packet of a LEN. -/
def State.pastPkt (s : State) (x len : Nat) : State :=
  let r := cxReg MG_CX_INTAKE x
  let w := s.dr r
  let off := bits w 19 0 + len * 16
  let next := bits w 51 20
  let s := s.dw r (setBits (setBits w 19 0 (if 0xFF000 < off then 0 else off)) 51 20 (if next = 0xFFFFFFFF then 1 else next + 1))
  s.modCx x (fun k => { k with sealAt := none })

/-- R547: whether the reply ring has room for n more records beyond those held back. -/
def State.replySpace (s : State) (x n : Nat) : Bool :=
  let h := s.dr (cxReg MG_CX_RRHEAD x)
  let used := (bits h 63 32 + 2 ^ 32 - bits h 31 0) % 2 ^ 32
  decide (used + s.heldRoom x + n ≤ 2 ^ bits (s.dr (cxReg MG_CX_RRING x)) 4 0)

/-- R544 to R547, R550: the intake of context x takes the next packet of its window. -/
def execPacketIntake (x : Ctx) (s : State) : Res :=
  let next := bits (s.dr (cxReg MG_CX_INTAKE x.val)) 51 20
  match s.findPkt x.val with
  | .nothing => waits s
  | .wedge =>
    if s.replySpace x.val 1 then
      let k : Cmd := { seq := next, pkt := s.window x.val (bits (s.dr (cxReg MG_CX_INTAKE x.val)) 19 0) 32, room := 1 }
      .next ((s.answer x.val k MALFORMED (leBytes 2 8) []).dwf (cxReg MG_CX_INTAKE x.val) 52 52 1)
    else waits s
  | .sealed p =>
    if sealOk p then
      if s.unreplied x.val < 256 ∧ s.replySpace x.val (replyRoom (pktOp p)) then
        .next ((s.takePkt x.val next p none).pastPkt x.val (pktLen p))
      else waits s
    else if (s.cx x.val).sealAt.isSome then waits s
    else .next (s.modCx x.val (fun k => { k with sealAt := some s.timebase }))

/-- R544: 100 µs after its seal was seen a packet's CRC still fails: it is answered and skipped. -/
def execIntakeSealTimeout (x : Ctx) (s : State) : Res :=
  match (s.cx x.val).sealAt, s.findPkt x.val with
  | some t, .sealed p =>
    if sealOk p || !(decide (t + 100000 ≤ s.timebase)) || !(s.replySpace x.val 1) then waits s
    else
      let k : Cmd := { seq := bits (s.dr (cxReg MG_CX_INTAKE x.val)) 51 20, pkt := p, room := 1 }
      .next ((s.answer x.val k MALFORMED (leBytes 2 (p.length - 4)) []).pastPkt x.val (pktLen p))
  | _, _ => waits s

/-- R560: the COAL interval of a vector passes; messages withheld in it are sent as one. -/
def execMsixCoalesceExpiry (x : Ctx) (vec : Fin 64) (s : State) : Res :=
  match (s.cx x.val).coal.find? (fun e => e.1 == vec.val) with
  | none => waits s
  | some e =>
    if s.timebase < e.2.1 then waits s
    else
      let s := s.modCx x.val (fun k => { k with coal := k.coal.filter (fun y => y.1 != vec.val) })
      .next (if e.2.2 then s.msix x.val vec.val else s)

/-! ### Management messages (R436, R587) -/

/-- R587: the worker takes a relayed packet. -/
def State.takeRelay (s : State) (mgr : Nat) (msg : List Byte) : State :=
  let slice := fieldB msg 1 1
  let id := fieldB msg 4 4
  let inner := msg.drop 8
  let p := inner.take (pktLen inner * 16)
  match (if slice = 0 then some 0 else s.ctxOfSlice slice) with
  | none => s
  | some x =>
    let seq := fieldB p 4 4
    let k : Cmd := { seq := seq, pkt := inner, room := 0, origin := some (mgr, id) }
    if fieldB p 3 1 ≠ x then s.answer x k MALFORMED (leBytes 2 3) []
    else if seq ≠ (s.cx x).relaySeq then s.answer x k MALFORMED (leBytes 2 4) []
    else
      let s := s.modCx x (fun y => { y with relaySeq := if seq = 0xFFFFFFFF then 1 else seq + 1 })
      s.takePkt x seq inner (some (mgr, id))

/-- R587: the manager takes a worker's reply to a relayed packet. -/
def State.takeAnswer (s : State) (chip : Nat) (msg : List Byte) : State :=
  let id := fieldB msg 4 4
  match s.rv.relayed.find? (fun r => r.id == id && r.chip == chip) with
  | none => s
  | some r =>
    let s : State := { s with rv := { s.rv with relayed := s.rv.relayed.filter (fun y => y.id != id) } }
    match (s.cmds r.ctx).find? (fun k => k.seq == r.seq && k.op == 0x0704) with
    | none => s
    | some k =>
      let r0 := sliceB msg 8 32
      let n := min (fieldB msg 1 3) 3
      let s := s.dropCmd r.ctx k
      if k.flag 1 && fieldB r0 2 2 == OK then s
      else s.writeReply r.ctx (fieldB r0 0 2) (fieldB r0 2 2) k.seq (k.f 12 4) chip (k.flag 2) (sliceB r0 16 16)
        ((List.range n).map (fun i => sliceB msg (40 + 32 * i) 32))

/-- R436: a whole management message from a chip: the device's own messages act at once; those that a command of
their own brings wait for it (assumption 28). -/
def State.mgmtMsg (s : State) (chip : Nat) (msg : List Byte) : State :=
  let t := fieldB msg 0 1
  if t = tagRelay then s.takeRelay chip msg
  else if t = tagAnswer then s.takeAnswer chip msg
  else if t = tagSession then s.sessionIn chip msg
  else if t = tagAsk then s.usAnswer chip (fieldB msg 1 1) (fieldB msg 4 4)
  else { s with rv := { s.rv with fwbox := s.rv.fwbox ++ [(chip, msg)] } }

/-- R436, R453: a MGMT frame; a message ends with XEND. -/
def execMgmtReceive (p : Port) (s : State) : Res :=
  routedIn p 3 s (fun f s =>
    let had := ((s.rv.inbox.find? (fun e => e.1 == f.src)).map (·.2)).getD []
    let rest := s.rv.inbox.filter (fun e => e.1 != f.src)
    if f.xend then ({ s with rv := { s.rv with inbox := rest } } : State).mgmtMsg f.src (had ++ f.data)
    else { s with rv := { s.rv with inbox := rest ++ [(f.src, had ++ f.data)] } })

/-- R587: no reply to a relayed packet within RELAYTMO. -/
def execRelayTimeout (id : Nat) (s : State) : Res :=
  match s.rv.relayed.find? (fun r => r.id == id && decide (r.until_ ≤ s.timebase)) with
  | none => waits s
  | some r =>
    let s : State := { s with rv := { s.rv with relayed := s.rv.relayed.filter (fun y => y.id != id) } }
    match (s.cmds r.ctx).find? (fun k => k.seq == r.seq && k.op == 0x0704) with
    | none => .next s
    | some k => .next (s.reply r.ctx k TIMEOUT)

end Sys2Proof.Machine
end

