-- ==== Sys2Proof/Machine/SaveImage.lean ====
section
/-! DEFINITION. Sys2Proof/Machine/SaveImage.lean: the save image of a cluster's tile and accumulator state (R168 to R170):
its bytes by offset, where an unlisted byte is zero, its size, and what a restore rebuilds from it. -/

namespace Sys2Proof.Machine

/-! ### Writing the image (R168) -/

/-- The bytes of a value that are not zero, at consecutive offsets. -/
def imgPut (off : Nat) (bs : List Byte) : List (Nat × Byte) := amSetMany 0 [] off bs

/-- A store's bytes at an offset of the image. -/
def imgShift (off : Nat) (m : List (Nat × Byte)) : List (Nat × Byte) := m.map (fun p => (off + p.1, p.2))

/-- R168: whether a register is saved: it is not UNSET, or it is the odd member of a pair, an entry of its own. -/
def Tile.saved (x : Tile) : Bool := x.shape != 0 || x.member

/-- R168: the accumulator rows with a HELD block. -/
def MxArray.savedRows (a : MxArray) : List Nat :=
  (List.range 128).filter (fun r => a.blocks.any (fun p => p.1 / 32 == r && bit p.2 16))

/-- A number whose bits at the given places are set. -/
def bitMask (ns : List Nat) : Nat := ns.foldl (fun m r => if bit m r then m else m + 2 ^ r) 0

/-- R168: the two bytes of a stationary store in the header. -/
def Store.imgCode (x : Store) : Nat :=
  if x.held then x.fmt.code + place 5 4 x.pack + place 6 6 (b2n x.rep) + 2 ^ 7 + place 8 8 (b2n x.flagged) else 0

/-- R168: the header. -/
def Cluster.imgHeader (k : Cluster) : List Byte :=
  let act := k.arr.store k.arr.active
  let sh := k.arr.store (1 - k.arr.active)
  leBytes 2 1 ++ leBytes 2 k.arr.gauge.code
    ++ leBytes 1 (bitMask ((List.range 8).filter (fun t => (k.tile t).saved)))
    ++ leBytes 1 (b2n act.held + 2 * b2n sh.held) ++ leBytes 2 0
    ++ leBytes 2 act.imgCode ++ leBytes 2 sh.imgCode ++ leBytes 16 (bitMask k.arr.savedRows)

/-- R168: the metadata of register t: CL_TILE_CFG, eight zero bytes, and one valid bit per row. -/
def Cluster.imgMeta (k : Cluster) (t : Nat) : List Byte :=
  leBytes 16 (k.tileCfg t) ++ leBytes 128 (bitMask (k.tile t).valid)

/-- R168: the saved bytes of register t. -/
def Cluster.imgTile (k : Cluster) (t : Nat) : List (Nat × Byte) :=
  let x := k.tile t
  let at_ := 1216 + 34816 * t
  if x.saved then
    imgShift at_ x.data ++ (if x.shape != 0 && x.fmt.mx then imgShift (at_ + 32768) x.scale else [])
  else []

/-- R168: the saved bytes of a stationary store. -/
def Store.img (x : Store) (at_ : Nat) : List (Nat × Byte) :=
  if x.held then imgShift at_ x.data ++ (if x.fmt.mx then imgShift (at_ + 65536) x.scale else []) else []

/-- R168: the flag and value planes of the rows with a HELD block. -/
def MxArray.imgPlanes (a : MxArray) : List (Nat × Byte) :=
  let rows := a.savedRows
  let es := a.acc.filter (fun p => rows.contains (p.1 / 1024) && (a.blockRec (p.1 / 1024) (p.1 % 1024 / 32)).isSome)
  es.flatMap (fun p => imgPut (431296 + p.1) (leBytes 1 (b2n p.2.nan + 2 * b2n p.2.range + 4 * b2n p.2.sat)))
    ++ es.flatMap (fun p => imgPut (562368 + 12 * p.1) (leBytes 12 (wrapInt 96 p.2.a)))

/-- R168: the save image of a cluster. -/
def Cluster.image (k : Cluster) : List (Nat × Byte) :=
  imgPut 0 k.imgHeader
    ++ (List.range 8).flatMap (fun t => imgPut (64 + 144 * t) (k.imgMeta t))
    ++ (List.range 8).flatMap k.imgTile
    ++ (k.arr.store k.arr.active).img 279744 ++ (k.arr.store (1 - k.arr.active)).img 347328
    ++ k.arr.blocks.flatMap (fun p => imgPut (414912 + 4 * p.1) (leBytes 4 p.2))
    ++ k.arr.imgPlanes

/-- R90: the bytes of a stationary tile, with those of its scale plane. -/
def Store.size (x : Store) : Nat :=
  if x.held then loadKib x.fmt * 1024 + (if x.fmt.mx then 1024 * (if x.fmt.cls = .c46 then 2 else 1) else 0) else 0

/-- R168, R170: how many bytes the save of a cluster writes. -/
def Cluster.imageBytes (k : Cluster) : Nat :=
  let tile := fun (t : Nat) =>
    let x := k.tile t
    if x.saved then 32768 + (if x.shape != 0 && x.fmt.mx then 2048 else 0) else 0
  17600 + ((List.range 8).map tile).foldl (· + ·) 0 + k.arr.st0.size + k.arr.st1.size + 13312 * k.arr.savedRows.length

/-! ### Restoring it (R169) -/

/-- The bytes of [off, off + n) of an image, numbered from 0. -/
def imgCut (m : List (Nat × Byte)) (off n : Nat) : List (Nat × Byte) :=
  (m.filter (fun p => decide (off ≤ p.1) && decide (p.1 < off + n))).map (fun p => (p.1 - off, p.2))

/-- A field of an image. -/
def imgField (m : List (Nat × Byte)) (off n : Nat) : Nat := leNat (amGetMany 0 m off n)

/-- R169: register t as the image records it. The marks of rows that are written in part, and of poisoned words, are not
part of the image and stay with the register (assumption 95). -/
def imgToTile (m : List (Nat × Byte)) (t : Nat) (old : Tile) : Tile :=
  let cfg := imgField m (64 + 144 * t) 8
  let at_ := 1216 + 34816 * t
  if bit (imgField m 4 1) t = false then {}
  else if bit cfg 8 then { member := true, data := imgCut m at_ 32768, badData := old.badData }
  else
    let v := imgField m (80 + 144 * t) 128
    { old with shape := bits cfg 2 0, fmt := (Fmt.ofCode (bits cfg 6 3)).getD .int8, pair := bit cfg 7, member := false,
               rows := bits cfg 19 9, valid := (List.range 1024).filter (bit v), poison := bit cfg 33,
               data := imgCut m at_ 32768, scale := imgCut m (at_ + 32768) 2048 }

/-- R169: a stationary store as the image records it, its packing, replicate mode and tile flag with it. -/
def imgToStore (m : List (Nat × Byte)) (hdr at_ : Nat) (old : Store) : Store :=
  let h := imgField m hdr 2
  if bit h 7 then
    { held := true, fmt := (Fmt.ofCode (bits h 3 0)).getD .int8, pack := bits h 5 4, rep := bit h 6, flagged := bit h 8,
      tk := old.tk, data := imgCut m at_ 65536, scale := imgCut m (at_ + 65536) 2048 }
  else {}

/-- R169: the accumulator as the image records it: rows it does not record are CLEARED. -/
def imgToAcc (m : List (Nat × Byte)) (a : MxArray) : MxArray :=
  let rows := (List.range 128).filter (bit (imgField m 12 16))
  let held := (rows.flatMap (fun r => (List.range 32).map (fun b => 32 * r + b))).filterMap (fun i =>
    let w := imgField m (414912 + 4 * i) 4
    if bit w 16 then some (i, w) else none)
  let ent := fun (i : Nat) =>
    let fl := imgField m (431296 + i) 1
    { a := sgn 96 (imgField m (562368 + 12 * i) 12), nan := bit fl 0, range := bit fl 1, sat := bit fl 2 : AccEnt }
  { a with blocks := held
           acc := (held.flatMap (fun p => (List.range 32).map (fun j => (32 * p.1 + j, ent (32 * p.1 + j))))).filter
             (fun p => p.2 ≠ {}) }

/-- R169: every state that the image records is rebuilt from it. -/
def Cluster.fromImage (k : Cluster) (m : List (Nat × Byte)) : Cluster :=
  let k := (List.range 8).foldl (fun k t => k.setTile t (imgToTile m t (k.tile t))) k
  let act := imgToStore m 8 279744 (k.arr.store k.arr.active)
  let sh := imgToStore m 10 347328 (k.arr.store (1 - k.arr.active))
  let a := (k.arr.setStore k.arr.active act).setStore (1 - k.arr.active) sh
  { k with arr := { imgToAcc m a with gauge := Gauge.ofCode (imgField m 2 2) } }

end Sys2Proof.Machine
end

