-- ==== Sys2Proof/Machine/ContextCmds.lean ====
section
/-! DEFINITION. Sys2Proof/Machine/ContextCmds.lean: the opcodes of family 0x01: contexts, quotas, pre-emption and the power cap
(R566 to R572), with the save and restore of clusters (R168, R169, R278, R337, R384, R400, R744). -/

namespace Sys2Proof.Machine

/-! ### Quotas (R567, R568, R570) -/

/-- R567: the quota block of a packet. -/
def Cmd.quota (k : Cmd) : Quota :=
  { clmask := k.f 32 8, frames := k.f 40 4, fly := k.f 44 4, spret := k.f 48 4, vctrs := k.f 52 2 }

/-- R567: the fields of a quota block that break their ranges. -/
def badQuota (k : Cmd) : List (Bool × Nat) := [(decide (2 ^ 40 ≤ k.f 32 8), 32), (decide (4096 < k.f 52 2), 52)]

/-- R568: whether context x may have a quota beside those of the others. -/
def State.quotaFits (s : State) (x : Nat) (q : Quota) : Bool :=
  let others := (List.range 16).filter (· != x)
  let sum := fun (f : Quota → Nat) => (others.map (fun y => f (s.cx y).quota)).foldl (· + ·) (f q)
  (List.range 40).all (fun c => !(bit q.clmask c) || others.all (fun y => !(bit (s.cx y).quota.clmask c)))
    && decide (sum (·.frames) ≤ 293888) && decide (sum (·.fly) ≤ 952650)

/-- The context whose CLMASK has cluster c; 16 if none. -/
def State.maskOwner (s : State) (c : Nat) : Nat :=
  ((List.range 16).find? (fun y => bit (s.cx y).quota.clmask c)).getD 16

/-- R167: whether a cluster may pass to another context. -/
def Cluster.free (k : Cluster) : Bool := k.launch.isNone && k.coreStopped && !k.wiping && k.drained

/-- R570: every free cluster passes to the context whose CLMASK has it; those of a pre-empted context stay out. -/
def State.assign (s : State) : State :=
  allCl.foldl (fun s c =>
    let o := s.maskOwner c.val
    if (s.cl c).owner ≠ o ∧ (s.cl c).free ∧ (s.cx o).state ≠ 2 then s.passCluster c o else s) s

/-- R570: after a change of quota or use: the mark is set with an event, or cleared with one. -/
def State.settleQuota (s : State) (x : Nat) : State :=
  let overQ := !(s.withinQuota x)
  if overQ = (s.cx x).overQ then s
  else (s.modCx x (fun k => { k with overQ := overQ })).quotaEvent x false

/-- R566: CTX_QUERY. -/
def execCtxQuery (x : Ctx) (s : State) : Res :=
  opcodeRow x 0x0101 s noCount (fun k => [(decide (15 < k.f 16 1), 16)]) (fun k s =>
    let t := k.f 16 1
    if x.val ≠ 0 ∧ t ≠ x.val then s.reply x.val k DENIED
    else
      s.reply x.val k OK (leBytes 1 (s.cx t).state ++ leBytes 1 (b2n (s.cx t).overQ) ++ leBytes 2 0 ++ leBytes 4 (s.framesOf t)
        ++ leBytes 4 (s.flyOf t) ++ leBytes 4 (s.spUsed t)))

/-- R568: CTX_ENABLE. -/
def execCtxEnable (x : Ctx) (s : State) : Res :=
  opcodeRow x 0x0102 s noCount (fun k => (k.f 16 1 == 0 || decide (15 < k.f 16 1), 16) :: badQuota k) (fun k s =>
    let t := k.f 16 1
    if (s.cx t).state ≠ 0 then s.reply x.val k DENIED
    else if s.quotaFits t k.quota = false then s.reply x.val k QUOTA
    else ((s.modCx t (fun y => { y with state := 1, overQ := false, quota := k.quota })).assign).reply x.val k OK)

/-- R568, R570: QUOTA_SET. -/
def execQuotaSet (x : Ctx) (s : State) : Res :=
  opcodeRow x 0x0104 s noCount (fun k => (decide (15 < k.f 16 1), 16) :: badQuota k) (fun k s =>
    let t := k.f 16 1
    if s.quotaFits t k.quota = false then s.reply x.val k QUOTA
    else
      let s := ((s.modCx t (fun y => { y with quota := k.quota })).assign).settleQuota t
      s.reply x.val k OK (leBytes 1 (b2n (s.cx t).overQ)))

/-! ### Disabling (R571) -/

/-- The watches and cues of a pre-empted context, which wait for its return (R384): their clusters are numbered apart. -/
def heldCl (x c : Nat) : Nat := 64 * (x + 1) + c

/-- The destination of a held watch or cue. -/
def CueDest.hold (d : CueDest) (x : Nat) (cs : List Nat) : CueDest :=
  match d with
  | .slot c n => if cs.contains c then .slot (heldCl x c) n else d
  | .wait c => if cs.contains c then .wait (heldCl x c) else d
  | .host _ _ => d

/-- The destination of a watch or cue that was held. -/
def CueDest.unhold (d : CueDest) (x : Nat) : CueDest :=
  match d with
  | .slot c n => if c / 64 = x + 1 then .slot (c % 64) n else d
  | .wait c => if c / 64 = x + 1 then .wait (c % 64) else d
  | .host _ _ => d

/-- Change the destinations of every watch and cue. -/
def State.mapDests (s : State) (f : CueDest → CueDest) : State :=
  { s with sy := { s.sy with watches := s.sy.watches.map (fun w => { w with dest := f w.dest })
                             cues := s.sy.cues.map (fun q => { q with dest := f q.dest }) } }

/-- R571: every slice bound to context x is unbound. -/
def State.unbind (s : State) (x : Nat) : State :=
  (upFrom 1 255).foldl (fun s i => if s.ctxOfSlice i = some x then s.dw (LK_SLICE_BIND + 8 * i) 0 else s) s

/-- R571: context t is taken apart: commands, clusters, counters, memory, slice, quota. -/
def State.disable (s : State) (t : Nat) : State :=
  let s := (s.cmds t).foldl (fun s k => s.abandonCmd t k) (s.usCtxLost t)
  let s : State := { s with rv := { s.rv with relayed := s.rv.relayed.filter (fun r => r.ctx != t) } }
  let s := (s.clustersOf t).foldl (fun s c => (s.passCluster c 16).replyResets 2 c.val) s
  let s := s.wipeSync t
  let fs := s.allFrames t
  let s := s.wipeMemory t false
  let s := fs.foldl (fun s f => s.zeroFrame f) s
  (s.unbind t).modCx t (fun y => { y with state := 0, overQ := false, quota := {}, wins := [], progs := [], bar4 := [], saved := [],
                                          images := [] })

/-- R571: CTX_DISABLE. -/
def execCtxDisable (x : Ctx) (s : State) : Res :=
  opcodeRow x 0x0103 s noCount (fun k => [(k.f 16 1 == 0 || decide (15 < k.f 16 1), 16)]) (fun k s =>
    ((s.disable (k.f 16 1)).assign).reply x.val k OK)

/-! ### Pre-emption (R168, R169, R278, R337, R384, R398, R400, R538, R572, R744) -/

/-- What a cluster does while its context is being saved: its core stands and its queued instructions wait. -/
def Cluster.hold (k : Cluster) : Cluster := { k.clearQueues with core := { k.core with mode := .stopped } }

/-- R167: whether every accepted operation of a cluster has ended; under pre-emption none is abandoned. -/
def Cluster.ended_ (k : Cluster) : Bool :=
  !k.wiping && k.arr.runs.isEmpty && k.arr.loads.isEmpty && k.arr.pushes.isEmpty && k.vx.chains.isEmpty && k.lds.isEmpty
    && k.st.xfers.isEmpty && k.op.isNone && k.misses.isEmpty

/-- R168, R169, R278: what the save of a cluster keeps: of the scratchpad the retained buffers, of the array not the run
numbers, the peak and CKINFO. before is the cluster as pre-emption found it. -/
def Cluster.save (k before : Cluster) : Cluster :=
  let bufs := k.retained
  let in_ := fun (w : Nat) => bufs.any (fun b => decide (b.1 ≤ w * 8) && decide (w * 8 < b.1 + b.2.length))
  let qs := (k.uq.zip before.uq).map (fun p => { p.1 with q := p.2.q })
  { k with
    core := { k.core with mode := before.core.mode }
    uq := qs
    sp := bufs.foldl (fun m b => amSetMany 0 m b.1 b.2) []
    bad := k.bad.filter in_, fix := k.fix.filter in_
    arr := { k.arr with nextRun := 0, lastRun := 0, peak := {}, peakRun := 0 }
    regs := amDel k.regs CL_MX_CKINFO
    waitA := [], admA := [], rejs := [], cc := [], seqs := [] }

/-- R384, R398, R538: what others hold of a context that is pre-empted is told. -/
def State.tellPreempted (s : State) (t : Nat) : State :=
  let ps := s.ctrsOf t
  let s := s.abandonWatches (fun w => ps.contains w.ctr && (w.ctx != t || (match w.dest with | .host _ _ => true | _ => false)))
  let s := (s.curtainsOf t).foldl (fun s k => if s.owesRelease k then s.abandonCurtain k else s) s
  s.usCtxLost t

/-- R572: CTX_PREEMPT: the target's commands are suspended and its cores stand until everything accepted has ended. -/
def execCtxPreempt (x : Ctx) (s : State) : Res :=
  opcodeRow x 0x0105 s noCount (fun k => [(k.f 16 1 == 0 || decide (15 < k.f 16 1), 16)]) (fun k s =>
    let t := k.f 16 1
    if (s.cx t).state ≠ 1 then s.reply x.val k DENIED
    else
      let s := s.tellPreempted t
      let cs := s.clustersOf t
      let s := s.modCx t (fun y => { y with state := 2, saved := cs.map (fun c => (c.val, s.cl c)) })
      cs.foldl (fun s c => s.mod c Cluster.hold) s)

/-- The CTX_PREEMPT in flight of a target. -/
def State.preempting (s : State) (t : Nat) : Option Cmd :=
  (s.cmds 0).find? (fun k => k.started && k.op == 0x0105 && k.f 16 1 == t)

/-- R277, R278: a saved cluster is out of its context: wiped, its windows closed. -/
def State.out (s : State) (c : Cl) : State :=
  let s := ((s.ccFlush c).dropInject c).clearDebug c
  s.mod c (fun k => k.passed 16 s.timebase)

/-- R168, R278, R572: how many bytes a save writes: the images and the retained buffers of the clusters. The prop table, the
windows and the state blocks add a free number below 2^24 (assumption 41). -/
def State.savedBytes (s : State) (t : Nat) : Nat × State :=
  let n := s.free
  (((s.cx t).saved.map (fun p => p.2.imageBytes + p.2.retainedUnits * 64)).foldl (· + ·) 0 + n.1.toNat % 2 ^ 24, n.2)

/-- R167, R168, R572: context x is saved, the image of each cluster with it. -/
def execCtxPreemptComplete (x : Ctx) (s : State) : Res :=
  let t := x.val
  let cs := s.clustersOf t
  let local_ := s.sy.changes.any (fun ch => match ch.ctr with
    | .loc c _ => cs.any (fun d => d.val == c) | .dev _ => false)
  match s.preempting t with
  | none => waits s
  | some k =>
    if local_ || !(cs.all (fun c => (s.cl c).ended_)) then waits s
    else
      let s := cs.foldl (fun s c => s.ccFlush c) s
      let before := fun (c : Nat) => (((s.cx t).saved.find? (fun p => p.1 == c)).map (·.2)).getD {}
      let s := s.modCx t (fun y => { y with saved := cs.map (fun c => (c.val, (s.cl c).save (before c.val))),
                                            images := cs.map (fun c => (c.val, (s.cl c).image)) })
      let n := s.savedBytes t
      let s := n.2
      let s := s.mapDests (fun d => d.hold t (cs.map (·.val)))
      let s := cs.foldl (fun s c => s.out c) s
      .next (s.reply 0 k OK (leBytes 4 n.1))

/-- R169, R337, R400: a saved cluster returns, its tile and accumulator state rebuilt from its image. Arrivals that were on
their way keep theirs. -/
def State.restore (s : State) (c : Cl) (k : Cluster) (m : List (Nat × Byte)) : State :=
  let s := s.beforeWipe c
  let k := k.fromImage m
  s.mod c (fun live => { k with waitA := live.admA.map (·.arr) ++ live.waitA, rejs := live.rejs, tk := max k.tk live.tk
                                hangAt := s.timebase })

/-- Whether the clusters of a pre-empted context can return. -/
def State.canRestore (s : State) (t : Nat) : Bool :=
  (s.preempting t).isNone && (s.cx t).saved.all (fun p =>
    !(bit (s.cx t).quota.clmask p.1) || (match toCl p.1 with | some c => (s.cl c).free | none => true))

/-- R572: CTX_RESUME: the clusters return, and the suspended commands go on. A cluster that the quota no longer has ends its
kernel with ABANDONED. -/
def State.resume (s : State) (t : Nat) : State :=
  let saved := (s.cx t).saved
  let images := (s.cx t).images
  let s := s.modCx t (fun y => { y with state := 1, saved := [], images := [] })
  let s := saved.foldl (fun s p =>
    match toCl p.1 with
    | none => s
    | some c =>
      if bit (s.cx t).quota.clmask p.1 then s.restore c p.2 (((images.find? (fun q => q.1 == p.1)).map (·.2)).getD [])
      else s.modCx t (fun y => { y with cmds := y.cmds.map (fun j =>
        if p.2.launch = some (t, j.seq) ∧ j.op = 0x0401 ∧ !(j.ends.any (fun d => d.clus == p.1)) then
          { j with ends := j.ends ++ [{ clus := p.1, exited := false, status := ABANDONED }] }
        else j) })) s
  s.mapDests (fun d => d.unhold t)

/-- R572: CTX_RESUME. It starts once a CTX_PREEMPT of the target has ended and its clusters are free. -/
def execCtxResume (x : Ctx) (s : State) : Res :=
  let ready := match s.nextCmd x.val with
    | some k => (s.cx (k.f 16 1)).state != 2 || s.canRestore (k.f 16 1)
    | none => true
  if ready = false then waits s
  else
    opcodeRow x 0x0106 s noCount (fun k => [(decide (15 < k.f 16 1), 16)]) (fun k s =>
      let t := k.f 16 1
      if (s.cx t).state ≠ 2 then s.reply x.val k DENIED else ((s.resume t).assign).reply x.val k OK)

/-! ### The power cap (R707) -/

/-- R707: POWER_CAP. -/
def execPowerCap (x : Ctx) (s : State) : Res :=
  opcodeRow x 0x0107 s noCount (fun k => [(decide (k.f 16 2 < 400) || decide (1200 < k.f 16 2), 16)]) (fun k s =>
    let old := bits (s.dr PW_CAP) 10 0
    (s.dw PW_CAP (k.f 16 2)).reply x.val k OK (leBytes 2 old))

end Sys2Proof.Machine
end

