-- ==== Sys2Proof/Machine/MemoryCmds.lean ====
section
/-! DEFINITION. Sys2Proof/Machine/MemoryCmds.lean: the opcodes of families 0x02 and 0x03: memory, host windows, BAR4 and programs
(R573 to R576). -/

namespace Sys2Proof.Machine

/-! ### What commands read and write -/

/-- A command row that waits while a condition on its command holds; one that breaks a field's range, or asks for nothing, is
answered at once. -/
def opcodeWhen (x : Ctx) (op : Nat) (s : State) (hold : Cmd → Bool) (zero : Cmd → Bool) (bad : Cmd → List (Bool × Nat))
    (f : Cmd → State → State) : Res :=
  match s.nextCmd x.val with
  | some k =>
    if k.op = op ∧ hold k ∧ zero k = false ∧ leastOff (bad k) (reservedByte k.pkt) = none then waits s
    else opcodeRow x op s zero bad f
  | none => waits s

/-- R566: whether a parameter is a CADDR of this chip. -/
def State.caddr (s : State) (a : Nat) : Bool := gKind a == 1 && gChip a == s.chip && bits a 47 42 == 0

/-- A CADDR that starts a page. -/
def State.pageAddr? (s : State) (a : Nat) : Bool := s.caddr a && a % 2097152 == 0

/-- R557, R603: a command stops with PARTIAL and a cause. -/
def State.replyPartial (s : State) (x : Nat) (k : Cmd) (cause : Nat) : State :=
  s.reply x k PARTIAL (leBytes 2 cause) (s.progress k none [])

/-- What a command finds at a source: the bytes and the places of poisoned ones; a page that is not resident; or nothing. -/
inductive Source
  | ok (bs : List Byte) (bad : List Nat)
  | page (p : Nat)
  | outside
  deriving DecidableEq, Repr

/-- Append what a further part of a source holds. -/
def Source.append (r : Source) (bs : List Byte) (bad : List Nat) : Source :=
  match r with | .ok c d => .ok (c ++ bs) (d ++ bad.map (· + c.length)) | _ => r

/-- R574: n bytes from a global address, for a command of context x. hostData is what host memory returns; bytes that
it does not return are lost (R603). -/
def State.srcRead (s : State) (x a n : Nat) (hostData : List Byte) : Source :=
  match gKind a with
  | 1 => (partsOf (gOff a) n).foldl (fun r p => match r, s.translate x p.1 with
      | .ok _ _, .at_ q _ => r.append (s.hbmRead q p.2) (badPlaces (s.hbmBad q p.2) q p.2)
      | .ok _ _, .absent q => .page q
      | .ok _ _, .outside => .outside
      | _, _ => r) (.ok [] [])
  | 2 =>
    let k := s.clN (bits a 24 19)
    let o := a % 524288
    .ok (k.spRead o n) (badPlaces (k.spBad o n) o n)
  | _ => .ok (sliceB hostData 0 n) ((upFrom 0 n).filter (fun j => decide (hostData.length ≤ j)))

/-- Whether a source or destination needs the host. -/
def needsHost (a : Nat) : Bool := gKind a == 3

/-- R574: whether a range of KIND 1, 2 or 3 lies in the context's address space, on this chip. -/
def State.cmdSpace (s : State) (x a n : Nat) : Bool :=
  (gKind a == 1 || gKind a == 2 || gKind a == 3) && gChip a == s.chip && s.inSpace x a n

/-- The first page of a range of HBM that is not resident. -/
def State.absentPage (s : State) (x a n : Nat) : Option Nat :=
  if gKind a = 1 then (partsOf (gOff a) n).findSome? (fun p => match s.translate x p.1 with | .absent q => some q | _ => none)
  else none

/-- R280, R282: a line of a command is an arrival of the cluster: admitted and written, or rejected. -/
def State.lineWrite (s : State) (c : Cl) (off : Nat) (bs : List Byte) : Bool × State :=
  let a : Arrival := { chip := s.chip, off := off, words := wordList bs, from_ := .host }
  match (s.cl c).admits s.chip off bs.length with
  | some i =>
    let w := s.cr c (CL_SP_WIN + 8 * i)
    let s := (s.cinc c CL_SP_CNT_ARRIVE 1).arrivalWrite c a
    (true, s.incLocal c (bits w 32 27) (if bit w 33 then a.words.length else 1) 2 .host)
  | none => (false, s.winReject c a)

/-- The parts of n bytes from a that lie in one 64-byte line each. -/
def lineParts : Nat → Nat → Nat → List (Nat × Nat)
  | 0, _, _ => []
  | f + 1, a, n => if n = 0 then [] else let k := min n (64 - a % 64); (a, k) :: lineParts f (a + k) (n - k)

/-- R574: bytes are written to a global address in order from its start: how many, and the status that stopped the writing. -/
def State.dstWrite (s : State) (x a : Nat) (bs : List Byte) : Nat × Nat × State :=
  match gKind a with
  | 1 => (partsOf (gOff a) bs.length).foldl (fun r p =>
      if r.2.1 ≠ OK then r
      else match r.2.2.translate x p.1 with
        | .at_ q false => (r.1 + p.2, OK, r.2.2.hbmWrite q ((bs.drop r.1).take p.2))
        | .at_ _ true => (r.1, DENIED, r.2.2)
        | _ => (r.1, FAULT, r.2.2)) (0, OK, s)
  | 2 =>
    match toCl (bits a 24 19) with
    | none => (0, FAULT, s)
    | some c => (lineParts (bs.length / 64 + 2) (a % 524288) bs.length).foldl (fun r p =>
        if r.2.1 ≠ OK then r
        else
          let w := r.2.2.lineWrite c p.1 ((bs.drop r.1).take p.2)
          if w.1 then (r.1 + p.2, OK, w.2) else (r.1, DENIED, w.2)) (0, OK, s)
  | _ => (bs.length, OK, s.hostWrite x (gOff a) bs)

/-! ### Mapping (R573) -/

/-- Whether a page holds a program of context x. -/
def State.progPage (s : State) (x p : Nat) : Bool :=
  (s.cx x).progs.any (fun g => let q := bits g.caddr 41 21; decide (q ≤ p) && decide (p < q + (g.len + 2097151) / 2097152))

/-- R552: whether n pages from a CADDR end within the context's addresses. -/
def pagesEnd (a n : Nat) : Bool := decide (bits a 41 21 + n ≤ 2097152)

/-- R573: MEM_MAP. A command that lacks only frames still being zeroed waits (R649). -/
def execMemMap (x : Ctx) (s : State) : Res :=
  opcodeWhen x 0x0201 s (fun k => pagesEnd (k.f 32 8) (k.f 40 4)
      && !((upFrom (bits (k.f 32 8) 41 21) (k.f 40 4)).any (fun q => bit (s.page x.val q) 0))
      && !(s.framesLeft x.val (k.f 40 4)) && s.zeroingOf x.val)
    (fun k => k.f 40 4 == 0) (fun k => [(!(s.pageAddr? (k.f 32 8)), 32)]) (fun k s =>
      let p := bits (k.f 32 8) 41 21
      let n := k.f 40 4
      if pagesEnd (k.f 32 8) n = false then s.reply x.val k EXTENT
      else if (upFrom p n).any (fun q => bit (s.page x.val q) 0) then s.reply x.val k EXTENT
      else if s.framesLeft x.val n = false then s.reply x.val k QUOTA
      else (s.mapPages x.val p n 0).reply x.val k OK)

/-- R573: MEM_UNMAP. -/
def execMemUnmap (x : Ctx) (s : State) : Res :=
  opcodeRow x 0x0202 s (fun k => k.f 40 4 == 0) (fun k => [(!(s.pageAddr? (k.f 32 8)), 32)]) (fun k s =>
    let p := bits (k.f 32 8) 41 21
    let n := k.f 40 4
    if pagesEnd (k.f 32 8) n = false then s.reply x.val k EXTENT
    else if (upFrom p n).any (fun q => bit (s.page x.val q) 4 || s.progPage x.val q) then s.reply x.val k DENIED
    else if (upFrom p n).any (fun q => !(bit (s.page x.val q) 0)) then s.reply x.val k EXTENT
    else ((s.unmapPages x.val p n false).settleQuota x.val).reply x.val k OK)

/-! ### Copy and fill (R574) -/

/-- The fields of a copy or fill that break their ranges. -/
def badMove (k : Cmd) : List (Bool × Nat) := [(decide (k.f 16 8 % 8 ≠ 0), 16)]

/-- R574: MEM_COPY starts. -/
def execMemCopy (x : Ctx) (s : State) : Res :=
  opcodeRow x 0x0203 s (fun k => k.f 16 8 == 0) badMove (fun k s =>
    if s.cmdSpace x.val (k.f 32 8) (k.f 16 8) && s.cmdSpace x.val (k.f 40 8) (k.f 16 8) then s
    else s.reply x.val k EXTENT)

/-- R574: MEM_FILL starts. -/
def execMemFill (x : Ctx) (s : State) : Res :=
  opcodeRow x 0x0204 s (fun k => k.f 16 8 == 0) badMove (fun k s =>
    if s.cmdSpace x.val (k.f 40 8) (k.f 16 8) then s else s.reply x.val k EXTENT)

/-- Where a copy or fill stops: at a place given, at a poisoned word, or at the end. -/
def stopPlace (n : Nat) (stoppedAt : Option Nat) (bad : List Nat) : Nat :=
  let a := match stoppedAt with | some p => min n (p / 8 * 8) | none => n
  bad.foldl (fun m j => min m (j / 8 * 8)) a

/-- R557, R561, R574: a copy or fill writes what it may and replies. -/
def State.endMove (s : State) (x : Nat) (k : Cmd) (bs : List Byte) (bad : List Nat) (stoppedAt : Option Nat) : State :=
  let n := bs.length
  let stop := stopPlace n stoppedAt bad
  let w := s.dstWrite x (k.f 40 8) (bs.take stop)
  let k' := { k with work := w.1 }
  if w.2.1 ≠ OK then w.2.2.replyPartial x k' w.2.1
  else if stop < n then w.2.2.replyPartial x k' FAULT
  else w.2.2.reply x k' OK (leBytes 8 n)

/-- R574: a copy ends. It waits for pages that are not resident, and for the host (R605). -/
def execMemCopyComplete (x : Ctx) (seq : BitVec 32) (hostData : List Byte) (stoppedAt : Option Nat) (s : State) : Res :=
  match s.findCmd x seq.toNat 0x0203 with
  | none => waits s
  | some k =>
    let n := k.f 16 8
    let host := needsHost (k.f 32 8) || needsHost (k.f 40 8)
    if host && !(s.mayMaster x.val) then waits s
    else if (s.cmdSpace x.val (k.f 32 8) n && s.cmdSpace x.val (k.f 40 8) n) = false then .next (s.replyPartial x.val k FAULT)
    else
      match s.absentPage x.val (k.f 32 8) n, s.absentPage x.val (k.f 40 8) n with
      | some p, _ => .next (s.wantPage x.val p)
      | none, some p => .next (s.wantPage x.val p)
      | none, none =>
        match s.srcRead x.val (k.f 32 8) n hostData with
        | .ok bs bad => .next (s.endMove x.val k bs bad stoppedAt)
        | _ => waits s

/-- R574: a fill ends. -/
def execMemFillComplete (x : Ctx) (seq : BitVec 32) (stoppedAt : Option Nat) (s : State) : Res :=
  match s.findCmd x seq.toNat 0x0204 with
  | none => waits s
  | some k =>
    let n := k.f 16 8
    if needsHost (k.f 40 8) && !(s.mayMaster x.val) then waits s
    else if s.cmdSpace x.val (k.f 40 8) n = false then .next (s.replyPartial x.val k FAULT)
    else
      match s.absentPage x.val (k.f 40 8) n with
      | some p => .next (s.wantPage x.val p)
      | none => .next (s.endMove x.val k ((List.replicate (n / 8) (leBytes 8 (k.f 24 8))).flatten) [] stoppedAt)

/-! ### Host windows (R575) -/

/-- R575: HOSTWIN_GRANT replaces a window. -/
def execHostwinGrant (x : Ctx) (s : State) : Res :=
  opcodeRow x 0x0205 s (fun k => k.f 40 8 == 0)
    (fun k => [(decide (7 < k.f 16 1), 16), (decide (k.f 32 8 % 4096 ≠ 0), 32), (decide (k.f 40 8 % 4096 ≠ 0), 40)]) (fun k s =>
      if 2 ^ 64 < k.f 32 8 + k.f 40 8 then s.reply x.val k EXTENT
      else (s.modCx x.val (fun y => { y with
        wins := amIns y.wins (k.f 16 1) (k.f 32 8, k.f 40 8) })).reply x.val k OK)

/-- R575: HOSTWIN_REVOKE closes a window; it completes when transfers through it have ended. -/
def execHostwinRevoke (x : Ctx) (s : State) : Res :=
  opcodeRow x 0x0206 s noCount (fun k => [(decide (7 < k.f 16 1), 16)]) (fun k s =>
    s.modCx x.val (fun y => { y with wins := amDel y.wins (k.f 16 1) }))

/-- Whether a transfer of context x still runs at a host address that no window holds. -/
def State.strayHost (s : State) (x : Nat) : Bool :=
  s.cls.toList.any (fun k => k.owner == x && k.st.xfers.any (fun y => gKind y.addr == 3 && !(s.inHostWin x (gOff y.addr) y.len)))
    || (s.cmds x).any (fun k => k.started && (k.op == 0x0203 || k.op == 0x0204)
        && ((k.op == 0x0203 && needsHost (k.f 32 8) && !(s.inHostWin x (gOff (k.f 32 8)) (k.f 16 8)))
          || (needsHost (k.f 40 8) && !(s.inHostWin x (gOff (k.f 40 8)) (k.f 16 8)))))

/-- R575: every transfer through a revoked window has ended. -/
def execHostwinRevokeComplete (x : Ctx) (seq : BitVec 32) (s : State) : Res :=
  match s.findCmd x seq.toNat 0x0206 with
  | none => waits s
  | some k => whenever s (!(s.strayHost x.val)) (s.reply x.val k OK)

/-- R598, R601: BAR4_MAP. -/
def execBar4Map (x : Ctx) (s : State) : Res :=
  opcodeRow x 0x0207 s (fun k => k.f 16 4 == 0)
    (fun k => [(decide (k.f 32 8 % 2097152 ≠ 0), 32), (!(s.pageAddr? (k.f 40 8)), 40)]) (fun k s =>
      let n := k.f 16 4
      let size := if x.val = 0 then 64 * 2 ^ 30 else 4 * 2 ^ 30
      if size < k.f 32 8 + n * 2097152 ∨ pagesEnd (k.f 40 8) n = false then s.reply x.val k EXTENT
      else (s.modCx x.val (fun y => { y with
        bar4 := (upFrom 0 n).foldl (fun m i => amIns m (k.f 32 8 / 2097152 + i) (bits (k.f 40 8) 41 21 + i)) y.bar4 })).reply
          x.val k OK)

/-! ### Programs (R523, R576) -/

/-- The lowest free PROGID. -/
def State.freeProg (s : State) (x : Nat) : Option Nat :=
  (List.range 64).find? (fun i => !((s.cx x).progs.any (fun g => g.id == i)))

/-- R576: a program's bytes are in: they are copied, and the program is known. -/
def State.loadProg (s : State) (x : Nat) (k : Cmd) (id : Nat) (bs : List Byte) : State :=
  let a := k.f 40 8
  let np := (bs.length + 2097151) / 2097152
  let s := s.mapPages x (bits a 41 21) np 32
  let s := (partsOf (gOff a) bs.length).foldl (fun s p => match s.translate x p.1 with
    | .at_ q _ => s.hbmWrite q ((bs.drop (p.1 - gOff a)).take p.2)
    | _ => s) s
  let prog := leBytes 32 (Config.sha3 bs).toNat
  (s.modCx x (fun y => { y with progs := y.progs ++ [⟨id, a, bs.length, prog⟩] })).reply x k OK
    (leBytes 2 id ++ leBytes 2 0 ++ prog.take 12)

/-- R576: whether PROG_LOAD must wait: for frames being zeroed (R649), or for the host (R605). -/
def State.progHold (s : State) (x : Nat) (k : Cmd) : Bool :=
  let np := (k.f 16 4 + 2097151) / 2097152
  (s.freeProg x).isSome && s.cmdSpace x (k.f 32 8) (k.f 16 4) && pagesEnd (k.f 40 8) np
    && !((upFrom (bits (k.f 40 8) 41 21) np).any (fun q => bit (s.page x q) 0))
    && ((!(s.framesLeft x np) && s.zeroingOf x) || (s.framesLeft x np && needsHost (k.f 32 8) && !(s.mayMaster x)))

/-- R576: the page for which the next command, a PROG_LOAD, waits. -/
def State.progPageOut (s : State) (x : Nat) : Option Nat :=
  match s.nextCmd x with
  | some k =>
    if k.op = 0x0301 ∧ s.cmdSpace x (k.f 32 8) (k.f 16 4) ∧ s.pageAddr? (k.f 40 8) ∧ reservedByte k.pkt = none then
      s.absentPage x (k.f 32 8) (k.f 16 4)
    else none
  | none => none

/-- R576: PROG_LOAD. -/
def execProgLoad (x : Ctx) (hostData : List Byte) (s : State) : Res :=
  match s.progPageOut x.val with
  | some p => .next (s.wantPage x.val p)
  | none =>
  opcodeWhen x 0x0301 s (s.progHold x.val) (fun k => k.f 16 4 == 0) (fun k => [(!(s.pageAddr? (k.f 40 8)), 40)]) (fun k s =>
    let n := k.f 16 4
    let np := (n + 2097151) / 2097152
    match s.freeProg x.val with
    | none => s.reply x.val k QUOTA
    | some id =>
      if (s.cmdSpace x.val (k.f 32 8) n && pagesEnd (k.f 40 8) np) = false then s.reply x.val k EXTENT
      else if (upFrom (bits (k.f 40 8) 41 21) np).any (fun q => bit (s.page x.val q) 0) then s.reply x.val k EXTENT
      else if s.framesLeft x.val np = false then s.reply x.val k QUOTA
      else
        match s.srcRead x.val (k.f 32 8) n hostData with
        | .ok bs bad => if bad.isEmpty then s.loadProg x.val k id bs else s.replyPartial x.val k FAULT
        | _ => s.reply x.val k EXTENT)

/-- R576: PROG_UNLOAD. -/
def execProgUnload (x : Ctx) (s : State) : Res :=
  opcodeRow x 0x0302 s noCount noFields (fun k s =>
    match (s.cx x.val).progs.find? (fun g => g.id == k.f 16 2) with
    | none => s.reply x.val k EXTENT
    | some g =>
      if (s.cmds x.val).any (fun j => j.op == 0x0401 && j.started && j.f 16 2 == g.id) then s.reply x.val k DENIED
      else
        let s := s.modCx x.val (fun y => { y with progs := y.progs.filter (fun j => j.id != g.id) })
        ((s.unmapPages x.val (bits g.caddr 41 21) ((g.len + 2097151) / 2097152) false).settleQuota x.val).reply x.val k OK)

end Sys2Proof.Machine
end

