-- ==== Sys2Proof/Machine/LaunchCmds.lean ====
section
/-! DEFINITION. Sys2Proof/Machine/LaunchCmds.lean: the opcodes of family 0x04: launches and passes (R577 to R581), with the start
(R518, R578) and the end (R522, R579, R580) of a launch. -/

namespace Sys2Proof.Machine

/-! ### LAUNCH (R517, R577, R578) -/

/-- The program that a LAUNCH names. -/
def State.progOf (s : State) (x : Nat) (k : Cmd) : Option Prog := (s.cx x).progs.find? (fun g => g.id == k.f 16 2)

/-- R578, orders 1 and 2: the fields of a LAUNCH that break the protocol. -/
def State.badLaunch (s : State) (x : Nat) (k : Cmd) : List (Bool × Nat) :=
  let e := k.f 24 8
  let g := s.progOf x k
  let first := [(g.isNone, 16), ((match g with | some p => decide (e % 2 = 1) || decide (p.len ≤ e) | none => false), 24),
    (decide (2 ^ 40 ≤ k.f 32 8), 32), (decide (k.f 40 8 % 64 ≠ 0), 40), (decide (k.f 56 4 % 16 ≠ 0), 56),
    (decide (4 < k.f 60 1), 60)]
    ++ (if 4 < k.f 60 1 then [] else (upFrom 0 (k.f 60 1)).map (fun i => (decide (k.f (128 + 8 * i) 8 % 64 ≠ 0), 128 + 8 * i)))
  if first.any (·.1) then first
  else
    let l := k.f 64 4
    [(decide (l = 0) || decide (16777216 < l) || (decide (1 ≤ s.role) && s.ringN != 0 && decide (l % s.ringN ≠ 0)), 64),
      (!(k.zero 68 4), 68), (!(k.zero 112 16), 112)]

/-- The clusters of CLMASK, ascending. -/
def Cmd.mask (k : Cmd) : List Cl := allCl.filter (fun c => bit (k.f 32 8) c.val)

/-- R578: the stack of the n-th cluster. -/
def Cmd.stack (k : Cmd) (n : Nat) : Nat := (k.f 48 8 + n * k.f 56 4) % 2 ^ 64

/-- R578: whether a stack lies in the address space: the 16 bytes below its address do, in the cluster's own scratchpad for an
address of KIND 0 (assumption 43). -/
def State.stackIn (s : State) (x a : Nat) : Bool :=
  if a < 2 ^ 60 then decide (16 ≤ a) && decide (a ≤ 524288) else s.inSpace x (a - 16) 16

/-- R578, order 4. -/
def State.launchSpace (s : State) (x : Nat) (k : Cmd) : Bool :=
  s.cmdSpace x (k.f 40 8) 64 && k.bills.all (fun a => s.cmdSpace x a 64)
    && (upFrom 0 k.mask.length).all (fun n => s.stackIn x (k.stack n))

/-- R577, R578: LAUNCH is checked; one that passes waits to start. Without a cluster it completes at once, and no LINDEX has an exit
code (R552, R566). -/
def execLaunch (x : Ctx) (s : State) : Res :=
  opcodeRow x 0x0401 s (fun k => k.f 32 8 == 0) (s.badLaunch x.val) (fun k s =>
    if k.mask.all (fun c => bit (s.cx x.val).quota.clmask c.val) = false then s.reply x.val k QUOTA
    else if s.launchSpace x.val k = false then s.reply x.val k EXTENT
    else s)
    (fun k s => s.reply x.val k OK (leBytes 4 0 ++ leBytes 2 0xFFFF))

/-! ### The start (R167, R247, R518, R578) -/

/-- R578: earlier launches of the context on a cluster of this one. -/
def State.launchBefore (s : State) (x : Nat) (k : Cmd) : Bool :=
  ((s.cmds x).takeWhile (fun j => !(j.same k))).any (fun j => j.op == 0x0401 && j.started && j.mask.any (fun c => k.mask.contains c))

/-- Whether cluster c can take a kernel of context x now. -/
def State.canTakeKernel (s : State) (x : Nat) (c : Cl) : Bool :=
  let k := s.cl c
  !k.wiping && k.launch.isNone && (if k.owner = x then k.coreStopped else k.free)

/-- R247, R248, R518, R578: the n-th cluster of a launch is set up and its program entered. -/
def State.startOn (s : State) (x : Nat) (k : Cmd) (c : Cl) (n : Nat) : State :=
  let s := if (s.cl c).owner = x then s else s.passCluster c x
  let entry := (match s.progOf x k with | some g => g.caddr | none => 0) + k.f 24 8
  let s := s.mod c (fun j =>
    let j := ((j.w CL_VX_SEED (k.f 72 8)).w CL_CORE_ENTRY entry).w CL_CORE_ARG (k.f 40 8)
    let j := (j.w CL_CORE_LAUNCH (n + place 31 16 k.mask.length)).w CL_CORE_STACK (k.stack n)
    { j with launch := some (x, k.seq), flags := 0 })
  s.launchCore c

/-- R518, R578: a launch starts on its clusters. -/
def State.startLaunch (s : State) (x : Nat) (k : Cmd) : State :=
  let s := s.fwWrite x (k.f 40 8) (sliceB k.pkt 64 64)
  let s := ((upFrom 0 k.mask.length).zip k.mask).foldl (fun s p => s.startOn x k p.2 p.1) s
  s.modCmd x k (fun j => { j with
    running := true
    deadline := if k.f 20 4 = 0 then none else some (s.timebase + 1000000 * k.f 20 4)
    usWhole := s.usState == 2 && s.usCtx == x })

/-- R509: whether a launch came after a standalone replacement that is not yet swapped in. -/
def State.swapDue (s : State) (x : Nat) (k : Cmd) : Bool :=
  s.role == 0 && s.wt.shards.any (fun h => h.ctx == x && h.replaces.isSome && h.state != .bad && !(h.early.contains k.seq))

/-- R578: a launch starts once the earlier launches on its clusters have completed. It waits for the page of its argument block. -/
def execLaunchStart (x : Ctx) (seq : BitVec 32) (s : State) : Res :=
  match s.findCmd x seq.toNat 0x0401 with
  | none => waits s
  | some k =>
    if k.running || s.launchBefore x.val k || s.swapDue x.val k || !(k.mask.all (fun c => s.canTakeKernel x.val c)) then waits s
    else
      match s.absentPage x.val (k.f 40 8) 64 with
      | some p => .next (s.wantPage x.val p)
      | none => .next (s.startLaunch x.val k)

/-! ### The end (R352, R522, R579, R580) -/

/-- R251, R352, R522: what the kernel of cluster c has begun has ended, and its writes are performed. -/
def State.kernelDone (s : State) (c : Cl) : Bool :=
  let k := s.cl c
  let mine := fun (a : Arrival) => match a.from_ with | .core d _ => d == c.val | .stream d _ _ => d == c.val | _ => false
  !k.wiping && k.drained
    && !(k.misses.any (fun m => m.uses.any (fun u => match u with | .store _ _ _ => true | .load _ _ _ _ _ => false)))
    && s.cls.toList.all (fun j => !(j.waitA.any mine) && !(j.admA.any (fun a => mine a.arr)))

/-- R579: whether every cluster of a launch has ended. -/
def Cmd.allEnded (k : Cmd) : Bool := k.mask.all (fun c => k.ends.any (fun e => e.clus == c.val))

/-- The lowest cluster whose kernel did not make EXIT, and its status. -/
def Cmd.lowestBad (k : Cmd) : Option (Nat × Nat) :=
  k.mask.findSome? (fun c => (k.ends.find? (fun e => e.clus == c.val && !e.exited)).map (fun e => (e.clus, e.status)))

/-- R566: the exit code of the lowest LINDEX with a non-zero code, and that LINDEX. -/
def Cmd.exitCode (k : Cmd) : Nat × Nat :=
  let code := fun (c : Cl) => ((k.ends.find? (fun e => e.clus == c.val)).map (·.code)).getD 0
  match ((upFrom 0 k.mask.length).zip k.mask).find? (fun p => code p.2 != 0) with
  | some p => (code p.2, p.1)
  | none => (0, 0xFFFF)

/-- R579, R580: the reply of a launch. One that HALTDIV ended carries the capture (R537, assumption 44). -/
def State.replyLaunch (s : State) (x : Nat) (k : Cmd) (strms : List (Nat × EndedStrm)) : State :=
  let rec_ := fun (c : Option Nat) => s.progress k c strms
  let e := k.exitCode
  match k.ended, k.lowestBad with
  | .timeout, _ => s.reply x k TIMEOUT [] (rec_ none)
  | .fault st _, _ => s.reply x k st (leBytes 8 (s.dr MG_US_DIV0) ++ leBytes 8 (s.dr MG_US_DIV1))
  | .cancel, some (c, _) =>
    let ab := k.mask.find? (fun c => k.ends.any (fun e => e.clus == c.val && !e.exited && e.status == ABANDONED))
    s.reply x k PARTIAL (leBytes 2 ABANDONED) (rec_ (some ((ab.map (·.val)).getD c)))
  | _, some (c, st) => s.reply x k PARTIAL (leBytes 2 st) (rec_ (some c))
  | _, none => s.reply x k OK (leBytes 4 e.1 ++ leBytes 2 e.2)

/-- R579: a launch has ended: its playbills and its reply are written, and its clusters are free. -/
def State.finishLaunch (s : State) (x : Nat) (k : Cmd) : State :=
  let k := { k with work := k.exits }
  let cs := s.launchCls x k
  let s := cs.foldl (fun s c => s.ccFlush c) s
  let bad := k.ended != .none || k.lowestBad.isSome
  let s := s.writeBills x k bad
  let s := s.replyLaunch x k (s.endedStrms x k)
  let s := cs.foldl (fun s c => s.mod c (fun j => { j with launch := none })) s
  let s := s.modCx x (fun y => { y with doneL := amIns y.doneL k.seq k.exits })
  ((s.usLaunchEnd x).assign).settleQuota x

/-- R579: a launch completes when every cluster of it has ended. It waits for the pages of its playbills. -/
def execLaunchComplete (x : Ctx) (seq : BitVec 32) (s : State) : Res :=
  match s.findCmd x seq.toNat 0x0401 with
  | none => waits s
  | some k =>
    if !k.running || !k.allEnded || !((s.launchCls x.val k).all (fun c => s.kernelDone c)) then waits s
    else
      match k.bills.findSome? (fun a => s.absentPage x.val a 64) with
      | some p => .next (s.wantPage x.val p)
      | none => .next (s.finishLaunch x.val k)

/-- R579: TIMEOUT passes: every cluster is stopped. -/
def execLaunchTimeout (x : Ctx) (seq : BitVec 32) (s : State) : Res :=
  match s.findCmd x seq.toNat 0x0401 with
  | none => waits s
  | some k =>
    whenever s (k.running && !k.allEnded && (match k.deadline with | some t => decide (t ≤ s.timebase) | none => false))
      (s.endLaunch x.val k .timeout TIMEOUT)

/-! ### Cancel and query (R566, R580) -/

/-- The LAUNCH of context x with a SEQ, sent the way that k was. -/
def State.launchNamed (s : State) (x : Nat) (k : Cmd) : Option Cmd :=
  (s.cmds x).find? (fun j => j.op == 0x0401 && j.seq == k.f 16 4 && j.origin.isSome == k.origin.isSome)

/-- R580: a launch that waits to start ends with ABANDONED; a running one is stopped. -/
def execLaunchCancel (x : Ctx) (s : State) : Res :=
  opcodeRow x 0x0402 s noCount noFields (fun k s =>
    match s.launchNamed x.val k with
    | none => s.reply x.val k OK (leBytes 1 0)
    | some j =>
      if j.started && !j.running then
        let s := s.modCx x.val (fun y => { y with doneL := amIns y.doneL j.seq 0 })
        (s.replyAbandoned x.val j).reply x.val k OK (leBytes 1 1)
      else if j.running && !j.allEnded then (s.endLaunch x.val j .cancel ABANDONED).reply x.val k OK (leBytes 1 1)
      else s.reply x.val k OK (leBytes 1 0))

/-- R566: LAUNCH_QUERY. -/
def execLaunchQuery (x : Ctx) (s : State) : Res :=
  opcodeRow x 0x0403 s noCount noFields (fun k s =>
    let answer := match s.launchNamed x.val k with
      | some j => if j.running then leBytes 1 2 ++ leBytes 1 j.exits else leBytes 1 1
      | none =>
        match (s.cx x.val).doneL.find? (fun e => e.1 == k.f 16 4) with
        | some e => leBytes 1 3 ++ leBytes 1 e.2
        | none => leBytes 1 0
    s.reply x.val k OK answer)

/-! ### Passes (R45, R503, R581) -/

/-- R581: REVOLVE covers its passes from now on: those whose arrivals are in are released. A report that came for its first pass
before it ends it (assumption 45). One of no pass answers a free value for the last pass released (R552, assumption 5). -/
def execRevolve (x : Ctx) (s : State) : Res :=
  opcodeRow x 0x0404 s (fun k => k.f 16 4 == 0) (fun k => [(decide (k.f 20 4 ≠ s.rv.pass), 20)]) (fun k s =>
    match s.rv.reports.find? (fun r => fieldB r 4 4 == k.f 20 4) with
    | some rep => s.reply 0 k SHARD rep (s.progress k none [])
    | none => s.checkCentral)
    (fun k s => s.free.2.reply x.val k OK (leBytes 4 s.free.1.toNat))

end Sys2Proof.Machine
end

