-- ==== Sys2Proof/Machine/WeightCmds.lean ====
section
/-! DEFINITION. Sys2Proof/Machine/WeightCmds.lean: the opcodes of family 0x05: loads, paging by hand and queries of shards (R486,
R491, R492, R496, R501, R506, R582 to R584). -/

namespace Sys2Proof.Machine

/-! ### WT_LOAD (R491, R492, R506) -/

/-- R491, R492, R506: the fields of a shard descriptor that break their ranges. With LEN 0 only the reserved bytes are held to
zero. A missing schedule is at fault in PERIOD (assumption 46). -/
def State.badShard (s : State) (k : Cmd) : List (Bool × Nat) :=
  [(decide (16 ≤ k.f 36 1), 36), (!(k.zero 37 3), 37), (!(k.zero 58 2), 58), (!(k.zero 66 2), 66), (!(k.zero 84 12), 84)]
    ++ (if k.f 48 4 = 0 then [] else [
      (!(s.pageAddr? (k.f 40 8)), 40), (decide (k.f 48 4 % 64 ≠ 0), 48),
      (s.role != 0 && k.f 56 2 == 0 && k.f 64 2 == 0, 56),
      (s.role == 0 && k.f 76 4 != 0xFFFFFFFF && k.f 80 4 != 0, 80)])

/-- The shard that a WT_LOAD describes. -/
def State.newShard (s : State) (x : Nat) (k : Cmd) : Shard :=
  let fl := k.f 36 1
  let src := k.f 68 8
  let wr := bit fl 2
  { ctx := x, id := k.f 32 4, len := k.f 48 4, caddr := k.f 40 8, first := k.f 52 4, period := k.f 56 2, first2 := k.f 60 4
    period2 := k.f 64 2, digest := BitVec.ofNat 256 (fieldB k.pkt 96 32), writable := wr, pin := bit fl 3 || wr
    keepfly := bit fl 1 && !wr, host := if bit fl 0 then none else some src, fly := if bit fl 0 then some src else none
    replaces := if k.f 76 4 = 0xFFFFFFFF then none else some (k.f 76 4), at_ := k.f 80 4, cmd := some k.seq
    early := ((s.cmds x).filter (fun j => j.op == 0x0401)).map (·.seq) }

/-- R493: the bytes of a host image. -/
def Shard.imageLen (h : Shard) : Nat := 64 + h.len + 16 * ((h.len + 65535) / 65536)

/-- R492, R506, R508: whether a load names a replacement that cannot be. -/
def State.badReplace (s : State) (h : Shard) : Bool :=
  match h.replaces with
  | none => false
  | some r =>
    match s.shard h.ctx r with
    | none => true
    | some o => o.caddr != h.caddr || decide (o.pages < h.pages)
        || (s.role != 0 && (decide (h.at_ ≤ s.rv.pass) || o.next h.at_ != some h.at_))
        || s.wt.shards.any (fun y => y.ctx == h.ctx && y.replaces == some r && y.at_ == h.at_)
        || (h.id != r && s.wt.shards.any (fun y => y.ctx == h.ctx && y.id == h.id))

/-- R492: whether a load is refused with EXTENT. -/
def State.shardExtent (s : State) (h : Shard) : Bool :=
  pagesEnd h.caddr h.pages = false
    || (h.replaces.isNone && ((upFrom h.page0 h.pages).any (fun p => bit (s.page h.ctx p) 0)
        || s.wt.shards.any (fun y => y.ctx == h.ctx && y.id == h.id)))
    || s.badReplace h
    || (match h.host with | some a => !(s.inHostWin h.ctx a h.imageLen) | none => false)
    || (match h.fly with | some n => !(s.wt.flies.any (fun f => f.num == n)) | none => false)

/-- R492, R501: whether the flies image that a load names may not be mapped. -/
def State.flyDenied (s : State) (h : Shard) : Bool :=
  match h.fly.bind (fun n => s.wt.flies.find? (fun f => f.num == n)) with
  | none => false
  | some f => !((s.cx h.ctx).wkeys.any (fun w => w.ident == f.ident))
      || s.wt.shards.any (fun y => y.fly == some f.num && y.ctx != h.ctx)

/-- The flies pages that a load adds to its context's use. -/
def State.flyNeed (s : State) (h : Shard) : Nat :=
  match h.fly.bind (fun n => s.wt.flies.find? (fun f => f.num == n)) with
  | some f => if f.ctx = h.ctx then 0 else f.pages
  | none => if h.keepfly then h.pages else 0

/-- R492: whether a load is beyond the quota. -/
def State.shardQuota (s : State) (h : Shard) : Bool :=
  !(s.framesLeft h.ctx h.pages) || decide ((s.cx h.ctx).quota.fly < s.flyOf h.ctx + s.flyNeed h)

/-- R494, R501: a load begins: the shard has its frames, and its flies image is the context's. -/
def State.beginLoad (s : State) (h : Shard) : State :=
  let r := s.takeFrames h.pages
  let h := { h with frames := r.1 }
  let gen := match h.fly.bind (fun n => s.wt.flies.find? (fun f => f.num == n)) with
    | some f => (((s.cx h.ctx).wkeys.find? (fun w => w.ident == f.ident)).map (·.gen)).getD 0
    | none => 0
  let s : State := { r.2 with wt := { r.2.wt with
    shards := r.2.wt.shards ++ [{ h with gen := gen }]
    flies := r.2.wt.flies.map (fun f => if h.fly = some f.num then { f with ctx := h.ctx } else f) } }
  s.mapShard { h with gen := gen }

/-- R492, R494, R582: WT_LOAD. One that lacks only frames still being zeroed waits (R649). -/
def execWtLoad (x : Ctx) (s : State) : Res :=
  opcodeWhen x 0x0501 s (fun k =>
      let h := s.newShard x.val k
      h.len != 0 && !(s.shardExtent h) && !(s.flyDenied h) && !(s.framesLeft x.val h.pages) && s.zeroingOf x.val) noCount s.badShard
    (fun k s =>
      let h := s.newShard x.val k
      if h.len = 0 then s.reply x.val k OK (leBytes 4 0xFFFFFFFF)
      else if s.shardExtent h then s.reply x.val k EXTENT
      else if s.flyDenied h then s.reply x.val k DENIED
      else if s.shardQuota h then s.reply x.val k QUOTA
      else s.beginLoad h)

/-! ### Known shards (R583) -/

/-- A shard of context x by SHARDID: the one mapped, else a replacement. -/
def State.anyShard (s : State) (x id : Nat) : Option Shard :=
  match s.shard x id with
  | some h => some h
  | none => s.wt.shards.find? (fun h => h.ctx == x && h.id == id)

/-- Whether a shard is on its way into HBM. -/
def Shard.busy (h : Shard) : Bool := h.state == .loading || h.state == .moving

/-- Whether the shard that a command names is on its way into HBM. -/
def State.shardBusy (s : State) (x : Nat) (k : Cmd) : Bool :=
  match s.anyShard x (k.f 16 4) with | some h => h.busy | none => false

/-- An opcode on a known shard; an unknown SHARDID is answered EXTENT. -/
def shardRow (x : Ctx) (op : Nat) (s : State) (hold : Cmd → Bool) (f : Cmd → Shard → State → State) : Res :=
  opcodeWhen x op s hold noCount noFields (fun k s =>
    match s.anyShard x.val (k.f 16 4) with
    | none => s.reply x.val k EXTENT
    | some h => f k h s)

/-- R583: WT_UNLOAD waits until no stream reads the shard. -/
def execWtUnload (x : Ctx) (s : State) : Res := shardRow x 0x0502 s (fun _ => false) (fun _ _ s => s)

/-- R583: a shard leaves the table and its schedules; its flies image stays. -/
def State.dropShard (s : State) (h : Shard) : State :=
  let s := s.dropFrames h
  let s := if h.replaces.isSome then s else (upFrom h.page0 h.pages).foldl (fun s p => s.setPage h.ctx p 0) s
  { s with wt := { s.wt with
    shards := s.wt.shards.filter (fun y => !(y.same h))
    queue := s.wt.queue.filter (fun q => q != (h.ctx, h.id)) } }

/-- R583: no stream reads the shard: it is unloaded. -/
def execWtUnloadComplete (x : Ctx) (seq : BitVec 32) (s : State) : Res :=
  match s.findCmd x seq.toNat 0x0502 with
  | none => waits s
  | some k =>
    match s.anyShard x.val (k.f 16 4) with
    | none => .next (s.reply x.val k EXTENT)
    | some h =>
      if h.busy || s.shardRead h then waits s
      else .next (((s.dropShard h).settleQuota x.val).reply x.val k OK)

/-- R504, R583: WT_RESIDE brings a shard in, and with PIN pins it. It waits for a page-in in progress, and for one of the sixteen. -/
def execWtReside (x : Ctx) (s : State) : Res :=
  shardRow x 0x0503 s (fun k => s.shardBusy x.val k || decide (16 ≤ s.wt.pageIns.length)) (fun k h s =>
    let pin := bit (k.f 20 1) 0
    match h.state with
    | .backed =>
      let p := s.startPageIn h (some k.seq) pin
      if p.1 then p.2 else p.2.reply x.val k QUOTA
    | .bad => s.reply x.val k FAULT
    | _ => (s.setShard h (fun y => { y with pin := y.pin || pin })).reply x.val k OK)

/-- R583: WT_DEMOTE. It waits while a stream reads the shard. -/
def execWtDemote (x : Ctx) (s : State) : Res :=
  shardRow x 0x0504 s (fun k => match s.anyShard x.val (k.f 16 4) with
      | some h => h.busy || (s.shardRead h && h.state == .resident && !h.pin && !h.writable)
      | none => false) (fun k h s =>
    if h.pin || h.writable || (h.fly.isNone && h.host.isNone) then s.reply x.val k DENIED
    else if h.state = .resident ∧ h.replaces = none then ((s.demote h).settleQuota x.val).reply x.val k OK
    else s.reply x.val k OK)

/-- R496: the digest of a WRITABLE shard is computed again; that of bytes that do not parse is a free value (assumption 47). -/
def State.redigest (s : State) (h : Shard) : BitVec 256 × State :=
  match shardDigest (s.shardBytes h) with
  | some d => (d, s.modShard h (fun y => { y with digest := d }))
  | none =>
    let a := s.free
    let b := a.2.free
    let c := b.2.free
    let e := c.2.free
    let d : BitVec 256 := a.1 ++ b.1 ++ c.1 ++ e.1
    (d, e.2.modShard h (fun y => { y with digest := d }))

/-- R496, R583: WT_DIGEST. -/
def execWtDigest (x : Ctx) (s : State) : Res :=
  shardRow x 0x0505 s (s.shardBusy x.val) (fun k h s =>
    let r := if h.writable && h.state == .resident then s.redigest h else (h.digest, s)
    r.2.reply x.val k OK [] [leBytes 32 r.1.toNat])

/-- The number of a shard's state in WT_QUERY. -/
def Shard.stateNo (h : Shard) : Nat :=
  match h.state with | .resident => 1 | .backed => 2 | .staged => 3 | .moving => 4 | .loading => 4 | .bad => 5

/-- R566: WT_QUERY. -/
def execWtQuery (x : Ctx) (s : State) : Res :=
  shardRow x 0x0506 s (fun _ => false) (fun k h s =>
    let back := if h.fly.isSome then 1 else if h.host.isSome then 2 else 0
    s.reply x.val k OK (leBytes 1 h.stateNo ++ leBytes 1 back ++ leBytes 2 (b2n h.pin + 2 * b2n h.writable)
      ++ leBytes 4 (if h.state = .resident then h.pages else 0)))

/-- R584: FLY_DELETE. An unknown image is answered EXTENT. -/
def execFlyDelete (x : Ctx) (s : State) : Res :=
  opcodeRow x 0x0507 s noCount noFields (fun k s =>
    match s.wt.flies.find? (fun f => f.num == k.f 16 4) with
    | none => s.reply x.val k EXTENT
    | some f =>
      if s.wt.shards.any (fun h => h.fly == some f.num) || !((s.cx x.val).wkeys.any (fun w => w.ident == f.ident)) then
        s.reply x.val k DENIED
      else
        let s : State := { s with wt := { s.wt with flies := s.wt.flies.filter (fun y => y.num != f.num) } }
        (s.settleQuota f.ctx).reply x.val k OK)

end Sys2Proof.Machine
end

