-- ==== Sys2Proof/Machine/SyncCmds.lean ====
section
/-! DEFINITION. Sys2Proof/Machine/SyncCmds.lean: the opcodes of family 0x06: counters, watches, pairs and curtains named by virtual
number (R376, R384 to R397, R585, R586). -/

namespace Sys2Proof.Machine

/-! ### Mapping (R391, R392, R585) -/

/-- R585: the lowest n physical counters that no context maps and the layer curtain does not use (assumption 36). -/
def State.freeCtrs (s : State) (n : Nat) : List Nat :=
  let used := (List.range 16).flatMap s.ctrsOf
  ((List.range 65536).filter (fun p => !(used.contains p) && !(s.layerCtr p))).take n

/-- R585: n virtual counters of context x are mapped from v on, each set to zero. -/
def State.mapCtrs (s : State) (x v : Nat) (ps : List Nat) : State :=
  ((upFrom v ps.length).zip ps).foldl (fun s p => (s.dw (SY_VMAP + 0x8000 * x + 8 * p.1) (p.2 + 2 ^ 16)).setDctr p.2 0) s

/-- R585: SY_MAP. -/
def execSyMap (x : Ctx) (s : State) : Res :=
  opcodeRow x 0x0601 s (fun k => k.f 18 2 == 0) noFields (fun k s =>
    let v := k.f 16 2
    let n := k.f 18 2
    if 4096 < v + n ∨ (upFrom v n).any (fun i => (s.vmap x.val i).isSome) then s.reply x.val k EXTENT
    else if (s.cx x.val).quota.vctrs < (s.ctrsOf x.val).length + n ∨ (s.freeCtrs n).length < n then s.reply x.val k QUOTA
    else (s.mapCtrs x.val v (s.freeCtrs n)).reply x.val k OK)

/-- R384, R585: a virtual counter is unmapped: its watches are abandoned. -/
def State.unmapCtr (s : State) (x v : Nat) : State :=
  match s.vmap x v with
  | none => s
  | some p => (s.abandonWatches (fun w => w.ctr == p)).dw (SY_VMAP + 0x8000 * x + 8 * v) 0

/-- R585: SY_UNMAP. -/
def execSyUnmap (x : Ctx) (s : State) : Res :=
  opcodeRow x 0x0602 s (fun k => k.f 18 2 == 0) noFields (fun k s =>
    let v := k.f 16 2
    let n := k.f 18 2
    if 4096 < v + n then s.reply x.val k EXTENT
    else if (upFrom v n).any (fun i => (s.vmap x.val i).isNone) then s.reply x.val k DENIED
    else (((upFrom v n).foldl (fun s i => s.unmapCtr x.val i) s).settleQuota x.val).reply x.val k OK)

/-! ### Counters (R376, R386, R585, R586) -/

/-- A virtual counter above 4,095 (R391). -/
def badCtr (k : Cmd) (off : Nat) : Bool × Nat := (decide (4095 < k.f off 2), off)

/-- An opcode on one virtual counter; one that is not mapped is answered DENIED. -/
def ctrRow (x : Ctx) (op : Nat) (s : State) (bad : Cmd → List (Bool × Nat)) (f : Cmd → Nat → State → State) : Res :=
  opcodeRow x op s noCount (fun k => badCtr k 16 :: bad k) (fun k s =>
    match s.vmap x.val (k.f 16 2) with
    | none => s.reply x.val k DENIED
    | some p => f k p s)

/-- R586: SY_SIGNAL is a signal at device scope; a refused increment is answered FAULT. -/
def execSySignal (x : Ctx) (s : State) : Res :=
  ctrRow x 0x0603 s (fun k => [(decide (2 ^ 48 ≤ k.f 24 8), 24)]) (fun k p s =>
    let v := s.dctr p + k.f 24 8
    let refused := decide (2 ^ 48 ≤ v) || s.devPairBroken p v
    ((s.applyDev p (k.f 24 8) false 1 .host).checkCentral).reply x.val k (if refused then FAULT else OK))

/-- The host watches of context x. -/
def State.hostWatches (s : State) (x : Nat) : List DevWatch :=
  s.sy.watches.filter (fun w => match w.dest with | .host y _ => y == x | _ => false)

/-- R387, R586: SY_WATCH replies at once; its cue comes as an event. -/
def execSyWatch (x : Ctx) (s : State) : Res :=
  ctrRow x 0x0604 s (fun k => [(decide (2 ^ 48 ≤ k.f 24 8), 24)]) (fun k p s =>
    if 256 ≤ (s.hostWatches x.val).length then s.reply x.val k QUOTA
    else
      let id := (s.cx x.val).nextWatch
      let w : DevWatch := { ctr := p, value := k.f 24 8, scope := 1, timeout := k.f 32 2, dest := .host x.val id, ctx := x.val }
      let s : State := { s with sy := { s.sy with watches := s.sy.watches ++ [w] } }
      (s.modCx x.val (fun y => { y with nextWatch := (id + 1) % 2 ^ 32 })).reply x.val k OK (leBytes 4 id))

/-- R385, R586: SY_WCANCEL; a cue already due is delivered. -/
def execSyWcancel (x : Ctx) (s : State) : Res :=
  opcodeRow x 0x0605 s noCount noFields (fun k s =>
    let mine := fun (w : DevWatch) => w.dest == .host x.val (k.f 16 4)
    let found := s.sy.watches.any mine
    let s : State := { s with sy := { s.sy with watches := s.sy.watches.filter (fun w => !(mine w)) } }
    s.reply x.val k OK (leBytes 1 (b2n found)))

/-- R566: SY_READ. -/
def execSyRead (x : Ctx) (s : State) : Res :=
  ctrRow x 0x0606 s noFields (fun k p s => s.reply x.val k OK (leBytes 8 (s.dctr p)))

/-! ### Pairs and curtains (R389, R393 to R397, R586) -/

/-- R586: SY_PAIR: entry e of context c is device pair 16 c + e. -/
def execSyPair (x : Ctx) (s : State) : Res :=
  opcodeRow x 0x0607 s noCount
    (fun k => [(decide (15 < k.f 16 1), 16), badCtr k 18, badCtr k 20, (decide (1 < k.f 22 1), 22)]) (fun k s =>
      match s.vmap x.val (k.f 18 2), s.vmap x.val (k.f 20 2) with
      | some p, some c =>
        (s.writeDevPair (16 * x.val + k.f 16 1) (p + place 31 16 c + place 32 32 (k.f 22 1))).reply x.val k OK
      | _, _ => s.reply x.val k DENIED)

/-- R586: the fields of SY_CURTAIN that break their ranges. -/
def badCurtain (k : Cmd) : List (Bool × Nat) :=
  let en := bit (k.f 26 1) 1
  let ring := bit (k.f 26 1) 0
  let n := k.f 34 2
  [(decide (14 < k.f 16 1), 16), badCtr k 18, badCtr k 20, (en && k.f 24 2 == 0, 24), (decide (3 < k.f 26 1), 26),
    (decide (4095 < k.f 32 2), 32), (en && ring && (decide (n < 2) || decide (4096 < n)), 34), badCtr k 36]

/-- R586: a curtain entry is written. CENTRAL is the manager's own: on another device it is kept as given (assumption 49). -/
def State.setCurtain (s : State) (x k arr rel central : Nat) (c : Cmd) : State :=
  let ring := bit (c.f 26 1) 0
  let mgr := ring && c.f 32 2 == s.chip
  let s := s.dw (curReg SY_CUR_RING k) (central + place 27 16 (c.f 32 2) + place 40 28 (c.f 34 2))
  (s.writeCurCfg k (arr + place 31 16 rel + place 47 32 (c.f 24 2) + place 51 48 x + place 52 52 (b2n ring)
    + place 53 53 (b2n mgr) + place 54 54 (c.f 26 1 / 2))).checkCentral

/-- R586: SY_CURTAIN. -/
def execSyCurtain (x : Ctx) (s : State) : Res :=
  opcodeRow x 0x0608 s noCount badCurtain (fun k s =>
    let e := s.dr (curReg SY_CUR_CFG (k.f 16 1))
    let mgr := bit (k.f 26 1) 0 && k.f 32 2 == s.chip
    if e ≠ 0 ∧ bits e 51 48 ≠ x.val then s.reply x.val k DENIED
    else
      match s.vmap x.val (k.f 18 2), s.vmap x.val (k.f 20 2), (if mgr then s.vmap x.val (k.f 36 2) else some (k.f 36 2)) with
      | some arr, some rel, some cen => (s.setCurtain x.val (k.f 16 1) arr rel cen k).reply x.val k OK
      | _, _, _ => s.reply x.val k DENIED)

end Sys2Proof.Machine
end

