-- ==== Sys2Proof/Machine/RingCmds.lean ====
section
/-! DEFINITION. Sys2Proof/Machine/RingCmds.lean: the ring description (R31, R32, R408 to R410), weight keys (R681 to R684), and the
opcodes of families 0x07 and 0x08 (R415, R419, R436, R529, R587, R588). -/

namespace Sys2Proof.Machine

/-! ### The ring description (R31, R32, R408 to R410) -/

/-- R32, R409: the fields of a ring description that make it MALFORMED. -/
def badDesc (d : List Byte) : List (Bool × Nat) :=
  let n := fieldB d 0 2
  let g := fieldB d 8 1
  [(decide (n < 2) || decide (4096 < n), 0), (decide (n ≤ fieldB d 2 2), 2), (decide (4095 < fieldB d 4 2), 4),
    (decide (4095 < fieldB d 6 2), 6), (decide (4 < g) || ((g == 2 || g == 4) && n != 2), 8), (fieldB d 9 1 == 0, 9),
    (decide (4095 < fieldB d 10 2) || (n == 2 && fieldB d 10 2 != fieldB d 12 2), 10), (decide (4095 < fieldB d 12 2), 12)]
    ++ (upFrom 14 18).map (fun o => (fieldB d o 1 != 0, o))

/-- R32, R408: a description is accepted: the role follows, and the layer curtain is set up. -/
def State.takeDesc (s : State) (d : List Byte) : State :=
  let s := (upFrom 0 4).foldl (fun s i => s.dw (LK_RV_DESC + 8 * i) (fieldB d (8 * i) 8)) s
  let role := if fieldB d 4 2 % 4096 = fieldB d 6 2 % 4096 then 3 else 2
  let s := ((s.dwf LK_RV_STATUS 1 0 role).dwf LK_RV_STATUS 2 2 1).dwf MG_SU_STATUS 3 3 0
  s.ringCurtain

/-- R30, R31, R409, R410: the answer to a description, with the offset of a bad field, and the state it leaves. -/
def State.giveDesc (s : State) (d : List Byte) : Nat × Nat × State :=
  if s.role = 0 then (DENIED, 0, s)
  else
    match leastOff (badDesc d) none with
    | some o => (MALFORMED, o, s)
    | none => if bit (s.dr LK_RV_STATUS) 2 then (DENIED, 0, s) else (OK, 0, s.takeDesc d)

/-- R31: RING_DESC. -/
def execRingDesc (x : Ctx) (s : State) : Res :=
  opcodeRow x 0x0701 s noCount noFields (fun k s =>
    let r := s.giveDesc (sliceB k.pkt 32 32)
    if r.1 = MALFORMED then s.replyMal x.val k (32 + r.2.1) else r.2.2.reply x.val k r.1)

/-! ### Routing and slices (R415, R419, R420) -/

/-- R415, R420: RT_WRITE. -/
def execRtWrite (x : Ctx) (s : State) : Res :=
  opcodeRow x 0x0702 s (fun k => k.f 18 2 == 0) (fun k =>
      if 4096 < k.f 16 2 + k.f 18 2 then []
      else (upFrom 0 (k.f 18 2)).map (fun i => (decide (2 ^ 21 ≤ k.f (32 + 4 * i) 4), 32 + 4 * i))) (fun k s =>
    let c := k.f 16 2
    if 4096 < c + k.f 18 2 then s.reply x.val k EXTENT
    else ((upFrom 0 (k.f 18 2)).foldl (fun s i => s.dw (LK_RT_ENT + 8 * (c + i)) (k.f (32 + 4 * i) 4)) s).reply x.val k OK)

/-- R419: SLICE_BIND. A context bound to another slice is not bound again (assumption 50). -/
def execSliceBind (x : Ctx) (s : State) : Res :=
  opcodeRow x 0x0703 s noCount
    (fun k => [(k.f 16 1 == 0, 16), (decide (15 < k.f 17 1), 17), (decide (1 < k.f 18 1), 18)]) (fun k s =>
      let i := k.f 16 1
      let c := k.f 17 1
      let on := k.f 18 1 == 1
      if on && (match s.sliceOf c with | some j => j != i | none => false) then s.reply x.val k DENIED
      else
        let s := s.dw (LK_SLICE_BIND + 8 * i) (c + 16 * b2n on)
        (if 2 ≤ s.role then s.ringCurtain else s).reply x.val k OK)

/-- R566: RING_STATUS. -/
def execRingStatus (x : Ctx) (s : State) : Res :=
  opcodeRow x 0x0705 s noCount noFields (fun k s =>
    s.reply x.val k OK (leBytes 2 s.ringN ++ leBytes 2 s.ringPos ++ leBytes 4 s.rv.pass
      ++ leBytes 2 (b2n (bit (s.dr LK_RV_STATUS) 3) + 2 * b2n (s.role == 3)) ++ leBytes 2 s.rv.joins.length))

/-! ### Weight keys (R681 to R684) -/

/-- Key numbers: the wrap key of a session, and the SPDM keys. -/
def useWrap : Nat := 20
def useSpdmFin : Nat := 21
def useSpdmSecret : Nat := 22

/-- R682: the wrap key of an SPDM session for context x. -/
def SpdmSess.wrapKey (k : SpdmSess) (x : Nat) : BitVec 256 :=
  Config.derive useWrap (leBytes 32 k.secret.toNat ++ k.th ++ leBytes 1 x)

/-- R682: what a wrapped key holds under a wrap key: its generation and the key, if the tag matches. -/
def unwrapKey (key : BitVec 256) (x : Nat) (bs : List Byte) : Option (Nat × BitVec 256) :=
  (Config.open_ key (sliceB bs 8 12 ++ sliceB bs 0 8 ++ leBytes 1 x) (sliceB bs 20 48)).map (fun p =>
    (fieldB bs 4 4, BitVec.ofNat 256 (fieldB p 0 32)))

/-- The mailbox of a function. -/
def State.mailbox (s : State) (fn : Nat) : Mailbox := amGet {} s.sec.mail fn

/-- R682: a wrapped key under an open session of the function's mailbox. -/
def State.unwrapHost (s : State) (x : Nat) (bs : List Byte) : Option (Nat × BitVec 256) :=
  match (s.mailbox x).sess.find? (fun k => k.done && k.id == fieldB bs 0 4) with
  | none => none
  | some k => unwrapKey (k.wrapKey x) x bs

/-- R681: the identity of a weight key. -/
def keyIdent (key : BitVec 256) : BitVec 256 :=
  let label : List Byte := [0x4F, 0x43, 0x46, 0x2D, 0x57, 0x4B, 0x49, 0x44]
  BitVec.ofNat 256 (leNat ((leBytes 32 (Config.sha3 (label ++ leBytes 32 key.toNat)).toNat).take 16))

/-- Insert a key in ascending generation. -/
def insKey (k : WKey) : List WKey → List WKey
  | [] => [k]
  | j :: t => if k.gen < j.gen then k :: j :: t else j :: insKey k t

/-- R683: a key is installed, replacing the lowest unused of four: the status and the state. -/
def State.installWKey (s : State) (x gen : Nat) (key : BitVec 256) : Nat × State :=
  let ks := (s.cx x).wkeys
  let put := fun (ks : List WKey) =>
    (OK, (s.modCx x (fun y => { y with wkeys := insKey ⟨gen, key, keyIdent key⟩ ks })).dinc SC_CNT_WKEY 1)
  if ks.any (fun k => k.gen == gen) then (DENIED, s)
  else if ks.length < 4 then put ks
  else
    match ks.find? (fun k => !(s.wt.shards.any (fun h => h.ctx == x && h.host.isSome && h.gen == k.gen))) with
    | some old => put (ks.filter (fun k => k.gen != old.gen))
    | none => (QUOTA, s)

/-! ### RELAY (R436, R587, R684) -/

/-- n bytes that the device reads from host memory without an operand that tells them: free values (assumption 51). -/
def State.hostBytes (s : State) (n : Nat) : List Byte × State :=
  (upFrom 0 ((n + 7) / 8)).foldl (fun r _ => let f := r.2.free; (r.1 ++ leBytes 8 f.1.toNat, f.2)) ([], s)

/-- R684: the wrapped key that goes with a relayed WKEY_INSTALL: read, unwrapped, and wrapped again for the worker. -/
def State.rewrap (s : State) (x dst : Nat) (inner : List Byte) : Option (List Byte × State) :=
  if s.inHostWin x (fieldB inner 32 8) 68 = false then none
  else
    let r := s.hostBytes 68
    let bs := sliceB r.1 0 68
    match r.2.unwrapHost x bs, r.2.session dst with
    | some (gen, key), some m =>
      if m.done = false then none
      else
        let d := r.2.draw
        let head := leBytes 4 0xFFFFFFFF ++ leBytes 4 gen
        let iv := (leBytes 32 d.1.toNat).take 12
        let ct := Config.seal m.key (iv ++ head ++ leBytes 1 (fieldB inner 3 1)) (leBytes 32 key.toNat)
        some (head ++ iv ++ sliceB ct 0 48, d.2)
    | _, _ => none

/-- R436, R587: the inner packet is sent to its worker. -/
def State.sendRelay (s : State) (x : Nat) (k : Cmd) (extra : List Byte) : State :=
  let slice := if x = 0 then 0 else (s.sliceOf x).getD 0
  let id := s.rv.relayN % 2 ^ 32
  let tmo := 1000 * bits (s.dr (cxReg MG_CX_CTRL x)) 36 21
  let r : Relayed := { id := id, ctx := x, seq := k.seq, chip := k.f 16 2, until_ := s.timebase + tmo }
  let s : State := { s with rv := { s.rv with relayed := s.rv.relayed ++ [r], relayN := s.rv.relayN + 1 } }
  s.sendMgmt (k.f 16 2) (leBytes 1 tagRelay ++ leBytes 1 slice ++ leBytes 2 0 ++ leBytes 4 id
    ++ sliceB k.pkt 32 (16 * k.f 40 2) ++ extra)

/-- R587: RELAY. The relay of a weight key waits for the random source and for the host. -/
def execRelay (x : Ctx) (s : State) : Res :=
  opcodeWhen x 0x0704 s (fun k => k.f 32 2 == 0x0903 && (s.rngFail || !(s.mayMaster x.val))) noCount
    (fun k => [(decide (4095 < k.f 16 2), 16)]) (fun k s =>
      if bit (s.dr (LK_RT_ENT + 8 * k.f 16 2)) 20 = false then s.reply x.val k EXTENT
      else if k.f 32 2 = 0x0903 ∧ k.f 48 4 = 68 then
        match s.rewrap x.val (k.f 16 2) (k.pkt.drop 32) with
        | some r => r.2.sendRelay x.val k r.1
        | none => s.reply x.val k DENIED
      else s.sendRelay x.val k [])

/-! ### Diagnostics (R529, R588) -/

/-- R566: DEV_STATUS. -/
def execDevStatus (x : Ctx) (s : State) : Res :=
  opcodeRow x 0x0801 s noCount noFields (fun k s =>
    s.reply x.val k OK (leBytes 1 s.stage ++ leBytes 1 s.role ++ leBytes 2 s.lcState
      ++ leBytes 2 (wrapInt 16 (sgn 8 (bits (s.dr PW_THERM) 7 0))) ++ leBytes 2 (bits (s.dr PW_STATUS) 31 16)
      ++ leBytes 4 293888 ++ leBytes 4 952650))

/-- R588: whether context x may read a device register. -/
def State.mayRead (s : State) (x a : Nat) : Bool :=
  x == 0 || (match clBlock a with | some (c, _) => bit (s.cx x).quota.clmask c.val | none => false)
    || (decide (cxReg MG_CX_CTRL x ≤ a) && decide (a < cxReg MG_CX_CTRL x + 0x1000))

/-- R218, R588: REG_READ. -/
def execRegRead (x : Ctx) (s : State) : Res :=
  opcodeRow x 0x0802 s noCount (fun k => [(decide (k.f 24 8 % 8 ≠ 0), 24)]) (fun k s =>
    if s.mayRead x.val (k.f 24 8) then
      let r := s.devRead (k.f 24 8)
      r.2.reply x.val k OK (leBytes 8 r.1.toNat)
    else s.reply x.val k DENIED)

/-- R218, R588: REG_WRITE. -/
def execRegWrite (x : Ctx) (s : State) : Res :=
  opcodeRow x 0x0803 s noCount (fun k => [(decide (k.f 24 8 % 8 ≠ 0), 24)]) (fun k s =>
    (s.devWrite .firmware (k.f 24 8) (k.f 16 8)).reply x.val k OK)

/-- R529, R588: US_PAIR writes MG_US_CTRL. -/
def execUsPair (x : Ctx) (s : State) : Res :=
  opcodeRow x 0x0804 s noCount
    (fun k => [(decide (15 < k.f 16 1), 16), (decide (4095 < k.f 18 2), 18), (decide (3 < k.f 20 1), 20)]) (fun k s =>
      (s.writeUsCtrl (k.f 20 1 + place 13 2 (k.f 18 2) + place 17 14 (k.f 16 1))).reply x.val k OK)

end Sys2Proof.Machine
end

