-- ==== Sys2Proof/Machine/SecurityCmds.lean ====
section
/-! DEFINITION. Sys2Proof/Machine/SecurityCmds.lean: the opcodes of families 0x09 and 0x0A (R589, R650, R651, R656 to R658, R674 to
R678, R682, R691, R692) and the health tests of the random source (R666). -/

namespace Sys2Proof.Machine

/-! ### Identity and attestation (R676 to R678) -/

/-- R676: IDENTITY writes both certificates. A buffer too small is answered EXTENT. -/
def execIdentity (x : Ctx) (s : State) : Res :=
  opcodeRow x 0x0901 s noCount noFields (fun k s =>
    if k.f 16 4 < 10880 then s.reply x.val k EXTENT
    else (s.hostWrite x.val (k.f 32 8) (sliceB s.sec.certs 0 10880)).reply x.val k OK (leBytes 4 10880))

/-- R677: one measurement record. -/
def measRec (i kind : Nat) (v : List Byte) : List Byte :=
  leBytes 1 i ++ leBytes 1 kind ++ List.replicate 14 0 ++ sliceB v 0 32

/-- The bytes of a digest. -/
def digestBytes (b : List Byte) : List Byte := leBytes 32 (Config.sha3 b).toNat

/-- R677: the measurement of an index, for context x. -/
def State.measure (s : State) (x i : Nat) : List Byte :=
  let boot := s.dr SC_BOOT
  let y := s.cx x
  match i with
  | 0 => measRec 0 0 (leBytes 32 (Config.fuse 7).toNat)
  | 1 => measRec 1 0 (leBytes 32 s.sec.fwMeas.toNat)
  | 2 => measRec 2 1 (leBytes 4 (bits boot 12 6) ++ leBytes 4 (bits boot 19 13) ++ leBytes 1 s.sec.floor ++ leBytes 1 s.sec.rootRev
      ++ leBytes 1 (bits boot 0 0) ++ leBytes 1 (bits boot 5 5))
  | 3 => measRec 3 1 (leBytes 1 s.lcState ++ leBytes 1 (b2n s.debugOpen))
  | 4 => measRec 4 1 (leBytes 1 (s.dr MG_SU_STRAP) ++ leBytes 1 s.role ++ leBytes 2 s.chip ++ leBytes 1 s.ringSlice)
  | 5 =>
    let m := y.progs.foldl (fun m g => amIns m g.id g.prog) ([] : List (Nat × List Byte))
    measRec 5 0 (digestBytes (m.flatMap (·.2)))
  | 6 => measRec 6 0 (s.wts x)
  | _ => measRec 7 0 (digestBytes (y.wkeys.flatMap (fun w => leBytes 4 w.gen ++ leBytes 16 w.ident.toNat)))

/-- R678: the attestation report of context x over a nonce. -/
def State.attestReport (s : State) (x : Nat) (nonce : List Byte) : List Byte :=
  let m := leBytes 2 1 ++ leBytes 1 8 ++ leBytes 1 x ++ leBytes 2 s.chip ++ leBytes 2 0 ++ leBytes 8 (Config.fuse 5).toNat
    ++ leBytes 8 s.timebase ++ sliceB nonce 0 32 ++ (List.range 8).flatMap (s.measure x)
  m ++ sliceB (s.sec.attestSign m) 0 3373 ++ List.replicate 3 0

/-- R678: ATTEST. -/
def execAttest (x : Ctx) (s : State) : Res :=
  opcodeRow x 0x0902 s noCount noFields (fun k s =>
    if k.f 16 4 < 3816 then s.reply x.val k EXTENT
    else
      let r := s.attestReport x.val (sliceB k.pkt 32 32)
      ((s.hostWrite x.val (k.f 64 8) r).dinc SC_CNT_ATTEST 1).reply x.val k OK (leBytes 4 3816))

/-- R670, R693, R726: a failure that a command of context x meets in the security element: captured and recorded. -/
def State.scFail (s : State) (x source step off : Nat) : State :=
  let s := s.scErr source step off
  s.logErr { source := 0x10, cls := LOST, cause := source, ctx := some x, status := DENIED, info := word (s.dr SC_ERR) }

/-! ### Weight keys (R682 to R684) -/

/-- R682, R684: what WKEY_INSTALL unwraps: under a session of the host's, or for a relayed one under the session with the
manager, from the bytes sent with it. -/
def State.wkeyOf (s : State) (x : Nat) (k : Cmd) (hostData : List Byte) : Option (Nat × BitVec 256) :=
  match k.origin with
  | none => s.unwrapHost x (sliceB hostData 0 68)
  | some (mgr, _) =>
    let bs := sliceB (k.pkt.drop (16 * pktLen k.pkt)) 0 68
    match s.session mgr with
    | some m => if m.done && fieldB bs 0 4 == 0xFFFFFFFF then unwrapKey m.key x bs else none
    | none => none

/-- R682: WKEY_INSTALL. The generation of the packet must be the wrapped one (assumption 52). -/
def execWkeyInstall (x : Ctx) (hostData : List Byte) (s : State) : Res :=
  opcodeWhen x 0x0903 s (fun k => k.origin.isNone && !(s.mayMaster x.val)) noCount
    (fun k => [(decide (k.f 16 4 ≠ 68), 16)]) (fun k s =>
      if k.origin.isNone && !(s.inHostWin x.val (k.f 32 8) 68) then s.reply x.val k EXTENT
      else if k.origin.isNone && decide (hostData.length < 68) then s.replyPartial x.val k FAULT
      else
        match s.wkeyOf x.val k hostData with
        | none => (s.scFail x.val 4 0 52).reply x.val k DENIED
        | some (gen, key) =>
          if gen ≠ k.f 20 4 then (s.scFail x.val 4 0 4).reply x.val k DENIED
          else
            let r := s.installWKey x.val gen key
            (if r.1 = DENIED then r.2.scFail x.val 4 0 4 else r.2).reply x.val k r.1)

/-! ### Firmware (R670, R674) -/

/-- R674: an image that passes is written into the slot that is not ACTIVE and waits for its first boot. -/
def State.storeImage (s : State) (b : List Byte) : State :=
  let k := s.sec
  let k := if k.active = 0 then { k with slotB := b } else { k with slotA := b }
  { s with sec := { k with pend := true, tries := 0 } }

/-- R674: a firmware image is checked, and stored if it passes: the failing check. -/
def State.updateImage (s : State) (b : List Byte) : Bool × State :=
  match s.sec.verifyImage b with
  | some (st, off) =>
    let s := s.scFail 0 2 st off
    (false, if st = 3 then s.dinc SC_CNT_SIGFAIL 1 else s)
  | none => (true, s.storeImage b)

/-- R674: FW_UPDATE. -/
def execFwUpdate (x : Ctx) (hostData : List Byte) (s : State) : Res :=
  opcodeWhen x 0x0904 s (fun _ => !(s.mayMaster x.val)) noCount noFields (fun k s =>
    let n := k.f 16 4
    if s.inHostWin 0 (k.f 32 8) n = false then s.reply x.val k EXTENT
    else if hostData.length < n then s.replyPartial x.val k FAULT
    else if n ≠ imgLen hostData + 5440 then s.replyMal x.val k 16
    else
      let r := s.updateImage (hostData.take n)
      r.2.reply x.val k (if r.1 then OK else DENIED))

/-! ### The life cycle (R656 to R658, R691, R692) -/

/-- R566, R656: LC_QUERY. -/
def execLcQuery (x : Ctx) (s : State) : Res :=
  opcodeRow x 0x0A01 s noCount noFields (fun k s => s.reply x.val k OK (leBytes 1 s.lcState))

/-- R657: who must sign a transition: false Milaro, true the owner; none where it does not exist. -/
def lcSigners (from_ target : Nat) : Option (List Bool) :=
  match from_, target with
  | 0, 1 => some [false]
  | 1, 2 => some [false]
  | 2, 3 => some [true, false]
  | 2, 4 => some [true]
  | 3, 4 => some [false]
  | _, _ => none

/-- R692: whether signer block i of an authorisation is by the party required; the second tells whether its signatures verify. -/
def State.lcBlock (s : State) (a : List Byte) (i : Nat) (owner : Bool) : Bool × Bool :=
  let b := sliceB (a.drop (48 + 5376 * i)) 0 5376
  let dig := Config.sha3 (sliceB b 0 1984)
  let who := if owner then s.sec.owner == some dig
    else (List.range 4).any (fun k => !(bit s.sec.rootRev k) && dig == Config.fuse k)
  (who && fieldB b 5357 19 == 0, Config.verify (sliceB b 0 1984) (sliceB a 0 48 ++ sliceB b 1984 3373))

/-- R692: the offset at which an authorisation fails, and whether a signature pair did; none if it passes. -/
def State.lcFails (s : State) (a : List Byte) (target : Nat) : Option (Nat × Bool) :=
  let newOwner := fieldB a 12 32
  match lcSigners s.lcState target with
  | none => some (3, false)
  | some who =>
    let blocks := ((upFrom 0 who.length).zip who).map (fun p => s.lcBlock a p.1 p.2)
    if fieldB a 0 2 ≠ 1 then some (0, false)
    else if fieldB a 2 1 ≠ s.lcState then some (2, false)
    else if fieldB a 3 1 ≠ target then some (3, false)
    else if fieldB a 4 8 ≠ (Config.fuse 5).toNat % 2 ^ 64 then some (4, false)
    else if (decide (newOwner = 0)) == decide (s.lcState = 1 ∧ target = 2) then some (12, false)
    else if fieldB a 44 4 ≠ who.length then some (44, false)
    else if blocks.all (·.1) = false then some (48, false)
    else if blocks.all (·.2) = false then some (48, true)
    else none

/-- R658: the new state is fused, the flash key made anew, and a warm reset performed. -/
def State.changeLc (s : State) (a : List Byte) (target : Nat) : State :=
  let owner := if target = 2 then some (BitVec.ofNat 256 (fieldB a 12 32)) else s.sec.owner
  let s : State := { s with sec := { s.sec with lc := target, owner := owner } }
  s.newFlashKey.warmReset 5

/-- R657, R658, R692: LC_CHANGE. -/
def execLcChange (x : Ctx) (hostData : List Byte) (s : State) : Res :=
  opcodeWhen x 0x0A02 s (fun _ => s.rngFail || !(s.mayMaster x.val)) noCount noFields (fun k s =>
    let n := k.f 20 4
    let target := k.f 16 1
    let nsig := fieldB hostData 44 4
    let refuse := fun (s : State) (off : Nat) => (s.scFail x.val 3 0 off).reply x.val k DENIED
    if (lcSigners s.lcState target).isNone then refuse s 3
    else if s.inHostWin x.val (k.f 32 8) n = false then s.reply x.val k EXTENT
    else if hostData.length < n then s.replyPartial x.val k FAULT
    else if nsig < 1 ∨ 2 < nsig ∨ n ≠ 48 + 5376 * nsig then s.replyMal x.val k 20
    else
      match s.lcFails hostData target with
      | some (off, sig) => refuse (if sig then s.dinc SC_CNT_SIGFAIL 1 else s) off
      | none => (s.reply x.val k OK).changeLc hostData target)

/-! ### Resets (R589, R647, R650, R651) -/

/-- A RESET of the kinds that a row serves. -/
def resetRow (x : Ctx) (s : State) (kind : Nat → Bool) (bad : Cmd → List (Bool × Nat)) (f : Cmd → State → State) : Res :=
  match s.nextCmd x.val with
  | some k => if k.op = 0x0A03 ∧ kind (k.f 16 1) then opcodeRow x 0x0A03 s noCount bad f else waits s
  | none => waits s

/-- R589, R647: RESET kind 1 replies and then performs a warm reset. A kind that does not exist is answered here. -/
def execResetWarm (x : Ctx) (s : State) : Res :=
  resetRow x s (fun n => n != 2 && n != 3) (fun k => [(decide (k.f 16 1 ≠ 1), 16)]) (fun k s =>
    (s.reply x.val k OK).warmReset 1)

/-- R589, R650: RESET kind 2. -/
def execResetCluster (x : Ctx) (s : State) : Res :=
  resetRow x s (fun n => n == 2) (fun k => [(decide (39 < k.f 18 2), 18)]) (fun k s =>
    match toCl (k.f 18 2) with
    | none => s
    | some c =>
      if x.val ≠ 0 ∧ bit (s.cx x.val).quota.clmask c.val = false then s.reply x.val k DENIED
      else s.resetCluster c ABANDONED)

/-- R589, R651: RESET kind 3. -/
def execResetLink (x : Ctx) (s : State) : Res :=
  resetRow x s (fun n => n == 3) (fun k => [(decide (7 < k.f 18 2), 18)]) (fun k s => s.resetPort (k.f 18 2))

/-! ### The random source (R666, R694) -/

/-- R666: a health test of the random source fails. -/
def execRngHealthFail (s : State) : Res :=
  .next ((s.dwf SC_STATUS 0 0 1).dinc SC_CNT_RNGFAIL 1)

/-- R666: the health tests pass again. -/
def execRngHealthRecover (s : State) : Res := .next (s.dwf SC_STATUS 0 0 0)

end Sys2Proof.Machine
end

