-- ==== Sys2Proof/Machine/Spdm.lean ====
section
/-! DEFINITION. Sys2Proof/Machine/Spdm.lean: the DOE mailboxes and SPDM 1.3 on them (R606, R607, R679, R680). What the published
standards give of the objects is presumed from them (assumption 53); what published algorithms compute stands for itself
(assumption 16). -/

namespace Sys2Proof.Machine

/-! ### Mailboxes (R606) -/

/-- Store the mailbox of a function. -/
def State.setMailbox (s : State) (fn : Nat) (m : Mailbox) : State := { s with sec := { s.sec with mail := amIns s.sec.mail fn m } }

/-- R704: whether the mailbox of a function is served; it waits while the security element has no clock. -/
def State.doeLive (s : State) (fn : Nat) : Bool := s.fnLive fn && s.stage != 0 && !(s.domStopped 56)

/-- The DOE control register of a function in its configuration space; bit 1 enables the interrupt. -/
def doeCtl : Nat := 0x308

/-- R602, R606: an object is placed in a mailbox; the PF tells it by vector 63 when its interrupt is enabled. -/
def State.doeAnswer (s : State) (fn : Nat) (m : Mailbox) (obj : List Byte) : State :=
  let s : State := { s.setMailbox fn { m with resp := obj } with busData := obj }
  if fn = 0 ∧ bit (amGet 0 s.pcie.cfg doeCtl) 1 then s.msixSend 0 63 else s

/-- R606: a DOE Discovery request: vendor, type and next index of each object type. -/
def execDoeDiscovery (fn : Fn) (index : Byte) (s : State) : Res :=
  let i := index.toNat
  let obj := if i ≤ 2 then leBytes 2 1 ++ leBytes 1 i ++ leBytes 1 (if i = 2 then 0 else i + 1) else leBytes 2 0xFFFF ++ leBytes 2 0
  whenever s (s.doeLive fn.val) (s.doeAnswer fn.val (s.mailbox fn.val) obj)

/-! ### Messages (R679) -/

/-- The header of an SPDM 1.3 message. -/
def spdmHdr (code p1 p2 : Nat) : List Byte := leBytes 1 0x13 ++ leBytes 1 code ++ leBytes 1 p1 ++ leBytes 1 p2

/-- An ERROR message. -/
def spdmError (e : Nat) : List Byte := spdmHdr 0x7F e 0

def errInvalidRequest : Nat := 0x01
def errInvalidSession : Nat := 0x02
def errUnexpected : Nat := 0x04
def errDecrypt : Nat := 0x06
def errUnsupported : Nat := 0x07
def errSessionLimit : Nat := 0x0A

/-- The meaning of a request outside a session: served when the connection is as far as the row needs, else answered with
UnexpectedRequest. -/
def spdmRow (fn : Fn) (s : State) (conn : Nat → Bool) (f : Mailbox → State → State) : Res :=
  let m := s.mailbox fn.val
  whenever s (s.doeLive fn.val)
    (if conn m.conn then f m s else s.doeAnswer fn.val m (spdmError errUnexpected))

/-- R679: GET_VERSION begins a connection; version 1.3 only. -/
def execGetVersion (fn : Fn) (s : State) : Res :=
  spdmRow fn s (fun _ => true) (fun m s =>
    let obj := leBytes 1 0x10 ++ leBytes 1 0x04 ++ leBytes 2 0 ++ leBytes 1 0 ++ leBytes 1 1 ++ leBytes 2 0x1300
    s.doeAnswer fn.val { conn := 1, log := obj, next := m.next } obj)

/-- R679: the capability flags: CHAL, MEAS with signature, ENCRYPT, MAC, KEY_EX, HBEAT, KEY_UPD, PUB_KEY_ID. -/
def spdmCaps : Nat := 2 ^ 2 + 2 ^ 4 + 2 ^ 6 + 2 ^ 7 + 2 ^ 9 + 2 ^ 13 + 2 ^ 14 + 2 ^ 16

/-- R679: GET_CAPABILITIES. -/
def execGetCapabilities (fn : Fn) (s : State) : Res :=
  spdmRow fn s (fun c => c == 1) (fun m s =>
    let obj := spdmHdr 0x61 0 0 ++ leBytes 4 0 ++ leBytes 4 spdmCaps ++ leBytes 4 65536 ++ leBytes 4 65536
    s.doeAnswer fn.val { m with conn := 2, log := m.log ++ obj } obj)

/-- R679: NEGOTIATE_ALGORITHMS: SHA3_256, Ed25519, secp384r1, AES-256-GCM. -/
def execNegotiateAlgorithms (fn : Fn) (s : State) : Res :=
  spdmRow fn s (fun c => c == 2) (fun m s =>
    let obj := spdmHdr 0x63 2 0 ++ leBytes 2 52 ++ leBytes 1 1 ++ leBytes 1 0 ++ leBytes 4 (2 ^ 4) ++ leBytes 4 (2 ^ 10) ++ leBytes 4 (2 ^ 3)
      ++ List.replicate 12 0 ++ leBytes 4 0 ++ leBytes 4 (0x1002 + 2 ^ 20) ++ leBytes 4 (0x2003 + 2 ^ 17)
    s.doeAnswer fn.val { m with conn := 3, log := m.log ++ obj } obj)

/-- R680: the Ed25519 signature of a message and, as one OpaqueData element, its ML-DSA-65 signature. -/
def State.spdmSign (s : State) (m : List Byte) : List Byte :=
  let sig := sliceB (s.sec.attestSign m) 0 3373
  leBytes 2 3312 ++ leBytes 2 0x1F9E ++ leBytes 1 1 ++ sig.drop 64 ++ sig.take 64

/-- A signed response, over the transcript, what the request adds and the response. -/
def State.signedAnswer (s : State) (fn : Nat) (m : Mailbox) (req obj : List Byte) : State :=
  let full := obj ++ s.spdmSign (m.log ++ req ++ obj)
  (s.doeAnswer fn { m with log := m.log ++ req ++ full } full).dinc SC_CNT_ATTEST 1

/-- R680: CHALLENGE. It waits for the random source (R666). -/
def execChallenge (fn : Fn) (nonce : BitVec 256) (s : State) : Res :=
  if s.rngFail then waits s
  else
    spdmRow fn s (fun c => c == 3) (fun m s =>
      let n := s.draw
      let meas := digestBytes ((List.range 8).flatMap (s.measure fn.val))
      n.2.signedAnswer fn.val m (leBytes 32 nonce.toNat) (spdmHdr 0x03 15 0 ++ certKeyDigest (attCert s.sec.certs)
        ++ leBytes 32 n.1.toNat ++ meas))

/-- R677, R679: one measurement block in DMTF format. -/
def State.measBlock (s : State) (x i : Nat) : List Byte :=
  let r := s.measure x i
  let v := r.drop 16
  leBytes 1 i ++ leBytes 1 1 ++ leBytes 2 (3 + v.length) ++ leBytes 1 (if fieldB r 1 1 = 0 then 1 else 0x81) ++ leBytes 2 v.length ++ v

/-- R680: GET_MEASUREMENTS: the block of an index, all of them for 255; any other index is invalid. -/
def execGetMeasurements (fn : Fn) (index : Fin 256) (nonce : BitVec 256) (s : State) : Res :=
  if s.rngFail then waits s
  else
    spdmRow fn s (fun c => c == 3) (fun m s =>
      let is := if index.val = 255 then List.range 8 else if index.val < 8 then [index.val] else []
      if is.isEmpty then s.doeAnswer fn.val m (spdmError errInvalidRequest)
      else
        let n := s.draw
        let rec_ := is.flatMap (s.measBlock fn.val)
        n.2.signedAnswer fn.val m (leBytes 32 nonce.toNat) (spdmHdr 0x60 0 0 ++ leBytes 1 is.length ++ leBytes 3 rec_.length ++ rec_
          ++ leBytes 32 n.1.toNat))

/-! ### Sessions (R679) -/

/-- R679, R680: KEY_EXCHANGE opens one of up to four sessions. -/
def execKeyExchange (fn : Fn) (reqSession : BitVec 16) (pub : BitVec 776) (hbeat : Bool) (s : State) : Res :=
  if s.rngFail then waits s
  else
    spdmRow fn s (fun c => c == 3) (fun m s =>
      if 4 ≤ m.sess.length then s.doeAnswer fn.val m (spdmError errSessionLimit)
      else
        let n := s.draw
        let e := n.2.draw
        let own := leBytes 97 (Config.derive useEcdhPub (leBytes 32 e.1.toNat)).toNat
        let obj := spdmHdr 0x64 (b2n hbeat) 0 ++ leBytes 2 m.next ++ leBytes 2 0 ++ leBytes 32 n.1.toNat ++ own
        let req := leBytes 2 reqSession.toNat ++ leBytes 97 pub.toNat
        let full := obj ++ e.2.spdmSign (m.log ++ req ++ obj)
        let k : SpdmSess := { id := reqSession.toNat + 65536 * m.next, hbeat := hbeat, seen := s.timebase, th := m.log ++ req ++ full
                              secret := Config.derive useEcdh (leBytes 32 e.1.toNat ++ leBytes 97 pub.toNat) }
        (e.2.doeAnswer fn.val { m with sess := m.sess ++ [k], next := m.next % 65535 + 1 } full).dinc SC_CNT_ATTEST 1)

/-- A message of a session: served in one that is there, and as far as the row needs; it counts as its heartbeat. -/
def sessRow (fn : Fn) (session : Nat) (done : Bool) (s : State) (f : Mailbox → SpdmSess → State → State) : Res :=
  let m := s.mailbox fn.val
  whenever s (s.doeLive fn.val)
    (match m.sess.find? (fun k => k.id == session && k.done == done) with
     | none => s.doeAnswer fn.val m (spdmError errInvalidSession)
     | some k => f m { k with seen := s.timebase } s)

/-- The mailbox with a session changed. -/
def Mailbox.setSess (m : Mailbox) (k : SpdmSess) : Mailbox := { m with sess := updFirst (fun j => j.id == k.id) (fun _ => k) m.sess }

/-- The mailbox without a session. -/
def Mailbox.dropSess (m : Mailbox) (id : Nat) : Mailbox := { m with sess := m.sess.filter (fun j => j.id != id) }

/-- The HMAC of FINISH under a session's finished key. -/
def SpdmSess.finMac (k : SpdmSess) : BitVec 256 := Config.derive useSpdmFin (leBytes 32 k.secret.toNat ++ k.th)

/-- R679: FINISH completes a session whose HMAC verifies; another ends it. -/
def execFinish (fn : Fn) (session : BitVec 32) (mac : BitVec 256) (s : State) : Res :=
  sessRow fn session.toNat false s (fun m k s =>
    if mac = k.finMac then s.doeAnswer fn.val (m.setSess { k with done := true, th := k.th ++ leBytes 32 mac.toNat }) (spdmHdr 0x65 0 0)
    else s.doeAnswer fn.val (m.dropSess k.id) (spdmError errDecrypt))

/-- R679: KEY_UPDATE updates the requester's key, or both. -/
def execKeyUpdate (fn : Fn) (session : BitVec 32) (both : Bool) (s : State) : Res :=
  sessRow fn session.toNat true s (fun m k s =>
    s.doeAnswer fn.val (m.setSess { k with reqGen := k.reqGen + 1, rspGen := k.rspGen + b2n both })
      (spdmHdr 0x69 (if both then 2 else 1) 0))

/-- R679: HEARTBEAT. -/
def execHeartbeat (fn : Fn) (session : BitVec 32) (s : State) : Res :=
  sessRow fn session.toNat true s (fun m k s =>
    if k.hbeat then s.doeAnswer fn.val (m.setSess k) (spdmHdr 0x68 0 0)
    else s.doeAnswer fn.val (m.setSess k) (spdmError errUnexpected))

/-- R679: END_SESSION. -/
def execEndSession (fn : Fn) (session : BitVec 32) (s : State) : Res :=
  sessRow fn session.toNat true s (fun m k s => s.doeAnswer fn.val (m.dropSess k.id) (spdmHdr 0x6C 0 0))

/-- R607, R608: VENDOR_DEFINED_REQUEST for IDE_KM: the key of the function's Selective IDE stream is installed and the stream secure. -/
def execVendorDefinedRequest (fn : Fn) (session : BitVec 32) (key : BitVec 256) (s : State) : Res :=
  sessRow fn session.toNat true s (fun m k s =>
    let s : State := { s with pcie := { s.pcie with ide := amIns s.pcie.ide fn.val (1, key) } }
    s.doeAnswer fn.val (m.setSess k) (spdmHdr 0x7E 0 0))

/-- R679: a request that is not supported. -/
def execSpdmUnsupportedRequest (fn : Fn) (code : Byte) (s : State) : Res :=
  whenever s (s.doeLive fn.val) (s.doeAnswer fn.val (s.mailbox fn.val) (spdmHdr 0x7F errUnsupported code.toNat))

/-- R679: the heartbeat period of a session passes without a message: it is terminated. The period is open (assumption 54). -/
def execSpdmHeartbeatTimeout (fn : Fn) (session : BitVec 32) (s : State) : Res :=
  let m := s.mailbox fn.val
  whenever s (m.sess.any (fun k => k.id == session.toNat && k.hbeat && k.done)) (s.setMailbox fn.val (m.dropSess session.toNat))

end Sys2Proof.Machine
end

