-- ==== Sys2Proof/Machine/Pcie.lean ====
section
/-! DEFINITION. Sys2Proof/Machine/Pcie.lean: the PCI Express link, configuration space, BARs, MSI-X, errors and IDE as the host meets
them (R592 to R615). -/

namespace Sys2Proof.Machine

/-! ### Power states and held requests (R605, R611) -/

/-- R605: a held request of a function goes out. -/
def State.sendHeld (s : State) (h : HeldWrite) : State :=
  match h.vec with
  | some v => { s with pcie := { s.pcie with sent := s.pcie.sent ++ [(h.fn, v)] } }
  | none => { s with hostMem := amSetMany 0 s.hostMem h.addr h.data }

/-- R605: the held requests of a function go out in their order, if it may send them. -/
def State.releaseHeld (s : State) (fn : Nat) : State :=
  if s.mayMaster fn then
    let out := s.pcie.held.filter (fun h => h.fn == fn)
    let s : State := { s with pcie := { s.pcie with held := s.pcie.held.filter (fun h => h.fn != fn) } }
    out.foldl State.sendHeld s
  else s

/-- Bit n of a mask set to a value. -/
def putBit (m n : Nat) (v : Bool) : Nat := setBits m n n (b2n v)

/-- R605: Bus Master Enable of a function is written. -/
def State.setBme (s : State) (fn : Nat) (v : Bool) : State :=
  ({ s with pcie := { s.pcie with bme := putBit s.pcie.bme fn v } } : State).releaseHeld fn

/-- R611: a function changes between D0 and D3hot. -/
def State.setDState (s : State) (fn : Nat) (d : DState) : State :=
  ({ s with pcie := { s.pcie with dstate := amSet .d0 s.pcie.dstate fn d } } : State).releaseHeld fn

/-! ### MSI-X (R602) -/

/-- R602: the pending message of a vector is sent once nothing masks it. -/
def State.msixFlush (s : State) (fn v : Nat) : State :=
  if s.pcie.pba.contains (64 * fn + v) then
    ({ s with pcie := { s.pcie with pba := nsDel s.pcie.pba (64 * fn + v) } } : State).msixSend fn v
  else s

/-- Every pending message of a function. -/
def State.msixFlushAll (s : State) (fn : Nat) : State := (List.range 64).foldl (fun s v => s.msixFlush fn v) s

/-- Store the table entry of a vector. -/
def State.setMsixEnt (s : State) (fn v e : Nat) : State :=
  ({ s with pcie := { s.pcie with table := amSet (2 ^ 96) s.pcie.table (64 * fn + v) (e % 2 ^ 97) } } : State).msixFlush fn v

/-- R602: the mask of a vector is lifted. -/
def execMsixUnmask (fn : Fn) (vec : Fin 64) (s : State) : Res :=
  whenever s (s.fnLive fn.val) (s.setMsixEnt fn.val vec.val (setBits (s.msixEnt fn.val vec.val) 96 96 0))

/-! ### The link (R592, R593) -/

/-- R593: the link has a rate. -/
def State.linkIsUp (s : State) : Bool := bits (s.dr PC_LINK_STATUS) 2 0 != 0

/-- R704: whether the PCI Express block is stopped for want of lock. -/
def State.pcieStopped (s : State) : Bool := s.domStopped 48 || s.domStopped 49

/-- Rates and widths that the link can train to (R592), at a time when it may (R758): FLIT mode always at 64 GT/s. -/
def State.canTrain (s : State) (rate width : Nat) (flit : Bool) : Bool :=
  if rate = 0 then true
  else s.pw.on && s.pcie.perst && decide (s.boot.base + 20000000 ≤ s.pw.uptime) && [1, 2, 4, 8].contains width && (rate != 6 || flit)

/-- R593: the link's rate, width or mode changes: shown, and told by a link event on context 0's ring. A retraining of a link that is up is counted. -/
def execPcieLinkChange (rate : Fin 7) (width : Fin 9) (flit : Bool) (s : State) : Res :=
  let old := s.dr PC_LINK_STATUS
  let new := if rate.val = 0 then 0 else rate.val + place 6 3 width.val + place 7 7 (b2n flit)
  if s.canTrain rate.val width.val flit = false ∨ new = bits old 7 0 then waits s
  else
    let s := s.dw PC_LINK_STATUS (setBits (setBits old 7 0 new) 8 8 1)
    let s := if bits old 2 0 ≠ 0 ∧ rate.val ≠ 0 then s.dinc PC_CNT_RETRAIN 1 else s
    .next (s.event 0 9 0 s.timebase (leBytes 1 0 ++ leBytes 1 new ++ leBytes 1 (b2n (rate.val != 0)) ++ leBytes 1 1))

/-! ### Virtual functions (R595 to R597) -/

/-- Whether configuration requests are completed (R609). -/
def State.cfgOpen (s : State) : Bool := s.linkIsUp && !(bit (s.dr PC_LINK_STATUS) 9)

/-- R596, R597: VF Enable is written. -/
def State.writeVfe (s : State) (v : Bool) : State :=
  if v then
    if s.pcie.ari && s.pcie.numVfs != 0 then { s with pcie := { s.pcie with vfe := true } } else s
  else if s.pcie.vfe then s.dropVfs
  else s

/-- R596: NumVFs is written; TotalVFs is 15. -/
def State.writeNumVfs (s : State) (n : Nat) : State :=
  if s.pcie.vfe then s else { s with pcie := { s.pcie with numVfs := n % 2 ^ 16 } }

/-- R596: a write of VF Enable. -/
def execVfEnableWrite (val : Bool) (s : State) : Res := whenever s s.cfgOpen (s.writeVfe val)

/-- R596: a write of NumVFs. -/
def execNumvfsWrite (n : BitVec 16) (s : State) : Res := whenever s s.cfgOpen (s.writeNumVfs n.toNat)

/-! ### Configuration space (R609, R612, R613)
Where the standard gives the places of its registers, they are presumed from it (assumption 12). -/

/-- Registers that hold what is written: offset, the bits that a write sets, the bits that a write of one clears, the reset value. -/
def cfgStored : List (Nat × Nat × Nat × Nat) := [
  (0x3C, 0xFF, 0, 0), (0x78, 0x71EF, 0xF0000, 0x2000), (0x80, 0x1C3, 0, 0), (0x98, 0x101F, 0, 0), (0xA0, 0xF, 0, 6),
  (0x104, 0, 0x462010, 0), (0x108, 0x5FF030, 0, 0x400000), (0x10C, 0x5FF030, 0, 0x462030), (0x110, 0, 0xF1C1, 0),
  (0x114, 0xF1C1, 0, 0x6000), (0x118, 0x140, 0, 0), (0x220, 0xFFFFFFFF, 0, 1), (0x308, 2, 0, 0)]

/-- The reset value of a stored configuration register. -/
def cfgReset (off : Nat) : Nat := match cfgStored.find? (fun r => r.1 == off) with | some r => r.2.2.2 | none => 0

/-- A stored configuration register. -/
def State.cfgGet (s : State) (fn off : Nat) : Nat := amGet (cfgReset off) s.pcie.cfg (4096 * fn + off)

/-- Store a configuration register. -/
def State.cfgSet (s : State) (fn off v : Nat) : State :=
  { s with pcie := { s.pcie with cfg := amSet (cfgReset off) s.pcie.cfg (4096 * fn + off) v } }

/-- R598: the BARs: offset, logarithm of the size, type bits; those of the PF, and in its SR-IOV capability those of the VFs. -/
def cfgBars : List (Nat × Nat × Nat) :=
  [(0x10, 26, 4), (0x18, 24, 4), (0x20, 36, 12), (0x224, 16, 4), (0x22C, 24, 4), (0x234, 32, 12)]

/-- The writable bits of a doubleword of a BAR, and its type bits. -/
def barMask (off : Nat) : Option (Nat × Nat) :=
  match cfgBars.find? (fun b => b.1 == off || b.1 + 4 == off) with
  | none => none
  | some b => if b.1 = off then some (2 ^ 32 - 2 ^ min b.2.1 32, b.2.2) else some (2 ^ 32 - 2 ^ (b.2.1 - 32), 0)

/-- R613: the extended capabilities of the PF, or of a VF: offset and identifier. -/
def extCaps (pf : Bool) : List (Nat × Nat) :=
  if pf then [(0x100, 0x01), (0x148, 0x03), (0x200, 0x10), (0x240, 0x0E), (0x250, 0x25), (0x260, 0x26), (0x290, 0x2A), (0x2C0, 0x31),
    (0x2D0, 0x27), (0x300, 0x2E), (0x320, 0x30)]
  else [(0x100, 0x01), (0x240, 0x0E), (0x300, 0x2E), (0x320, 0x30)]

/-- The headers of a list of extended capabilities. -/
def extHeaders : List (Nat × Nat) → List (Nat × Nat)
  | [] => []
  | (o, i) :: t => (o, i + 2 ^ 16 + place 31 20 ((t.head?.map (·.1)).getD 0)) :: extHeaders t

/-- R595, R612, R613: the registers of a function that show fixed values or other state. -/
def State.cfgFixed (s : State) (fn : Nat) : List (Nat × Nat) :=
  let pf := fn == 0
  let p := s.pcie
  let serial := (Config.fuse 5).toNat
  let link := s.dr PC_LINK_STATUS
  [(0x00, if pf then 0x40081F9E else 0xFFFFFFFF), (0x04, 0x100000 + 2 * b2n (bit p.mse fn) + 4 * b2n (bit p.bme fn)),
   (0x08, 0x12000000), (0x2C, 0x1F9E + place 31 16 (Config.fuse 8).toNat), (0x34, if pf then 0x40 else 0x70),
   (0x70, 0x2B010), (0x74, 2 ^ 28 + 0x8022), (0x7C, 0x886), (0x94, 0x30017), (0x9C, 0x7E),
   (0x80, s.cfgGet fn 0x80 + place 19 16 (bits link 2 0) + place 25 20 (bits link 6 3)),
   (0xB0, 0x3F0011 + 2 ^ 30 * b2n (bit p.fmask fn) + 2 ^ 31 * b2n (bit p.msixEn fn)), (0xB4, 0x1000), (0xB8, 0x1800)]
   ++ (if pf then
    [(0x40, 0x37001), (0x44, 8 + (if amGet DState.d0 p.dstate 0 = .d3hot then 3 else 0)),
     (0x14C, serial % 2 ^ 32), (0x150, serial / 2 ^ 32 % 2 ^ 32),
     (0x208, b2n p.vfe + s.cfgGet 0 0x208 + 16 * b2n p.ari), (0x20C, 0xF000F), (0x210, p.numVfs), (0x214, 0x10001), (0x218, 0x40090000),
     (0x21C, 0x553)]
    else []) ++ extHeaders (extCaps pf)

/-- The registers that only the PF has. -/
def cfgPfOnly (off : Nat) : Bool := (decide (0x10 ≤ off) && decide (off < 0x28)) || (decide (0x218 < off) && decide (off < 0x240))

/-- R612, R613: what a doubleword of a function's configuration space reads. -/
def State.cfgRead (s : State) (fn off : Nat) : Nat :=
  match (s.cfgFixed fn).find? (fun r => r.1 == off) with
  | some r => r.2
  | none =>
    if cfgPfOnly off && fn != 0 then 0
    else s.cfgGet fn off + (match barMask off with | some m => m.2 | none => 0)

/-- A write of the command register: Memory Space Enable, Bus Master Enable. -/
def State.cfgCommand (s : State) (fn v : Nat) : State :=
  ({ s with pcie := { s.pcie with mse := putBit s.pcie.mse fn (bit v 1) } } : State).setBme fn (bit v 2)

/-- R602: a write of the MSI-X control register. -/
def State.cfgMsix (s : State) (fn v : Nat) : State :=
  ({ s with pcie := { s.pcie with
    msixEn := putBit s.pcie.msixEn fn (bit v 31), fmask := putBit s.pcie.fmask fn (bit v 30) } } : State).msixFlushAll fn

/-- R596: a write of the SR-IOV control register: VF Memory Space Enable, which is that of every VF (assumption 12), ARI Capable
Hierarchy, VF Enable. -/
def State.cfgSriov (s : State) (v : Nat) : State :=
  let was := bit (s.cfgGet 0 0x208) 3
  let s := (s.cfgSet 0 0x208 (8 * b2n (bit v 3))).writeVfe (bit v 0)
  let vfs := if bit v 3 then 0x7FFF else if was then 0 else bits s.pcie.mse 15 1
  { s with pcie := { s.pcie with ari := bit v 4, mse := setBits s.pcie.mse 15 1 vfs } }

/-- A write of a stored register, or of a BAR. -/
def State.cfgPlain (s : State) (fn off v : Nat) : State :=
  match cfgStored.find? (fun r => r.1 == off), barMask off with
  | some r, _ =>
    let old := s.cfgGet fn off
    let full := 2 ^ 32 - 1
    s.cfgSet fn off (Nat.lor (Nat.land v r.2.1) (Nat.land old (full - Nat.lor r.2.1 (Nat.land v r.2.2.1))))
  | none, some m => s.cfgSet fn off (Nat.land v m.1)
  | none, none => s

/-- A write of a doubleword of a function's configuration space. -/
def State.cfgWrite (s : State) (fn off v : Nat) : State :=
  if off = 0x04 then s.cfgCommand fn v
  else if off = 0xB0 then s.cfgMsix fn v
  else if off = 0x44 ∧ fn = 0 then
    (if bits v 1 0 = 0 then s.setDState 0 .d0 else if bits v 1 0 = 3 then s.setDState 0 .d3hot else s)
  else if off = 0x208 ∧ fn = 0 then s.cfgSriov v
  else if off = 0x210 ∧ fn = 0 then s.writeNumVfs v
  else if cfgPfOnly off ∧ fn ≠ 0 then s
  else
    let s := s.cfgPlain fn off v
    if off = 0x78 ∧ bit v 15 then s.flr fn else s

/-- How a host request was completed. -/
def State.complete (s : State) (cpl : Nat) : State := { s with pcie := { s.pcie with cpl := cpl } }

/-- R609: a configuration request: Request Retry Status until the PF's configuration image is loaded. No request comes while the
link is down. -/
def execConfigRequest (fn : Fn) (req : CfgReq) (s : State) : Res :=
  let off := req.offset
  if s.linkIsUp = false ∨ s.pcieStopped ∨ off % 4 ≠ 0 ∨ 4096 ≤ off then waits s
  else if bit (s.dr PC_LINK_STATUS) 9 then .next { s.complete 2 with readData := word 0xFFFF0001 }
  else if s.fnLive fn.val = false then .next (s.complete 1)
  else
    match req.write with
    | none => .next { s.complete 0 with readData := word (s.cfgRead fn.val off) }
    | some v => .next ((s.complete 0).cfgWrite fn.val off v.toNat)

/-- R605: Bus Master Enable is set. -/
def execBusMasterEnable (fn : Fn) (s : State) : Res := whenever s (s.cfgOpen && s.fnLive fn.val) (s.setBme fn.val true)

/-- R611: a function changes its power state; D3cold removes power. -/
def execPowerStateChange (fn : Fn) (dst : DState) (s : State) : Res :=
  match dst with
  | .d3cold => whenever s s.pw.on s.powerOff
  | d => whenever s (s.cfgOpen && s.fnLive fn.val) (s.setDState fn.val d)

/-! ### BARs (R598 to R601, R607, R609) -/

/-- R596, R605, R611: whether a function's memory space is enabled. -/
def State.memOn (s : State) (fn : Nat) : Bool :=
  s.fnLive fn && bit s.pcie.mse fn && amGet DState.d0 s.pcie.dstate fn == .d0

/-- R607: whether a request under the stream, or not under it, is answered. -/
def State.ideOk (s : State) (fn : Nat) (ide : Bool) : Bool :=
  match (amGet (0, 0) s.pcie.ide fn).1 with | 0 => !ide | 1 => ide | _ => false

/-- A memory request of the host to a BAR of 2^size bytes: served as f says, or answered Unsupported Request. -/
def barRow (fn : Nat) (size off bytes : Nat) (ok : Bool) (s : State) (f : State → Res) : Res :=
  if s.linkIsUp = false ∨ s.pcieStopped then waits s
  else if s.stage = 0 || !(s.memOn fn) || !ok || decide (2 ^ size < off + bytes) then .next (s.complete 1)
  else f (s.complete 0)

/-- An access to a reserved place, counted. -/
def State.rsvd (s : State) : State := s.dinc PC_CNT_RSVD 1

/-- The RW fields that a register holds: what a write of one half leaves of the other. -/
def rwFields (fs : List RField) (old : Nat) : Nat :=
  fs.foldl (fun w f => if f.acc = .rw then w + place f.hi f.lo (bits old f.hi f.lo) else w) 0

/-- The value that a write of 4 or 8 bytes at an address presents to the register there. -/
def State.widen (s : State) (a bytes v : Nat) : Nat :=
  if bytes = 8 then v
  else
    let keep := match fieldsIn devRegRows (a / 8 * 8) with | some fs => rwFields fs (s.dr (a / 8 * 8)) | none => 0
    let lo := 8 * (a % 8)
    setBits keep (lo + 31) lo v

/-- R599: the register address of an offset of BAR0, if it is one of registers that may be written. -/
def bar0Reg (fn off : Nat) : Option Nat :=
  if off < 0x1000 then some (cxReg MG_CX_CTRL fn + off)
  else if fn = 0 ∧ 0x2000 ≤ off ∧ off < 0x3000 then some (PC_CTRL + (off - 0x2000))
  else none

/-- R599: the read-only view. -/
def bar0View (fn off : Nat) : Bool := fn == 0 && decide (0x02000000 ≤ off) && decide (off < 0x04000000)

/-- The pending bits of a function. -/
def State.pbaWord (s : State) (fn : Nat) : Nat :=
  (List.range 64).foldl (fun w v => if s.pcie.pba.contains (64 * fn + v) then w + 2 ^ v else w) 0

/-- R599: the doubleword pair that a read of BAR0 finds. -/
def State.bar0Word (s : State) (fn off : Nat) : Word × State :=
  let a := off / 8 * 8
  match bar0Reg fn a with
  | some r => s.devRead r
  | none =>
    if bar0View fn off then s.devRead a
    else if 0x1000 ≤ off ∧ off < 0x1400 then (word (s.msixEnt fn ((off - 0x1000) / 16) / 2 ^ (8 * (a % 16))), s)
    else if a = 0x1800 then (word (s.pbaWord fn), s)
    else (0, s.rsvd)

/-- R599: a write to BAR0. -/
def State.bar0Write (s : State) (fn off bytes v : Nat) : State :=
  match bar0Reg fn off with
  | some r => s.devWrite .firmware (r / 8 * 8) (s.widen r bytes v)
  | none =>
    if 0x1000 ≤ off ∧ off < 0x1400 then
      let n := (off - 0x1000) / 16
      let lo := 8 * (off % 16)
      s.setMsixEnt fn n (setBits (s.msixEnt fn n) (lo + 8 * bytes - 1) lo v)
    else if off / 8 * 8 = 0x1800 then s
    else s.rsvd

/-- R599: an access to BAR0: aligned, of 4 or 8 bytes. At stage 1 only the PF's is served (R609). -/
def execBar0Access (fn : Fn) (off : Nat) (bytes : Nat) (wr : Option Word) (s : State) : Res :=
  let ok := (bytes == 4 || bytes == 8) && off % bytes == 0 && (fn.val == 0 || s.stage != 1)
  barRow fn.val (if fn.val = 0 then 26 else 16) off bytes ok s (fun s =>
    match wr with
    | none =>
      let r := s.bar0Word fn.val off
      .next { r.2 with readData := word (r.1.toNat / 2 ^ (8 * (off % 8)) % 2 ^ (8 * bytes)) }
    | some v => .next (s.bar0Write fn.val off bytes (v.toNat % 2 ^ (8 * bytes))))

/-- R600: whether an offset of BAR2 is in the live window of a context. -/
def liveWin (x off : Nat) : Bool := off / 0x100000 == x

/-- R600: an access to BAR2: the live 1 MiB, or dead. -/
def execBar2Access (fn : Fn) (off : Nat) (bytes : Nat) (wr : Option (List Byte)) (ide : Bool) (s : State) : Res :=
  let x := fn.val
  barRow x 24 off bytes (s.ideOk x ide && (x == 0 || s.stage != 1)) s (fun s =>
    let dead := (upFrom off bytes).any (fun o => !(liveWin x o))
    let s := if dead then s.rsvd else s
    match wr with
    | none => .next { s with busData := (upFrom off bytes).map (fun o => if liveWin x o then amGet 0 (s.cx x).window (o % 0x100000) else 0) }
    | some bs =>
      let put := fun (w : List (Nat × Byte)) => (upFrom 0 bytes).foldl (fun w i =>
        if liveWin x (off + i) then amSet 0 w ((off + i) % 0x100000) (bs.getD i 0) else w) w
      .next (s.modCx x (fun k => { k with window := put k.window, intake := put k.intake })))

/-- R601: where n bytes at an offset of BAR4 lie, page by page. At stage 1 the whole is reserved (R609). -/
def State.bar4Parts (s : State) (x off n : Nat) : List (Nat × Nat × PageRes) :=
  (partsOf off n).map (fun p =>
    let at_ := match (s.cx x).bar4.find? (fun e => e.1 == p.1 / 2097152) with
      | some e => if s.stage = 1 then .outside else s.translate x (e.2 * 2097152 + p.1 % 2097152)
      | none => .outside
    (p.1 - off, p.2, at_))

/-- R601: an access through BAR4. One to a page that is not resident waits, and the page is asked for. -/
def execBar4Access (fn : Fn) (off : Nat) (bytes : Nat) (wr : Option (List Byte)) (ide : Bool) (s : State) : Res :=
  let x := fn.val
  barRow x (if x = 0 then 36 else 32) off bytes (s.ideOk x ide) s (fun t =>
    let ps := t.bar4Parts x off bytes
    match ps.findSome? (fun p => match p.2.2 with | .absent q => some q | _ => none) with
    | some q => .next (s.wantPage x q)
    | none =>
      match wr with
      | none =>
        let r := ps.foldl (fun (r : List Byte × State) p => match p.2.2 with
          | .at_ a _ => (r.1 ++ r.2.hbmRead a p.2.1, r.2)
          | _ => (r.1 ++ List.replicate p.2.1 0, r.2.rsvd)) (([] : List Byte), t)
        .next { r.2 with busData := r.1 }
      | some bs => .next (ps.foldl (fun (s : State) p => match p.2.2 with
          | .at_ a false => s.hbmWrite a (sliceB bs p.1 p.2.1)
          | _ => s.rsvd) t))

/-! ### Errors (R603, R604) -/

/-- R603: an error is logged by AER: its status bit, and for an uncorrectable one the header where none is held. -/
def State.aerLog (s : State) (fn : Nat) (cor : Bool) (b header : Nat) : State :=
  if cor then s.cfgSet fn 0x110 (setBits (s.cfgGet fn 0x110) b b 1)
  else
    let s := if s.cfgGet fn 0x104 = 0 then s.cfgSet fn 0x11C header else s
    s.cfgSet fn 0x104 (setBits (s.cfgGet fn 0x104) b b 1)

/-- R603, R726: the record of a PCI Express error, on the ring of the function's context. -/
def State.pcieRec (s : State) (fn cls cause : Nat) : State :=
  s.logErr { source := 0x0F, cls := cls, cause := cause, unit := fn, ctx := some fn, info := word (s.cfgGet fn 0x11C) }

/-- R603: a correctable error. -/
def State.pcieCor (s : State) (fn b : Nat) : State :=
  let s := (s.aerLog fn true b 0).dinc PC_CNT_CORR 1
  if bit (s.dr PC_CTRL) 0 then s.pcieRec fn CORRECTED 1 else s.dinc (MG_EL_CNT + 8 * 0x0F) 1

/-- R603: a non-fatal or fatal error. -/
def State.pcieUncor (s : State) (fn b header cls cause : Nat) : State :=
  ((s.aerLog fn false b header).dinc PC_CNT_UNCORR 1).pcieRec fn cls cause

/-- The commands that read host memory: a copy, a load of a program, a key, an image, and a life-cycle change. -/
def Cmd.readsHost (k : Cmd) : Bool :=
  ((k.op == 0x0203 || k.op == 0x0301) && needsHost (k.f 32 8)) || [0x0903, 0x0904, 0x0A02].contains k.op

/-- The shard whose load from host memory serves a command. -/
def State.loadOf (s : State) (x seq : Nat) : Option Shard :=
  s.wt.shards.find? (fun h => h.ctx == x && h.cmd == some seq && h.state == .loading && h.fly.isNone)

/-- R603, R604: a command's read of host memory is lost; none if it reads none. -/
def State.loseCmd (s : State) (x : Ctx) (seq : BitVec 32) : Option State :=
  match s.loadOf x.val seq.toNat with
  | some h =>
    match execWtLoadComplete x (BitVec.ofNat 32 h.id) [] s with
    | .next t => some t
    | _ => none
  | none =>
    match (s.cmds x.val).find? (fun k => k.seq == seq.toNat && k.readsHost) with
    | none => none
    | some k => if k.started || s.nextCmd x.val == some k then some (s.replyPartial x.val k FAULT) else none

/-- R603, R604: a device read of host memory by a function's context is lost: its bytes are poisoned, or it faults. -/
def State.loseRead (s : State) (fn : Nat) (v : HostRead) : Option State :=
  if s.mayMaster fn = false then none
  else
    match v with
    | .stream c slot =>
      match (s.cl c).st.xfers.find? (fun y => y.slot == slot.val && s.canEnd c y), (s.cl c).strm slot.val with
      | some y, some x =>
        if (s.cl c).owner = fn ∧ gKind y.addr = 3 ∧ (streamD x.desc).dir = 0 then
          match execStreamTransferComplete c slot [] .hostError s with | .next t => some t | _ => none
        else none
      | _, _ => none
    | .core c =>
      match (s.cl c).core.stall with
      | .hostRead _ _ _ _ _ =>
        if (s.cl c).owner = fn then match execHostReadCompletion c 0 true s with | .next t => some t | _ => none
        else none
      | _ => none
    | .command x seq => if x.val = fn then s.loseCmd x seq else none

/-- R603: a poisoned write to BAR4: the words are written poisoned at their home. -/
def State.poisonBar4 (s : State) (x off n : Nat) : State :=
  (s.bar4Parts x off n).foldl (fun s p => match p.2.2 with
    | .at_ a false => (upFrom (a / 8) ((a % 8 + p.2.1 + 7) / 8)).foldl (fun s w => s.hbmPoison w) s
    | _ => s) s

/-- R603: a PCI Express error. One of no single function is logged in the PF. -/
def execPcieError (fn : Option Fn) (e : PcieError) (header : BitVec 32) (s : State) : Res :=
  let f := match fn with | some f => f.val | none => 0
  let h := header.toNat
  if s.linkIsUp = false ∨ s.fnLive f = false then waits s
  else
    match e with
    | .correctable b => .next (s.pcieCor f b.val)
    | .poisonedBar2 => .next (s.pcieUncor f 12 h LOST 2)
    | .poisonedBar4 off n => .next ((s.poisonBar4 f off n).pcieUncor f 12 h POISON 2)
    | .poisonedRead v => match s.loseRead f v with | some t => .next (t.pcieUncor f 12 h POISON 2) | none => waits s
    | .refusedRead v ca => match s.loseRead f v with | some t => .next (t.pcieUncor f (if ca then 15 else 20) h POISON 2) | none => waits s
    | .protocol b => .next ((s.dinc PC_CNT_RETRAIN 1).pcieUncor f b.val h LOST 3)
    | .internal => .next (s.pcieUncor f 22 h CFAULT 3)

/-- R604: a completion does not come in time. With Completion Timeout Disable the read waits on. -/
def execCompletionTimeout (fn : Fn) (victim : HostRead) (s : State) : Res :=
  if bit (s.cfgGet fn.val 0x98) 4 then waits s
  else match s.loseRead fn.val victim with | some t => .next (t.pcieUncor fn.val 14 0 POISON 2) | none => waits s

/-! ### Integrity and data encryption (R608) -/

/-- Whether a command awaits the host. -/
def Cmd.awaitsHost (k : Cmd) : Bool :=
  k.readsHost || ((k.op == 0x0203 || k.op == 0x0204) && needsHost (k.f 40 8)) || [0x0901, 0x0902].contains k.op

/-- R608: a command that awaits the host ends with FAULT; a load is undone. -/
def State.ideEnd (s : State) (x : Nat) (k : Cmd) : State :=
  match s.loadOf x k.seq with
  | some h =>
    let s := (s.reply x k FAULT).dropFrames h
    let s : State := { s with wt := { s.wt with shards := s.wt.shards.filter (fun y => !(y.same h)) } }
    if h.replaces.isSome then s else (upFrom h.page0 h.pages).foldl (fun s p => s.setPage x p 0) s
  | none => if k.awaitsHost then s.reply x k FAULT else s

/-- R608: the integrity check of a function's stream fails. -/
def execIdeCheckFailure (fn : Fn) (s : State) : Res :=
  let x := fn.val
  if (amGet (0, 0) s.pcie.ide x).1 ≠ 1 then waits s
  else
    let s : State := { s with pcie := { s.pcie with ide := amIns s.pcie.ide x (2, 0) } }
    let s := s.dwf (cxReg MG_CX_CTRL x) 0 0 0
    let s := ((s.cmds x).filter (·.started)).foldl (fun s k => s.ideEnd x k) s
    .next (s.logErr { source := 0x0F, cls := LOST, cause := 4, unit := x, info := word (s.cfgGet x 0x11C) })

end Sys2Proof.Machine
end

