-- ==== Sys2Proof/Machine/Power.lean ====
section
/-! DEFINITION. Sys2Proof/Machine/Power.lean: the power governor, over-current and thermal protection, and the clocks (R28, R29,
R631, R698 to R721). -/

namespace Sys2Proof.Machine

/-! ### What the governor shows (R711, R720, R765) -/

/-- R707: the effective cap that the registers name. -/
def State.effCap (s : State) : Nat := min (bits (s.dr PW_CAP) 10 0) (bits (s.dr PW_RACKCAP) 10 0)

/-- R711: a power event: the effective cap, and whether a limit is in force. -/
def State.powerEvent (s : State) : State :=
  s.event 0 10 0 s.timebase (leBytes 2 s.pw.capNow ++ leBytes 1 (b2n (bits (s.dr PW_GOV_STATUS) 11 8 != 0)))

/-- R711, R765: PW_GOV_STATUS changes: a power event when limits come to be in force or cease to be, and an alert when one is gained. -/
def State.putGov (s : State) (v : Nat) : State :=
  let old := bits (s.dr PW_GOV_STATUS) 11 8
  let new := bits v 11 8
  let s := s.dw PW_GOV_STATUS v
  let gained := (List.range 4).any (fun n => bit new n && !(bit old n))
  let s : State := if gained then { s with mb := { s.mb with alerts := nsIns s.mb.alerts 3 } } else s
  if (old == 0) == (new == 0) then s else s.powerEvent

/-- PW_GOV_STATUS with a core voltage, LCAP and an HBM limit. -/
def govWord (old v hbm : Nat) (lcap : Bool) : Nat := setBits (setBits (setBits old 6 0 v) 8 8 (b2n lcap)) 20 16 hbm

/-! ### The cap and the governor (R28, R29, R707 to R711) -/

/-- R29, R707, R711: a change of a cap register takes effect. -/
def execCapTakesEffect (s : State) : Res :=
  if s.pw.on && s.effCap != s.pw.capNow then .next ({ s with pw := { s.pw with capNow := s.effCap } } : State).powerEvent
  else waits s

/-- R707: the sum of the last 100 measurements. -/
def Power.sum (p : Power) : Nat := p.samples.foldl (· + ·) 0

/-- R707, R712, R720, R721: a measurement at the 48 V input, each microsecond: the average, the energy, and the end of an
over-current. -/
def execPowerSample (vin : Byte) (watts : BitVec 16) (milliamps : BitVec 16) (s : State) : Res :=
  if s.pw.on = false then waits s
  else
    let p := s.pw
    let samples := (watts.toNat :: p.samples).take 100
    let uj := p.uj + watts.toNat
    let below := p.clamp && decide (milliamps.toNat < 32000)
    let clampAt := if below then some (p.clampAt.getD p.uptime) else if p.clamp then none else p.clampAt
    let p := { p with samples := samples, uj := uj % 1000, clampAt := clampAt }
    let s : State := { s with pw := p }
    let w := setBits (setBits (setBits (s.dr PW_STATUS) 15 8 vin.toNat) 31 16 (p.sum / p.samples.length)) 47 32 milliamps.toNat
    .next ((s.dw PW_STATUS w).dinc PW_CNT_ENERGY (uj / 1000))

/-- The hottest junction at the last reading. -/
def State.hottest (s : State) : Int := sgn 8 (bits (s.dr PW_THERM) 7 0)

/-- R715: the core voltage that the thermal rule allows after a tick of the governor; none while LTHERM is clear. -/
def State.thermNext (s : State) (v : Nat) : Option Nat :=
  if bit (s.dr PW_GOV_STATUS) 9 then
    let t := min v (s.pw.thermV.getD v)
    some (if s.hottest ≥ 103 then t - 1 else t)
  else none

/-- R708, R715, R717: one action of the governor: what the cap asks, held to the lowest voltage that any rule requires. -/
def execGovernorTick (s : State) : Res :=
  if s.pw.on = false ∨ s.pw.clamp ∨ s.pw.samples.isEmpty then waits s
  else
    let g := s.dr PW_GOV_STATUS
    let v := bits g 6 0
    let h := bits g 20 16
    let n := s.pw.samples.length
    let above := decide (s.pw.capNow * n < s.pw.sum)
    let under := decide (s.pw.sum * 100 < 98 * s.pw.capNow * n)
    let top := bits (s.dr PW_VCTRL) 6 0
    let t := s.thermNext v
    let lim := match t with | some w => min top w | none => top
    let v' := if above then v - 1 else if under && h == 16 && decide (v < lim) then v + 1 else v
    let h' := if above && v == 0 then max 1 (h - 1) else if !above && under && decide (h < 16) then h + 1 else h
    let lcap := above || (bit g 8 && !(under && h == 16 && decide (lim ≤ v)))
    let v' := match t with | some w => min v' w | none => v'
    let s : State := { s with pw := { s.pw with thermV := t } }
    .next (s.putGov (govWord g v' h' lcap))

/-! ### Over-current (R712, R713) -/

/-- R726: a record of the power, clock and thermal block. -/
def State.powerRec (s : State) (cls cause unit : Nat) : State :=
  s.logErr { source := 0x11, cls := cls, cause := cause, unit := unit, info := word (s.dr PW_STATUS) }

/-- R712: more than 36 A for 2 µs: the clamp. -/
def execOvercurrentClamp (s : State) : Res :=
  if s.pw.on = false ∨ s.pw.clamp then waits s
  else
    let s : State := { s with pw := { s.pw with clamp := true, clampFrom := s.pw.uptime, clampAt := none } }
    let s := s.putGov (setBits (setBits (setBits (s.dr PW_GOV_STATUS) 6 0 0) 11 11 1) 20 16 1)
    .next ((s.dinc PW_CNT_OCCLAMP 1).powerRec INFO 5 0xFFFF)

/-- R712: a millisecond after the current fell below 32 A the clamp ends. -/
def execClampRelease (s : State) : Res :=
  match s.pw.clampAt with
  | none => waits s
  | some t =>
    if s.pw.clamp && decide (t + 1000000 ≤ s.pw.uptime) then
      let s : State := { s with pw := { s.pw with clamp := false, clampAt := none } }
      .next (s.putGov (setBits (s.dr PW_GOV_STATUS) 11 11 0))
    else waits s

/-- R760, R765: FAULT# is driven low. -/
def State.faultAlert (s : State) : State := { s with mb := { s.mb with alerts := nsIns s.mb.alerts 2 } }

/-- R713: the current stays above 36 A for a millisecond in spite of the clamp: the input switch opens, a loss of the 48 V input. -/
def execInputSwitchOpen (s : State) : Res :=
  if s.pw.clamp && s.pw.clampAt.isNone && decide (s.pw.clampFrom + 1000000 ≤ s.pw.uptime) then
    let p := s.pw
    let s : State := { s with pw := { p with isOpen := true, tripOc := true, vin := false, opened := (p.uptime :: p.opened).take 3 } }
    .next s.powerOff.faultAlert
  else waits s

/-- R713: three openings within 60 s. -/
def Power.stuckOpen (p : Power) : Bool :=
  match p.opened with | a :: _ :: c :: _ => decide (a ≤ c + 60000000000) | _ => false

/-- R713: a second after an opening the switch closes, unless it is to stay open. -/
def execInputSwitchClose (s : State) : Res :=
  let due := decide ((s.pw.opened.headD 0) + 1000000000 ≤ s.pw.uptime)
  whenever s (s.pw.isOpen && due && !s.pw.stuckOpen) { s with pw := { s.pw with isOpen := false } }

/-! ### Temperatures (R631, R714 to R718) -/

/-- The highest of a list of readings, with the lowest number that has it. -/
def hottestOf (xs : List Int) : Int × Nat :=
  ((List.range xs.length).zip xs).foldl (fun b p => if p.2 > b.1 then (p.2, p.1) else b) (xs.headD 0, 0)

/-- The sensors at their shutdown limits, by number: junctions 0 to 63, stacks 64 to 71, optical engines 72 to 79. -/
def atLimit (junction hbmTemps optics : List Int) : List Nat :=
  let at_ := fun (xs : List Int) (base : Nat) (limit : Int) =>
    (List.range xs.length).filterMap (fun i => if xs.getD i 0 ≥ limit then some (base + i) else none)
  at_ junction 0 115 ++ at_ hbmTemps 64 105 ++ at_ optics 72 95

/-- R720: a reading of a junction sensor. -/
def State.readSensor (s : State) (n : Nat) (t : Int) : State :=
  let r := PW_TSENS + 8 * n
  let old := s.dr r
  let m := max (sgn 8 (bits old 15 8)) t
  s.dw r (wrapInt 8 t + place 15 8 (wrapInt 8 m))

/-- R631, R716: a reading of a stack: REF2X and PACED with their hysteresis. -/
def State.readStack (s : State) (st : Nat) (t : Int) : State :=
  let r := stkReg HM_STK_STATUS st
  let old := s.dr r
  let ref2 := if t > 85 then true else if t < 82 then false else bit old 10
  let paced := if t > 95 then true else if t < 92 then false else bit old 11
  s.dw r (setBits (setBits (setBits old 9 2 (wrapInt 8 t)) 10 10 (b2n ref2)) 11 11 (b2n paced))

/-- R715, R716: LTHERM and LHBMT after a reading. -/
def State.thermLimits (s : State) (hot : Int) : State :=
  let g := s.dr PW_GOV_STATUS
  let was := bit g 9
  let on := if hot ≥ 105 then true else if hot < 102 then false else was
  let paced := (List.range 8).any (fun st => bit (s.dr (stkReg HM_STK_STATUS st)) 11)
  let v := if on then (if was then s.pw.thermV else some (bits g 6 0)) else none
  let s : State := { s with pw := { s.pw with thermV := v } }
  s.putGov (setBits (setBits g 9 9 (b2n on)) 10 10 (b2n paced))

/-- R714: an optical engine that comes to 80 °C writes a record. -/
def State.readOptics (s : State) (p : Nat) (t : Int) : State :=
  if t ≥ 80 then
    if s.pw.hot.contains p then s
    else ({ s with pw := { s.pw with hot := nsIns s.pw.hot p } } : State).powerRec INFO 4 p
  else { s with pw := { s.pw with hot := nsDel s.pw.hot p } }

/-- Readings one after another, each with its number. -/
def eachReading (xs : List Int) (f : State → Nat → Int → State) (s : State) : State :=
  ((List.range xs.length).zip xs).foldl (fun s p => f s p.1 p.2) s

/-- R718: a thermal shutdown: every rail but the standby domain is off. -/
def State.thermalShutdown (s : State) : State :=
  (({ s with pw := { s.pw with tripTherm := true, shut := true } } : State).powerOff).faultAlert

/-- R714 to R718: the sensors are read. -/
def execSensorReading (junction : Vector Int 64) (hbmTemps : Vector Int 8) (optics : Vector Int 8) (s : State) : Res :=
  if s.pw.on = false then waits s
  else
    let above := atLimit junction.toList hbmTemps.toList optics.toList
    if above.any s.pw.above.contains then .next s.thermalShutdown
    else
      let s : State := { s with pw := { s.pw with above := above } }
      let s := eachReading junction.toList State.readSensor s
      let s := eachReading hbmTemps.toList State.readStack s
      let j := hottestOf junction.toList
      let h := hottestOf hbmTemps.toList
      let o := hottestOf optics.toList
      let s := s.dw PW_THERM (wrapInt 8 j.1 + place 13 8 j.2 + place 21 14 (wrapInt 8 h.1) + place 24 22 h.2
        + place 32 25 (wrapInt 8 o.1) + place 35 33 o.2)
      let s := s.thermLimits j.1
      .next (eachReading optics.toList State.readOptics s)

/-- R643, R718: after a thermal shutdown every sensor reads 70 °C or below: the device restarts, if it has its inputs. -/
def execThermalRestart (junction : Vector Int 64) (hbmTemps : Vector Int 8) (optics : Vector Int 8) (s : State) : Res :=
  let cool := (junction.toList ++ hbmTemps.toList ++ optics.toList).all (fun t => decide (t ≤ 70))
  if s.pw.shut && cool then
    if s.pw.vin && s.pw.vstby then .next ((s.dinc PW_CNT_THERMSHUT 1).powerOn 4 none)
    else .next { s with pw := { s.pw with shut := false } }
  else waits s

/-! ### Clocks (R698 to R704) -/

/-- R703: the reference loses edges: hold-over. -/
def execReferenceLoss (s : State) : Res :=
  if s.pw.on && bit (s.dr PW_STATUS) 0 then
    let s := s.dw PW_STATUS (setBits (s.dr PW_STATUS) 2 0 6)
    .next ((s.dinc PW_CNT_REFLOSS 1).powerRec INFO 1 55)
  else waits s

/-- R703: the reference has been back for 100 µs. -/
def execReferenceReturn (s : State) : Res :=
  whenever s (s.pw.on && bit (s.dr PW_STATUS) 1) (s.dwf PW_STATUS 1 0 1)

/-- R699: whether a domain is synthesised by a PLL. -/
def synthesised (d : Nat) : Bool := d < 40 || (48 ≤ d && d < 55) || d == 56 || d == 57

/-- R704: a synthesised domain loses lock while the reference is present: its block stops. -/
def execDomainLockLoss (d : Fin 60) (s : State) : Res :=
  let n := d.val
  if s.pw.on && bit (s.dr PW_STATUS) 0 && synthesised n && bit (s.dr PW_CLK_STATUS) n then
    let s : State := { s with pw := { s.pw with lost := s.pw.lost ++ [(n, s.pw.uptime)] } }
    let s := ((s.dwf PW_CLK_STATUS n n 0).dwf PW_CLK_LOST n n 1).dinc PW_CNT_RELOCK 1
    .next (s.powerRec INFO 2 n)
  else waits s

/-- R704: the domain relocks and its block goes on. -/
def execDomainRelock (d : Fin 60) (s : State) : Res :=
  let n := d.val
  if s.domStopped n && !(s.pw.dead.contains n) then
    let s : State := { s with pw := { s.pw with lost := s.pw.lost.filter (fun e => e.1 != n) } }
    let s := s.dwf PW_CLK_STATUS n n 1
    .next ((List.range 16).foldl (fun s f => s.releaseHeld f) s)
  else waits s

/-- R704: a domain has not relocked after 10 ms: its block stays stopped until the next warm reset. -/
def execRelockTimeout (d : Fin 60) (s : State) : Res :=
  let n := d.val
  if s.pw.lost.any (fun e => e.1 == n && decide (e.2 + 10000000 ≤ s.pw.uptime)) && !(s.pw.dead.contains n) then
    .next (({ s with pw := { s.pw with dead := nsIns s.pw.dead n } } : State).powerRec CFAULT 3 n)
  else waits s

end Sys2Proof.Machine
end

