-- ==== Sys2Proof/Machine/Debug.lean ====
section
/-! DEFINITION. Sys2Proof/Machine/Debug.lean: merged records, network parity, debug tokens and the test access port (R722 to R737,
R761). -/

namespace Sys2Proof.Machine

/-! ### Merged records and the network (R722, R727) -/

/-- R727: the millisecond of a merge window ends: one record reports the events that fell in it. -/
def execErrorMergeExpiry (i : Nat) (s : State) : Res :=
  match s.err.merges[i]? with
  | none => waits s
  | some m =>
    if s.timebase < m.until_ then waits s
    else
      let s : State := { s with err := { s.err with merges := s.err.merges.eraseIdx i } }
      if m.count = 0 then .next s
      else
        let e : ErrRec :=
          { source := m.source, cls := m.cls, cause := m.cause, unit := m.unit, ctx := m.ctx, status := m.status, info := m.info }
        .next (s.putErr e m.first m.count)

/-- R722: a packet at a cluster's stop, changed by f, or dropped. -/
def Cluster.onPacket (k : Cluster) (pk : NetPacket) (a : Arrival → Option Arrival) (x : Xfer → Xfer) : Option Cluster :=
  match pk with
  | .arrival => match k.waitA with
    | [] => none
    | y :: t => some { k with waitA := (a y).toList ++ t }
  | .transfer slot =>
    if k.st.xfers.any (fun y => y.slot == slot.val) then
      some { k with st := { k.st with xfers := updFirst (fun y => y.slot == slot.val) x k.st.xfers } }
    else none

/-- R722: a packet arrives at network stop i. A parity error in its bytes poisons a word of it; one in its header drops it and is
FATAL. Stops 0 to 39 are the clusters'. -/
def execNetworkPacketReceive (i : Nat) (parity : NetParity) (s : State) : Res :=
  match toCl i, parity with
  | _, .ok => .next s
  | none, _ => waits s
  | some c, .payload pk w =>
    let bad := fun (y : Xfer) => (upFrom (8 * w) 8).filter (fun j => decide (j < y.len))
    match (s.cl c).onPacket pk (fun a => some { a with bad := if w < a.words.length then nsIns a.bad w else a.bad })
        (fun y => { y with bad := (bad y).foldl nsIns y.bad }) with
    | none => waits s
    | some k => .next ((s.mod c (fun _ => k)).logErr { source := 0x0A, cls := POISON, cause := 1, unit := i })
  | some c, .header pk =>
    match (s.cl c).onPacket pk (fun _ => none) id with
    | none => waits s
    | some k => .next ((s.mod c (fun _ => k)).fatalError { source := 0x0A, cls := FATAL, cause := 2, unit := i })

/-! ### Debug tokens (R731 to R733) -/

/-- R733: whether the key digest of a token's signer may open access: the owner's in Owned, a root's that is not revoked in
Field Return. -/
def Security.tokenSigner (k : Security) (d : BitVec 256) : Bool :=
  match k.lc with
  | 2 => k.owner == some d
  | 3 => (List.range 4).any (fun n => !(bit k.rootRev n) && d == Config.fuse n)
  | _ => false

/-- R732, R733: whether a token is accepted. -/
def Security.tokenOk (k : Security) (t : List Byte) : Bool :=
  t.length == 5440 && fieldB t 0 2 == 1 && fieldB t 2 1 == k.lc && fieldB t 3 1 == 1
    && fieldB t 4 8 == (Config.fuse 5).toNat % 2 ^ 64 && fieldB t 12 32 == k.nonce.toNat && fieldB t 44 20 == 0 && fieldB t 5421 19 == 0
    && k.tokenSigner (Config.sha3 (sliceB t 64 1984)) && Config.verify (sliceB t 64 1984) (sliceB t 0 64 ++ sliceB t 2048 3373)

/-- R728, R733: the verification of a token ends: AUTHRES, a fresh nonce and a record; access opens if it was accepted. -/
def State.endToken (s : State) (t : List Byte) : Bool × State :=
  let ok := s.sec.tokenOk t
  let n := s.draw
  let s : State := { n.2 with sec := { n.2.sec with nonce := n.1, token := none } }
  let s := s.dwf MG_DBG_STATUS 3 2 (if ok then 1 else 2)
  let s := if ok then s.dwf MG_DBG_STATUS 0 0 1 else s
  (ok, s.logErr { source := 0x16, cls := INFO, cause := if ok then 1 else 3 })

/-- R733: the verification of a token presented at the test access port ends. It waits for the random source (R666). -/
def execDebugTokenVerified (s : State) : Res :=
  match s.sec.token with
  | none => waits s
  | some t => if s.rngFail || (s.mb.busy && s.mb.obj == 2) || s.domStopped 56 then waits s else .next (s.endToken t).2

/-! ### The test access port (R736, R737, R761) -/

/-- The port's instruction becomes ir; EXTEST alone drives the pins. -/
def State.jtagIr (s : State) (ir : Nat) : State := { s with jtag := { s.jtag with ir := ir, drive := false } }

/-- R761: TRST# low: Test-Logic-Reset, with IDCODE selected. -/
def execJtagTrst (s : State) : Res := .next (s.jtagIr 2)

/-- R736: EXTEST, at stage 0 or with debug access open; otherwise it acts as BYPASS. -/
def execExtest (drive : BitVec 64) (s : State) : Res :=
  let t := s.jtagIr 0
  whenever s s.pw.on
    (if s.stage = 0 ∨ s.debugOpen then { t with jtag := { t.jtag with bound := drive, drive := true } }
     else { t with jtag := { t.jtag with bypass := bit drive.toNat 0 } })

/-- R736: SAMPLE/PRELOAD. -/
def execSamplePreload (pins : BitVec 64) (preload : BitVec 64) (s : State) : Res :=
  let t := s.jtagIr 1
  whenever s s.pw.on { t with readData := pins, jtag := { t.jtag with bound := preload } }

/-- R736: IDCODE. -/
def execIdcode (s : State) : Res := whenever s s.pw.on { s.jtagIr 2 with readData := word 0x1400813D }

/-- R736: DBG_STAT. -/
def execDbgStat (s : State) : Res := whenever s s.pw.on { s.jtagIr 0x10 with readData := word (s.devValue MG_DBG_STATUS) }

/-- R736: DBG_NONCE. -/
def execDbgNonce (s : State) : Res := whenever s s.pw.on { s.jtagIr 0x11 with busData := leBytes 32 s.sec.nonce.toNat }

/-- R733, R736: DBG_AUTH, but in Decommissioned. A token presented while another is verified is ignored (assumption 56). -/
def execDbgAuth (token : List Byte) (s : State) : Res :=
  let t := s.jtagIr 0x12
  whenever s (s.pw.on && token.length == 5440)
    (if s.lcState = 4 then { t with jtag := { t.jtag with bypass := bit (fieldB token 0 1) 0 } }
     else if s.sec.token.isSome then t
     else { t with sec := { t.sec with token := some token } })

/-- R737, R763: the registers that are read while debug access is closed. -/
def closedRead (a : Nat) : Bool :=
  (MG_SU_STATUS ≤ a && a < 0x0E000000) || (PW_STATUS ≤ a && a < 0x10000000) || (MG_EL_CTRL ≤ a && a < 0x11000000)
    || a == SC_STATUS || a == SC_BOOT

/-- What Capture-DR of DBG_REG returns: the data of the last read and its status. -/
def Jtag.capture (j : Jtag) : List Byte := leBytes 8 j.data.toNat ++ leBytes 4 (place 28 27 j.status)

/-- R737: DBG_REG: the last read is captured, and at Update-DR an access starts unless one is under way. -/
def execDbgReg (dr : BitVec 96) (s : State) : Res :=
  if s.pw.on = false then waits s
  else
    let s : State := { s.jtagIr 0x13 with busData := s.jtag.capture }
    if s.jtag.acc.isSome then .next s
    else if s.stage = 0 ∧ s.pll = false then .next { s with jtag := { s.jtag with status := 3 } }
    else .next { s with jtag := { s.jtag with acc := some dr, status := 1 } }

/-- R16, R734, R737: the access of DBG_REG is made, or denied. -/
def execDbgRegAccessDone (s : State) : Res :=
  match s.jtag.acc with
  | none => waits s
  | some dr =>
    let a := bits dr.toNat 89 64 * 8
    let done := fun (s : State) (st : Nat) => ({ s with jtag := { s.jtag with acc := none, status := st } } : State)
    if bit dr.toNat 90 then
      if s.debugOpen = false then .next (done s.denied 2)
      else if 0x0E000000 ≤ a ∧ a < 0x0F000000 then .next (done s 2)
      else .next (done (s.devWrite .debugPath a (bits dr.toNat 63 0)) 0)
    else if s.debugOpen || closedRead a then
      let r := s.devRead a
      let t := r.2
      .next (done { t with jtag := { t.jtag with data := r.1 } } 0)
    else .next (done s 2)

/-- R736: BYPASS, and instructions not listed: a bit is shifted through; the bit captured is 0. -/
def execBypass (bit : Bool) (s : State) : Res :=
  let t := s.jtagIr 0xFF
  whenever s s.pw.on { t with readData := 0, jtag := { t.jtag with bypass := bit } }

end Sys2Proof.Machine
end

