-- ==== Sys2Proof/Machine/MgmtBusCmds.lean ====
section
/-! DEFINITION. Sys2Proof/Machine/MgmtBusCmds.lean: the management bus (R760, R762 to R765). What the published standards give of its
frames is presumed from them (assumption 58). -/

namespace Sys2Proof.Machine

/-! ### The shapes of commands (R763, R764) -/

/-- A message of the bus: answered while the standby input is in range (R697). -/
def busRow (s : State) (t : State) : Res := whenever s s.pw.vstby t

/-- STATUS of the last write. -/
def State.busStatus (s : State) (st : Nat) : State := { s with mb := { s.mb with status := st } }

/-- Data that a read returns. -/
def State.busAnswer (s : State) (bs : List Byte) : State := { s with busData := bs }

/-- R763: a message that needs the 48 V input, and a stage. -/
def busNeeds (stage : Nat) (s : State) (t : State) : Res :=
  busRow s (if s.pw.on = false ∨ s.stage < stage then s.busStatus NOT_READY else t)

/-- R763: a write: discarded whole if its PEC byte is wrong. -/
def busWrite (stage : Nat) (pecOk : Bool) (s : State) (t : State) : Res :=
  if pecOk then busNeeds stage s t else waits s

/-- R762: the static address. -/
def State.busAddr (s : State) : Nat := 0x48 + bits s.boot.straps 4 2

/-! ### Telemetry and identity (R763) -/

/-- R763: IDENT. -/
def execIdent (s : State) : Res :=
  busRow s (s.busAnswer (leBytes 8 (Config.fuse 5).toNat ++ certKeyDigest idCert ++ leBytes 1 s.lcState ++ leBytes 1 s.stage
    ++ leBytes 1 (bits (s.devValue MG_SU_STATUS) 15 8) ++ leBytes 5 0))

/-- R763, R765: TELEM: six registers; what has no power reads 0; the alert is cleared. -/
def execTelem (s : State) : Res :=
  let live := fun (a : Nat) => leBytes 8 (if s.pw.on then s.devValue a else 0)
  let t := s.busAnswer (live PW_STATUS ++ live PW_GOV_STATUS ++ live PW_THERM ++ live MG_SU_STATUS ++ leBytes 8 (s.devValue MG_EL_STATUS)
    ++ live LK_RV_STATUS)
  busRow s { t with mb := { t.mb with alerts := [] } }

/-- R763: STATUS. -/
def execStatus (s : State) : Res := busRow s (s.busAnswer (leBytes 2 s.mb.status ++ leBytes 1 (b2n s.mb.busy) ++ leBytes 1 0))

/-- R763: NONCE. -/
def execNonce (s : State) : Res := busNeeds 0 s (s.busAnswer (leBytes 32 s.sec.nonce.toNat))

/-- R763: REGRD: the registers that DBG_REG serves while debug access is closed. -/
def execRegrd (addr8 : BitVec 32) (s : State) : Res :=
  let a := addr8.toNat * 8
  busNeeds 1 s (if closedRead a then
      let r := s.devRead a
      (r.2.busStatus OK).busAnswer (leBytes 8 r.1.toNat)
    else (s.busStatus DENIED).busAnswer (leBytes 8 0))

/-! ### Writes (R764) -/

/-- R707, R764: RACKCAP. -/
def execRackcap (watts : BitVec 16) (pecOk : Bool) (s : State) : Res :=
  busWrite 0 pecOk s (if watts.toNat < 400 ∨ 1200 < watts.toNat then s.busStatus MALFORMED
    else (s.dw PW_RACKCAP watts.toNat).busStatus OK)

/-- R409, R410, R764: RINGDESC. -/
def execRingdesc (desc : BitVec 256) (pecOk : Bool) (s : State) : Res :=
  let r := s.giveDesc (leBytes 32 desc.toNat)
  busWrite 1 pecOk s (r.2.2.busStatus r.1)

/-- R645, R764: WARMRST: STATUS is set before the reset begins. -/
def execWarmrst (data : Byte) (pecOk : Bool) (s : State) : Res :=
  busWrite 0 pecOk s (if data = 0x5A then (s.busStatus OK).warmReset 2 else s.busStatus MALFORMED)

/-- R764: whether a bulk object of a kind and length may begin. -/
def State.bulkStart (s : State) (obj len : Nat) : Nat :=
  if obj = 1 then
    if bits (s.dr MG_SU_STATUS) 6 5 ≠ 1 then DENIED
    else if len < 5504 ∨ 16782656 < len then MALFORMED
    else OK
  else if obj = 2 then
    if s.lcState = 4 then DENIED else if len ≠ 5440 then MALFORMED else OK
  else MALFORMED

/-- The bus without an object in progress. -/
def State.bulkDrop (s : State) : State :=
  let mine := s.mb.busy && s.mb.obj == 2
  let s : State := { s with mb := { s.mb with obj := 0, len := 0, bulk := [], busy := false } }
  if mine then { s with sec := { s.sec with token := none } } else s

/-- R764: BULKBEGIN: an object in progress is discarded. -/
def execBulkbegin (obj : Byte) (len : BitVec 32) (pecOk : Bool) (s : State) : Res :=
  let st := s.bulkStart obj.toNat len.toNat
  let t := s.bulkDrop.busStatus st
  busWrite 0 pecOk s (if st = OK then { t with mb := { t.mb with obj := obj.toNat, len := len.toNat } } else t)

/-- R764: BULKDATA. -/
def execBulkdata (off : BitVec 32) (data : List Byte) (pecOk : Bool) (s : State) : Res :=
  busWrite 0 pecOk s (
    if s.mb.obj = 0 ∨ s.mb.busy then s.busStatus NOT_READY
    else if 240 < data.length then s.busStatus MALFORMED
    else if s.mb.len < off.toNat + data.length then s.busStatus EXTENT
    else
      let t := s.busStatus OK
      { t with mb := { t.mb with bulk := amSetMany 0 t.mb.bulk off.toNat data } })

/-- The bytes of the object in progress. -/
def MgmtBus.object (m : MgmtBus) : List Byte := amGetMany 0 m.bulk 0 m.len

/-- R764: BULKEND: the object is checked, a token under R733. -/
def execBulkend (data : Byte) (pecOk : Bool) (s : State) : Res :=
  busWrite 0 pecOk s (
    if s.mb.obj = 0 ∨ s.mb.busy then s.busStatus NOT_READY
    else if data ≠ 0x5A then s.busStatus MALFORMED
    else if s.mb.obj = 2 ∧ s.sec.token.isSome then s.busStatus NOT_READY
    else
      let t : State := { s with mb := { s.mb with busy := true } }
      if s.mb.obj = 2 then { t with sec := { t.sec with token := some s.mb.object } } else t)

/-- R670, R673: a recovery image is verified and booted from house-core memory. -/
def State.bootRecovery (s : State) (b : List Byte) : Bool × State :=
  match s.sec.verifyImage b with
  | some f => (false, s.scErr 1 f.1 f.2)
  | none =>
    let h := b.take 64
    let k := s.sec.load h
    let s : State := { s with sec := { k with recovery := b }, boot := { s.boot with fwOk := true, fromPend := false } }
    (true, (s.dw SC_BOOT (place 4 4 (bits (s.dr SC_BOOT) 4 4) + 32 + place 12 6 (imgSvn h) + place 19 13 (imgFloor h))).dwf MG_SU_STATUS 6 5 0)

/-- R673, R733, R764, R765: the check of a bulk object ends. -/
def execBulkCheckDone (s : State) : Res :=
  if s.mb.busy = false ∨ s.rngFail ∨ s.domStopped 56 then waits s
  else
    let r := if s.mb.obj = 1 then s.bootRecovery s.mb.object
      else match s.sec.token with
        | some t => s.endToken t
        | none => (false, s)
    let t := r.2.busStatus (if r.1 then OK else DENIED)
    .next { t with mb := { t.mb with obj := 0, len := 0, bulk := [], busy := false, alerts := nsIns t.mb.alerts 4 } }

/-! ### I3C (R762) -/

/-- A command code behind the I3C broadcast address: the bus is in I3C mode from then on. -/
def i3cRow (s : State) (f : State → State) : Res := busRow s (f { s with mb := { s.mb with i3c := true } })

/-- A device without a dynamic address takes one. -/
def State.takeAddr (s : State) (a : Nat) : State :=
  if s.mb.dyn.isSome then s else { s with mb := { s.mb with dyn := some a } }

/-- R762: SETDASA. -/
def execSetdasa (addr : BitVec 7) (s : State) : Res := i3cRow s (fun s => s.takeAddr addr.toNat)

/-- R762: SETAASA. -/
def execSetaasa (s : State) : Res := i3cRow s (fun s => s.takeAddr s.busAddr)

/-- R762: ENTDAA. -/
def execEntdaa (addr : BitVec 7) (s : State) : Res := i3cRow s (fun s => s.takeAddr addr.toNat)

/-- R762: the provisional ID. -/
def State.pid (s : State) : Nat := place 47 33 0x1F9E + place 31 16 0x4008 + bits s.boot.straps 4 2

/-- Bytes with the most significant first, as I3C sends them. -/
def beBytes (n v : Nat) : List Byte := (leBytes n v).reverse

/-- R762: GETPID. -/
def execGetpid (s : State) : Res := i3cRow s (fun s => s.busAnswer (beBytes 6 s.pid))

/-- R762: GETBCR: in-band interrupts, with a mandatory byte. -/
def execGetbcr (s : State) : Res := i3cRow s (fun s => s.busAnswer [0x06])

/-- R762: GETDCR; the spec gives no value (assumption 58). -/
def execGetdcr (s : State) : Res := i3cRow s (fun s => s.busAnswer (leBytes 1 (Config.fuse 9).toNat))

/-- R762: GETSTATUS: whether an interrupt is pending. -/
def execGetstatus (s : State) : Res := i3cRow s (fun s => s.busAnswer (beBytes 2 (b2n (!s.mb.alerts.isEmpty))))

/-- R762: RSTACT resets the bus: SMBus mode, without a dynamic address. -/
def execRstact (s : State) : Res := busRow s { s with mb := { s.mb with i3c := false, dyn := none } }

/-- R765: the Alert Response, or the in-band interrupt: the address and the lowest cause. -/
def execAlertResponse (s : State) : Res :=
  match s.mb.alerts with
  | [] => waits s
  | n :: _ =>
    let t := s.busAnswer [BitVec.ofNat 8 (if s.mb.i3c then s.mb.dyn.getD s.busAddr else s.busAddr), BitVec.ofNat 8 n]
    busRow s { t with mb := { t.mb with alerts := [] } }

end Sys2Proof.Machine
end

