-- ==== Sys2Proof/Machine/Dispatch.lean ====
section
/-! DEFINITION. Sys2Proof/Machine/Dispatch.lean: one arm per row of the opcode table. -/

namespace Sys2Proof.Machine

def exec (i : Instr) (s : State) : Host.Outcome State Fault Refusal :=
  match i with
  | .registerWrite who addr val => Sys2Proof.Machine.execRegisterWrite who addr val s
  | .coreInstruction c ecc => Sys2Proof.Machine.execCoreInstruction c ecc s
  | .corePageInResume c broughtIn => Sys2Proof.Machine.execCorePageInResume c broughtIn s
  | .clusterCacheMissFill c line ecc => Sys2Proof.Machine.execClusterCacheMissFill c line ecc s
  | .ecallExit c => Sys2Proof.Machine.execEcallExit c s
  | .ecallHandler c => Sys2Proof.Machine.execEcallHandler c s
  | .ecallHret c => Sys2Proof.Machine.execEcallHret c s
  | .ecallEvent c => Sys2Proof.Machine.execEcallEvent c s
  | .ecallUnknown c => Sys2Proof.Machine.execEcallUnknown c s
  | .interruptEntry c cause => Sys2Proof.Machine.execInterruptEntry c cause s
  | .tileCfg c => Sys2Proof.Machine.execTileCfg c s
  | .tileLd c => Sys2Proof.Machine.execTileLd c s
  | .tileRel c => Sys2Proof.Machine.execTileRel c s
  | .mxLoad c => Sys2Proof.Machine.execMxLoad c s
  | .mxRun c => Sys2Proof.Machine.execMxRun c s
  | .mxGauge c => Sys2Proof.Machine.execMxGauge c s
  | .vxChain c => Sys2Proof.Machine.execVxChain c s
  | .stPost c => Sys2Proof.Machine.execStPost c s
  | .stResume c => Sys2Proof.Machine.execStResume c s
  | .sySig c => Sys2Proof.Machine.execSySig c s
  | .syWait c => Sys2Proof.Machine.execSyWait c s
  | .syWatchInstruction c => Sys2Proof.Machine.execSyWatchInstruction c s
  | .syWaitinv c => Sys2Proof.Machine.execSyWaitinv c s
  | .fenceEng c => Sys2Proof.Machine.execFenceEng c s
  | .fenceKern c => Sys2Proof.Machine.execFenceKern c s
  | .cacheInv c => Sys2Proof.Machine.execCacheInv c s
  | .fenceEngComplete c => Sys2Proof.Machine.execFenceEngComplete c s
  | .fenceKernComplete c => Sys2Proof.Machine.execFenceKernComplete c s
  | .cacheInvComplete c => Sys2Proof.Machine.execCacheInvComplete c s
  | .instructionDiscard c u => Sys2Proof.Machine.execInstructionDiscard c u s
  | .tileCfgAccept c => Sys2Proof.Machine.execTileCfgAccept c s
  | .tileLdAccept c => Sys2Proof.Machine.execTileLdAccept c s
  | .tileRelAccept c => Sys2Proof.Machine.execTileRelAccept c s
  | .tileLdRowArrive c row => Sys2Proof.Machine.execTileLdRowArrive c row s
  | .mxLoadAccept c => Sys2Proof.Machine.execMxLoadAccept c s
  | .mxRunAccept c parityError => Sys2Proof.Machine.execMxRunAccept c parityError s
  | .mxGaugeAccept c => Sys2Proof.Machine.execMxGaugeAccept c s
  | .mxLoadTransferStart c ecc => Sys2Proof.Machine.execMxLoadTransferStart c ecc s
  | .mxLoadComplete c => Sys2Proof.Machine.execMxLoadComplete c s
  | .arrayRowAdmit c ecc => Sys2Proof.Machine.execArrayRowAdmit c ecc s
  | .arrayPipelineStep c slip ecc => Sys2Proof.Machine.execArrayPipelineStep c slip ecc s
  | .arrayHandlePush c => Sys2Proof.Machine.execArrayHandlePush c s
  | .runComplete c => Sys2Proof.Machine.execRunComplete c s
  | .peakclr c => Sys2Proof.Machine.execPeakclr c s
  | .vxChainAccept c => Sys2Proof.Machine.execVxChainAccept c s
  | .vxBeat c ecc => Sys2Proof.Machine.execVxBeat c ecc s
  | .vxChainComplete c => Sys2Proof.Machine.execVxChainComplete c s
  | .clQPush c n val => Sys2Proof.Machine.execClQPush c n val s
  | .clQPop c n => Sys2Proof.Machine.execClQPop c n s
  | .clQRespop c => Sys2Proof.Machine.execClQRespop c s
  | .clQRouteWrite c val => Sys2Proof.Machine.execClQRouteWrite c val s
  | .coreRunSet c => Sys2Proof.Machine.execCoreRunSet c s
  | .coreRunClear c => Sys2Proof.Machine.execCoreRunClear c s
  | .debugHalt c => Sys2Proof.Machine.execDebugHalt c s
  | .debugResume c => Sys2Proof.Machine.execDebugResume c s
  | .debugStep c => Sys2Proof.Machine.execDebugStep c s
  | .bpclr c => Sys2Proof.Machine.execBpclr c s
  | .rateclr c => Sys2Proof.Machine.execRateclr c s
  | .stepRateWindowEnd c => Sys2Proof.Machine.execStepRateWindowEnd c s
  | .pendClear c val => Sys2Proof.Machine.execPendClear c val s
  | .scrubWordCheck c ecc => Sys2Proof.Machine.execScrubWordCheck c ecc s
  | .correctedWordWriteback c => Sys2Proof.Machine.execCorrectedWordWriteback c s
  | .fillCopyGo c val => Sys2Proof.Machine.execFillCopyGo c val s
  | .fillCopyComplete c => Sys2Proof.Machine.execFillCopyComplete c s
  | .propTableWrite c h val => Sys2Proof.Machine.execPropTableWrite c h val s
  | .windowWrite c n val => Sys2Proof.Machine.execWindowWrite c n val s
  | .arrivalCheck c => Sys2Proof.Machine.execArrivalCheck c s
  | .arrivalComplete c => Sys2Proof.Machine.execArrivalComplete c s
  | .scratchpadReclaim x c => Sys2Proof.Machine.execScratchpadReclaim x c s
  | .sharedCacheAccess sl req => Sys2Proof.Machine.execSharedCacheAccess sl req s
  | .sharedCacheMissFill sl line ecc => Sys2Proof.Machine.execSharedCacheMissFill sl line ecc s
  | .shcMaintGo val => Sys2Proof.Machine.execShcMaintGo val s
  | .shcMaintDone => Sys2Proof.Machine.execShcMaintDone s
  | .streamAccept c => Sys2Proof.Machine.execStreamAccept c s
  | .streamResumeAccept c => Sys2Proof.Machine.execStreamResumeAccept c s
  | .streamFillBegin c slot => Sys2Proof.Machine.execStreamFillBegin c slot s
  | .streamTransferIssue c slot => Sys2Proof.Machine.execStreamTransferIssue c slot s
  | .streamTransferComplete c slot hostData fault => Sys2Proof.Machine.execStreamTransferComplete c slot hostData fault s
  | .streamFillPush c slot => Sys2Proof.Machine.execStreamFillPush c slot s
  | .streamPageResume c slot => Sys2Proof.Machine.execStreamPageResume c slot s
  | .streamEnd c slot => Sys2Proof.Machine.execStreamEnd c slot s
  | .streamStallAlarm c slot => Sys2Proof.Machine.execStreamStallAlarm c slot s
  | .storeTransferTimeout c xslot => Sys2Proof.Machine.execStoreTransferTimeout c xslot s
  | .stCancelWrite c val => Sys2Proof.Machine.execStCancelWrite c val s
  | .sySigAccept c => Sys2Proof.Machine.execSySigAccept c s
  | .syWaitAccept c => Sys2Proof.Machine.execSyWaitAccept c s
  | .syWaitinvAccept c => Sys2Proof.Machine.execSyWaitinvAccept c s
  | .syWatchAccept c => Sys2Proof.Machine.execSyWatchAccept c s
  | .counterChange i0 => Sys2Proof.Machine.execCounterChange i0 s
  | .watchRegister i0 => Sys2Proof.Machine.execWatchRegister i0 s
  | .watchTimerExpiry id => Sys2Proof.Machine.execWatchTimerExpiry id s
  | .cueDelivery i0 => Sys2Proof.Machine.execCueDelivery i0 s
  | .clSyWcancelWrite c val => Sys2Proof.Machine.execClSyWcancelWrite c val s
  | .clSyCueRead c n => Sys2Proof.Machine.execClSyCueRead c n s
  | .clSySetvWrite who c val => Sys2Proof.Machine.execClSySetvWrite who c val s
  | .sySetvWrite who val => Sys2Proof.Machine.execSySetvWrite who val s
  | .clSyPairWrite c n val => Sys2Proof.Machine.execClSyPairWrite c n val s
  | .syPairWrite k val => Sys2Proof.Machine.execSyPairWrite k val s
  | .syVmapWrite x v val => Sys2Proof.Machine.execSyVmapWrite x v val s
  | .syCurCfgWrite k val => Sys2Proof.Machine.execSyCurCfgWrite k val s
  | .ringFormation => Sys2Proof.Machine.execRingFormation s
  | .layerCurtainArrival => Sys2Proof.Machine.execLayerCurtainArrival s
  | .layerIntervalArrival => Sys2Proof.Machine.execLayerIntervalArrival s
  | .weightInjection => Sys2Proof.Machine.execWeightInjection s
  | .weightFrameReceive p => Sys2Proof.Machine.execWeightFrameReceive p s
  | .feedDelivery f pos => Sys2Proof.Machine.execFeedDelivery f pos s
  | .endMarkReceive p => Sys2Proof.Machine.execEndMarkReceive p s
  | .frameForward p => Sys2Proof.Machine.execFrameForward p s
  | .forwardGoodCopy p => Sys2Proof.Machine.execForwardGoodCopy p s
  | .writeReceive p => Sys2Proof.Machine.execWriteReceive p s
  | .atomicReceive p => Sys2Proof.Machine.execAtomicReceive p s
  | .signalReceive p => Sys2Proof.Machine.execSignalReceive p s
  | .mgmtReceive p => Sys2Proof.Machine.execMgmtReceive p s
  | .arriveReceive p => Sys2Proof.Machine.execArriveReceive p s
  | .joinReceive p => Sys2Proof.Machine.execJoinReceive p s
  | .rejectReceive p => Sys2Proof.Machine.execRejectReceive p s
  | .completeReceive p => Sys2Proof.Machine.execCompleteReceive p s
  | .repairReceive p => Sys2Proof.Machine.execRepairReceive p s
  | .readyReceive p => Sys2Proof.Machine.execReadyReceive p s
  | .releaseReceive p => Sys2Proof.Machine.execReleaseReceive p s
  | .abandonReceive p => Sys2Proof.Machine.execAbandonReceive p s
  | .relayTimeout id => Sys2Proof.Machine.execRelayTimeout id s
  | .rackSyncEdge => Sys2Proof.Machine.execRackSyncEdge s
  | .portEnSet p => Sys2Proof.Machine.execPortEnSet p s
  | .portEnClear p => Sys2Proof.Machine.execPortEnClear p s
  | .portTrainComplete p => Sys2Proof.Machine.execPortTrainComplete p s
  | .laneLoss p lane => Sys2Proof.Machine.execLaneLoss p lane s
  | .handshakeReceive p payload => Sys2Proof.Machine.execHandshakeReceive p payload s
  | .handshakeMsgTimeout k => Sys2Proof.Machine.execHandshakeMsgTimeout k s
  | .handshakeRestart k => Sys2Proof.Machine.execHandshakeRestart k s
  | .dataFrameReceive p frame check => Sys2Proof.Machine.execDataFrameReceive p frame check s
  | .frameFecCheck p frame check corrected uncorrectable => Sys2Proof.Machine.execFrameFecCheck p frame check corrected uncorrectable s
  | .idleReceive p frame check => Sys2Proof.Machine.execIdleReceive p frame check s
  | .nackReceive p frame check => Sys2Proof.Machine.execNackReceive p frame check s
  | .creditReceive p frame check => Sys2Proof.Machine.execCreditReceive p frame check s
  | .keyswitchReceive p frame check => Sys2Proof.Machine.execKeyswitchReceive p frame check s
  | .portstateReceive p frame check => Sys2Proof.Machine.execPortstateReceive p frame check s
  | .dataFrameTransmit p => Sys2Proof.Machine.execDataFrameTransmit p s
  | .idleTransmit p => Sys2Proof.Machine.execIdleTransmit p s
  | .resendTimeout p => Sys2Proof.Machine.execResendTimeout p s
  | .nackRepeat p => Sys2Proof.Machine.execNackRepeat p s
  | .creditTimer p => Sys2Proof.Machine.execCreditTimer p s
  | .oldKeyErase k => Sys2Proof.Machine.execOldKeyErase k s
  | .linkKeyInstall k key salt => Sys2Proof.Machine.execLinkKeyInstall k key salt s
  | .vcbufWrite p val => Sys2Proof.Machine.execVcbufWrite p val s
  | .wtLoadComplete x shard image => Sys2Proof.Machine.execWtLoadComplete x shard image s
  | .pageInRequest i0 => Sys2Proof.Machine.execPageInRequest i0 s
  | .pageInComplete x shard image => Sys2Proof.Machine.execPageInComplete x shard image s
  | .shardCheckComplete => Sys2Proof.Machine.execShardCheckComplete s
  | .idleScrubCheck => Sys2Proof.Machine.execIdleScrubCheck s
  | .refetchComplete x shard image => Sys2Proof.Machine.execRefetchComplete x shard image s
  | .shardReportReceive report => Sys2Proof.Machine.execShardReportReceive report s
  | .repairWaitExpiry pos => Sys2Proof.Machine.execRepairWaitExpiry pos s
  | .repairRequestReceive chip slice pass => Sys2Proof.Machine.execRepairRequestReceive chip slice pass s
  | .shardGiveUp pos => Sys2Proof.Machine.execShardGiveUp pos s
  | .replacementSwap x shard => Sys2Proof.Machine.execReplacementSwap x shard s
  | .standaloneSwap x shard => Sys2Proof.Machine.execStandaloneSwap x shard s
  | .quotaReclaim x => Sys2Proof.Machine.execQuotaReclaim x s
  | .usPairingReceive prog l => Sys2Proof.Machine.execUsPairingReceive prog l s
  | .usChainRecordReceive c record => Sys2Proof.Machine.execUsChainRecordReceive c record s
  | .usBeatDigestReceive c ord digests => Sys2Proof.Machine.execUsBeatDigestReceive c ord digests s
  | .usRecordCountsReceive counts => Sys2Proof.Machine.execUsRecordCountsReceive counts s
  | .usEndReceive => Sys2Proof.Machine.execUsEndReceive s
  | .usPartnerLost => Sys2Proof.Machine.execUsPartnerLost s
  | .usEnClear => Sys2Proof.Machine.execUsEnClear s
  | .packetIntake x => Sys2Proof.Machine.execPacketIntake x s
  | .intakeRestart x => Sys2Proof.Machine.execIntakeRestart x s
  | .mgCxEnSet x val => Sys2Proof.Machine.execMgCxEnSet x val s
  | .mgCxEnClear x val => Sys2Proof.Machine.execMgCxEnClear x val s
  | .msixCoalesceExpiry x vec => Sys2Proof.Machine.execMsixCoalesceExpiry x vec s
  | .ctxQuery x => Sys2Proof.Machine.execCtxQuery x s
  | .ctxEnable x => Sys2Proof.Machine.execCtxEnable x s
  | .ctxDisable x => Sys2Proof.Machine.execCtxDisable x s
  | .quotaSet x => Sys2Proof.Machine.execQuotaSet x s
  | .ctxPreempt x => Sys2Proof.Machine.execCtxPreempt x s
  | .ctxPreemptComplete x => Sys2Proof.Machine.execCtxPreemptComplete x s
  | .ctxResume x => Sys2Proof.Machine.execCtxResume x s
  | .powerCap x => Sys2Proof.Machine.execPowerCap x s
  | .capTakesEffect => Sys2Proof.Machine.execCapTakesEffect s
  | .memMap x => Sys2Proof.Machine.execMemMap x s
  | .memUnmap x => Sys2Proof.Machine.execMemUnmap x s
  | .memCopy x => Sys2Proof.Machine.execMemCopy x s
  | .memCopyComplete x seq hostData stoppedAt => Sys2Proof.Machine.execMemCopyComplete x seq hostData stoppedAt s
  | .memFill x => Sys2Proof.Machine.execMemFill x s
  | .memFillComplete x seq stoppedAt => Sys2Proof.Machine.execMemFillComplete x seq stoppedAt s
  | .hostwinGrant x => Sys2Proof.Machine.execHostwinGrant x s
  | .hostwinRevoke x => Sys2Proof.Machine.execHostwinRevoke x s
  | .hostwinRevokeComplete x seq => Sys2Proof.Machine.execHostwinRevokeComplete x seq s
  | .bar4Map x => Sys2Proof.Machine.execBar4Map x s
  | .progLoad x hostData => Sys2Proof.Machine.execProgLoad x hostData s
  | .progUnload x => Sys2Proof.Machine.execProgUnload x s
  | .launch x => Sys2Proof.Machine.execLaunch x s
  | .launchStart x seq => Sys2Proof.Machine.execLaunchStart x seq s
  | .launchComplete x seq => Sys2Proof.Machine.execLaunchComplete x seq s
  | .launchTimeout x seq => Sys2Proof.Machine.execLaunchTimeout x seq s
  | .launchCancel x => Sys2Proof.Machine.execLaunchCancel x s
  | .launchQuery x => Sys2Proof.Machine.execLaunchQuery x s
  | .revolve x => Sys2Proof.Machine.execRevolve x s
  | .wtLoad x => Sys2Proof.Machine.execWtLoad x s
  | .wtUnload x => Sys2Proof.Machine.execWtUnload x s
  | .wtUnloadComplete x seq => Sys2Proof.Machine.execWtUnloadComplete x seq s
  | .wtReside x => Sys2Proof.Machine.execWtReside x s
  | .wtDemote x => Sys2Proof.Machine.execWtDemote x s
  | .wtDigest x => Sys2Proof.Machine.execWtDigest x s
  | .wtQuery x => Sys2Proof.Machine.execWtQuery x s
  | .flyDelete x => Sys2Proof.Machine.execFlyDelete x s
  | .syMap x => Sys2Proof.Machine.execSyMap x s
  | .syUnmap x => Sys2Proof.Machine.execSyUnmap x s
  | .sySignal x => Sys2Proof.Machine.execSySignal x s
  | .syWatch x => Sys2Proof.Machine.execSyWatch x s
  | .syWcancel x => Sys2Proof.Machine.execSyWcancel x s
  | .syRead x => Sys2Proof.Machine.execSyRead x s
  | .syPair x => Sys2Proof.Machine.execSyPair x s
  | .syCurtain x => Sys2Proof.Machine.execSyCurtain x s
  | .ringDesc x => Sys2Proof.Machine.execRingDesc x s
  | .rtWrite x => Sys2Proof.Machine.execRtWrite x s
  | .sliceBind x => Sys2Proof.Machine.execSliceBind x s
  | .relay x => Sys2Proof.Machine.execRelay x s
  | .ringStatus x => Sys2Proof.Machine.execRingStatus x s
  | .devStatus x => Sys2Proof.Machine.execDevStatus x s
  | .regRead x => Sys2Proof.Machine.execRegRead x s
  | .regWrite x => Sys2Proof.Machine.execRegWrite x s
  | .usPair x => Sys2Proof.Machine.execUsPair x s
  | .identity x => Sys2Proof.Machine.execIdentity x s
  | .attest x => Sys2Proof.Machine.execAttest x s
  | .wkeyInstall x hostData => Sys2Proof.Machine.execWkeyInstall x hostData s
  | .fwUpdate x hostData => Sys2Proof.Machine.execFwUpdate x hostData s
  | .lcQuery x => Sys2Proof.Machine.execLcQuery x s
  | .lcChange x hostData => Sys2Proof.Machine.execLcChange x hostData s
  | .resetWarm x => Sys2Proof.Machine.execResetWarm x s
  | .resetCluster x => Sys2Proof.Machine.execResetCluster x s
  | .clusterWipeComplete c => Sys2Proof.Machine.execClusterWipeComplete c s
  | .resetLink x => Sys2Proof.Machine.execResetLink x s
  | .linkResetOffExpiry p => Sys2Proof.Machine.execLinkResetOffExpiry p s
  | .pcieLinkChange rate width flit => Sys2Proof.Machine.execPcieLinkChange rate width flit s
  | .configRequest fn req => Sys2Proof.Machine.execConfigRequest fn req s
  | .bar0Access fn off bytes wr => Sys2Proof.Machine.execBar0Access fn off bytes wr s
  | .bar2Access fn off bytes wr ide => Sys2Proof.Machine.execBar2Access fn off bytes wr ide s
  | .bar4Access fn off bytes wr ide => Sys2Proof.Machine.execBar4Access fn off bytes wr ide s
  | .vfEnableWrite val => Sys2Proof.Machine.execVfEnableWrite val s
  | .numvfsWrite n => Sys2Proof.Machine.execNumvfsWrite n s
  | .pcieFlr fn => Sys2Proof.Machine.execPcieFlr fn s
  | .flrZeroingComplete x => Sys2Proof.Machine.execFlrZeroingComplete x s
  | .powerStateChange fn dst => Sys2Proof.Machine.execPowerStateChange fn dst s
  | .pcieError fn e header => Sys2Proof.Machine.execPcieError fn e header s
  | .completionTimeout fn victim => Sys2Proof.Machine.execCompletionTimeout fn victim s
  | .ideCheckFailure fn => Sys2Proof.Machine.execIdeCheckFailure fn s
  | .msixUnmask fn vec => Sys2Proof.Machine.execMsixUnmask fn vec s
  | .busMasterEnable fn => Sys2Proof.Machine.execBusMasterEnable fn s
  | .getVersion fn => Sys2Proof.Machine.execGetVersion fn s
  | .getCapabilities fn => Sys2Proof.Machine.execGetCapabilities fn s
  | .negotiateAlgorithms fn => Sys2Proof.Machine.execNegotiateAlgorithms fn s
  | .challenge fn nonce => Sys2Proof.Machine.execChallenge fn nonce s
  | .getMeasurements fn index nonce => Sys2Proof.Machine.execGetMeasurements fn index nonce s
  | .keyExchange fn reqSession pub hbeat => Sys2Proof.Machine.execKeyExchange fn reqSession pub hbeat s
  | .finish fn session mac => Sys2Proof.Machine.execFinish fn session mac s
  | .keyUpdate fn session both => Sys2Proof.Machine.execKeyUpdate fn session both s
  | .heartbeat fn session => Sys2Proof.Machine.execHeartbeat fn session s
  | .endSession fn session => Sys2Proof.Machine.execEndSession fn session s
  | .vendorDefinedRequest fn session key => Sys2Proof.Machine.execVendorDefinedRequest fn session key s
  | .spdmUnsupportedRequest fn code => Sys2Proof.Machine.execSpdmUnsupportedRequest fn code s
  | .hbmRequest sl => Sys2Proof.Machine.execHbmRequest sl s
  | .hbmRequestComplete st i0 outcome => Sys2Proof.Machine.execHbmRequestComplete st i0 outcome s
  | .hbmPatrolRead st ecc => Sys2Proof.Machine.execHbmPatrolRead st ecc s
  | .hbmRefresh st => Sys2Proof.Machine.execHbmRefresh st s
  | .hbmTrainingComplete st ok => Sys2Proof.Machine.execHbmTrainingComplete st ok s
  | .hbmWipeComplete => Sys2Proof.Machine.execHbmWipeComplete s
  | .frameZeroComplete frame => Sys2Proof.Machine.execFrameZeroComplete frame s
  | .powerGood straps fwVerifies => Sys2Proof.Machine.execPowerGood straps fwVerifies s
  | .inputLoss standbyLost => Sys2Proof.Machine.execInputLoss standbyLost s
  | .pllLock => Sys2Proof.Machine.execPllLock s
  | .stage1Enter => Sys2Proof.Machine.execStage1Enter s
  | .fliesMountComplete ok => Sys2Proof.Machine.execFliesMountComplete ok s
  | .stageDeadlineExpiry n => Sys2Proof.Machine.execStageDeadlineExpiry n s
  | .wdogKick val => Sys2Proof.Machine.execWdogKick val s
  | .watchdogExpiry => Sys2Proof.Machine.execWatchdogExpiry s
  | .perstFall => Sys2Proof.Machine.execPerstFall s
  | .perstRise => Sys2Proof.Machine.execPerstRise s
  | .rngHealthFail => Sys2Proof.Machine.execRngHealthFail s
  | .rngHealthRecover => Sys2Proof.Machine.execRngHealthRecover s
  | .debugTokenVerified => Sys2Proof.Machine.execDebugTokenVerified s
  | .debugClose => Sys2Proof.Machine.execDebugClose s
  | .freezeWrite on => Sys2Proof.Machine.execFreezeWrite on s
  | .mgDbgCdataAccess wr => Sys2Proof.Machine.execMgDbgCdataAccess wr s
  | .mgDbgMdataAccess wr => Sys2Proof.Machine.execMgDbgMdataAccess wr s
  | .mgElClr => Sys2Proof.Machine.execMgElClr s
  | .errorMergeExpiry i0 => Sys2Proof.Machine.execErrorMergeExpiry i0 s
  | .hangDetect c => Sys2Proof.Machine.execHangDetect c s
  | .networkPacketReceive i0 parity => Sys2Proof.Machine.execNetworkPacketReceive i0 parity s
  | .jtagTrst => Sys2Proof.Machine.execJtagTrst s
  | .extest drive => Sys2Proof.Machine.execExtest drive s
  | .samplePreload pins preload => Sys2Proof.Machine.execSamplePreload pins preload s
  | .idcode => Sys2Proof.Machine.execIdcode s
  | .dbgStat => Sys2Proof.Machine.execDbgStat s
  | .dbgNonce => Sys2Proof.Machine.execDbgNonce s
  | .dbgAuth token => Sys2Proof.Machine.execDbgAuth token s
  | .dbgReg dr => Sys2Proof.Machine.execDbgReg dr s
  | .dbgRegAccessDone => Sys2Proof.Machine.execDbgRegAccessDone s
  | .bypass bit => Sys2Proof.Machine.execBypass bit s
  | .powerSample vin watts milliamps => Sys2Proof.Machine.execPowerSample vin watts milliamps s
  | .governorTick => Sys2Proof.Machine.execGovernorTick s
  | .overcurrentClamp => Sys2Proof.Machine.execOvercurrentClamp s
  | .clampRelease => Sys2Proof.Machine.execClampRelease s
  | .inputSwitchOpen => Sys2Proof.Machine.execInputSwitchOpen s
  | .inputSwitchClose => Sys2Proof.Machine.execInputSwitchClose s
  | .sensorReading junction hbmTemps optics => Sys2Proof.Machine.execSensorReading junction hbmTemps optics s
  | .thermalRestart junction hbmTemps optics => Sys2Proof.Machine.execThermalRestart junction hbmTemps optics s
  | .referenceLoss => Sys2Proof.Machine.execReferenceLoss s
  | .referenceReturn => Sys2Proof.Machine.execReferenceReturn s
  | .domainLockLoss d => Sys2Proof.Machine.execDomainLockLoss d s
  | .domainRelock d => Sys2Proof.Machine.execDomainRelock d s
  | .relockTimeout d => Sys2Proof.Machine.execRelockTimeout d s
  | .ident => Sys2Proof.Machine.execIdent s
  | .telem => Sys2Proof.Machine.execTelem s
  | .rackcap watts pecOk => Sys2Proof.Machine.execRackcap watts pecOk s
  | .ringdesc desc pecOk => Sys2Proof.Machine.execRingdesc desc pecOk s
  | .warmrst data pecOk => Sys2Proof.Machine.execWarmrst data pecOk s
  | .regrd addr8 => Sys2Proof.Machine.execRegrd addr8 s
  | .nonce => Sys2Proof.Machine.execNonce s
  | .bulkbegin obj len pecOk => Sys2Proof.Machine.execBulkbegin obj len pecOk s
  | .bulkdata off data pecOk => Sys2Proof.Machine.execBulkdata off data pecOk s
  | .bulkend data pecOk => Sys2Proof.Machine.execBulkend data pecOk s
  | .bulkCheckDone => Sys2Proof.Machine.execBulkCheckDone s
  | .status => Sys2Proof.Machine.execStatus s
  | .setdasa addr => Sys2Proof.Machine.execSetdasa addr s
  | .setaasa => Sys2Proof.Machine.execSetaasa s
  | .entdaa addr => Sys2Proof.Machine.execEntdaa addr s
  | .getpid => Sys2Proof.Machine.execGetpid s
  | .getbcr => Sys2Proof.Machine.execGetbcr s
  | .getdcr => Sys2Proof.Machine.execGetdcr s
  | .getstatus => Sys2Proof.Machine.execGetstatus s
  | .rstact => Sys2Proof.Machine.execRstact s
  | .alertResponse => Sys2Proof.Machine.execAlertResponse s
  | .intakeSealTimeout x => Sys2Proof.Machine.execIntakeSealTimeout x s
  | .doeDiscovery fn index => Sys2Proof.Machine.execDoeDiscovery fn index s
  | .hostReadCompletion c data fault => Sys2Proof.Machine.execHostReadCompletion c data fault s
  | .spdmHeartbeatTimeout fn session => Sys2Proof.Machine.execSpdmHeartbeatTimeout fn session s

end Sys2Proof.Machine
end

