-- ==== Sys2Proof/Machine/Tick.lean ====
section
/-! DEFINITION. Sys2Proof/Machine/Tick.lean: one nanosecond of the device with nothing commanded: the clocks, and the counters of
ticks (R8, R439, R481, R622, R700, R721). -/

namespace Sys2Proof.Machine

/-- R456, R481: whether a data frame is ready at port p and lacks only credit of its channel. -/
def State.lacksCredit (s : State) (p : Nat) : Bool :=
  let q := s.port p
  let st := s.portState p
  (st == 3 || st == 4) && q.resend.isEmpty && (s.nextTx p).isNone && q.txq.any (fun f => !(q.credit f.vc))

/-- R622: whether a request of stack st waits for a tracker entry. -/
def State.lacksTracker (s : State) (st : Nat) : Bool :=
  s.mem.track.any (fun t => t.slice % 8 == st && !t.held
    && decide (8192 ≤ (s.mem.track.filter (fun u => u.slice == t.slice && u.held)).length))

/-- Count one in a counter of each of n units for which a test holds. -/
def countWhere (n : Nat) (test : State → Nat → Bool) (reg : Nat → Nat) (s : State) : State :=
  (List.range n).foldl (fun t i => if test s i then t.dinc (reg i) 1 else t) s

/-- R721: the microseconds spent under a limit. -/
def State.limitTicks (s : State) : State :=
  if s.timebase % 1000 ≠ 0 then s
  else
    let g := s.dr PW_GOV_STATUS
    (s.dinc PW_CNT_CAPUS (b2n (bit g 8))).dinc PW_CNT_THERMUS (b2n (bit g 9 || bit g 10))

/-- One tick: the standby domain's clock runs, and with the PLLs locked the timebase (assumption 1). -/
def State.tick (s : State) : State :=
  let s : State := { s with pw := { s.pw with uptime := s.pw.uptime + 1 } }
  if s.pw.on && s.pll && !(s.domStopped 54) then
    let s : State := { s with timebase := s.timebase + 1 }
    (countWhere 8 State.lacksCredit (portReg LK_CNT_CREDWAIT) (countWhere 8 State.lacksTracker (stkReg HM_CNT_TRKWAIT) s)).limitTicks
  else s

end Sys2Proof.Machine
end

