-- ==== Sys2Proof/WellFormed.lean ====
section
/-! DEFINITION. Sys2Proof/WellFormed.lean: which commands are of the form the spec gives them, as far as the types of
their operands do not already say so. -/

namespace Sys2Proof

/-- R11: a register of the register map stands at a multiple of 8. -/
def wfReg (addr : Nat) : Bool := addr % 8 == 0

/-- R594: a configuration access is of one dword of the 4,096 bytes of a function. -/
def wfCfg (r : CfgReq) : Bool := r.offset % 4 == 0 && decide (r.offset < 4096)

/-- R599 to R601: an access through a BAR moves at least one byte. -/
def wfBar (bytes : Nat) : Bool := decide (0 < bytes)

/-- R600, R601: a write carries as many bytes as it names. -/
def wfBarWr (bytes : Nat) (wr : Option (List Byte)) : Bool :=
  wfBar bytes && (match wr with | some bs => bs.length == bytes | none => true)

/-- R317: the host data of a stream transfer are at most the 16 KiB of one transfer. -/
def wfHost (bs : List Byte) : Bool := decide (bs.length ≤ 16384)

/-- R733: a debug token has 5,440 bytes. -/
def wfToken (t : List Byte) : Bool := t.length == 5440

/-- R764: one BULKDATA carries at most 240 bytes. -/
def wfBulk (d : List Byte) : Bool := decide (d.length ≤ 240)

/-- R616: HBM holds eight stacks of 72 GiB. -/
def wfHbm (addr : Nat) : Bool := decide (addr < 618475290624)

/-- R722: the on-die network has 78 stops. -/
def wfStop (i : Nat) : Bool := decide (i < 78)

/-- The commands whose operands have the form the spec gives. -/
def Instr.wf : Instr → Bool
  | .registerWrite _ a _ => wfReg a
  | .configRequest _ r => wfCfg r
  | .bar0Access _ _ n _ => wfBar n
  | .bar2Access _ _ n wr _ => wfBarWr n wr
  | .bar4Access _ _ n wr _ => wfBarWr n wr
  | .streamTransferComplete _ _ bs _ => wfHost bs
  | .dbgAuth t => wfToken t
  | .bulkdata _ d _ => wfBulk d
  | .sharedCacheAccess _ r => wfHbm r.addr
  | .networkPacketReceive i _ => wfStop i
  | _ => true

end Sys2Proof
end

