-- ==== Sys2Proof/Safety.lean ====
section
/-! DEFINITION. Sys2Proof/Safety.lean: the terms in which claims are made: the canonical form of the stores, what the
life-cycle state may be, a safe answer, and what a command leaves alone. -/

namespace Sys2Proof.Machine

/-- The canonical form of every byte store of the device: HBM, the host memory it writes, the scratchpads, and those saved with
pre-empted contexts. -/
def Memory.wf (s : State) : Bool :=
  amWf 0 s.mem.hbm && amWf 0 s.hostMem && s.cls.toList.all (fun k => amWf 0 k.sp)
    && s.ctx.toList.all (fun x => x.saved.all (fun p => amWf 0 p.2.sp))

/-- R656: a life-cycle state is one of the five. -/
def State.lcLegal (s : State) : Bool := decide (s.sec.lc ≤ 4)

/-- The answer is a next state, and it satisfies P. -/
def Res.gives (r : Res) (P : State → Prop) : Prop := ∃ t, r = .next t ∧ P t

/-- A run is safe if no step of it stops. -/
def Res.safe : Res → Bool
  | .next _ => true
  | _ => false

/-- The compute side: clusters, memory, page map, contexts, synchronisation and weights. -/
def State.sameCompute (s t : State) : Prop :=
  t.cls = s.cls ∧ t.mem = s.mem ∧ t.pages = s.pages ∧ t.ctx = s.ctx ∧ t.sy = s.sy ∧ t.wt = s.wt

/-- The host side: contexts, PCI Express and host memory. -/
def State.sameHost (s t : State) : Prop := t.ctx = s.ctx ∧ t.pcie = s.pcie ∧ t.hostMem = s.hostMem

/-- The links and the ring. -/
def State.sameLinks (s t : State) : Prop := t.ports = s.ports ∧ t.links = s.links ∧ t.rv = s.rv

/-- Security, power, start-up, and the service ports. -/
def State.sameService (s t : State) : Prop :=
  t.sec = s.sec ∧ t.pw = s.pw ∧ t.boot = s.boot ∧ t.jtag = s.jtag ∧ t.mb = s.mb

/-- Every cluster but c is unchanged. -/
def State.sameOthers (s t : State) (c : Cl) : Prop := ∀ d : Cl, d ≠ c → t.cl d = s.cl d

/-- Nothing but cluster c differs. -/
def State.within (s t : State) (c : Cl) : Prop := t = s.mod c (fun _ => t.cl c)

/-- The engines of a cluster and what they hold are unchanged: tiles, array, vector engine, streams, scratchpad, handle and
result queues, counters and watches. -/
def Cluster.sameEngines (k j : Cluster) : Prop :=
  j.tiles = k.tiles ∧ j.lds = k.lds ∧ j.arr = k.arr ∧ j.vx = k.vx ∧ j.st = k.st ∧ j.sp = k.sp ∧ j.bad = k.bad ∧ j.hq = k.hq
    ∧ j.resq = k.resq ∧ j.lctr = k.lctr ∧ j.ws = k.ws ∧ j.wait = k.wait

/-- Every device register but those of a list is unchanged. -/
def State.sameRegs (s t : State) (but : List Nat) : Prop := ∀ a, a ∉ but → t.dr a = s.dr a

end Sys2Proof.Machine
end

