-- ==== Sys2Proof/Certificates/Slice0/Obligations.lean ====
section
/-! DEFINITION. Sys2Proof/Certificates/Slice0/Obligations.lean: the statements for the provers. Each says what the rules of
the spec say commands do; the rules are named in its docstring. -/

open Sys2Proof Sys2Proof.Machine

namespace Sys2Proof.Claims

/-! ### The control core (06_cluster_control.md) -/

/-- An engine instruction e that the core may execute now joins the queue of unit u, which has room, with its operand
values and the issue sequence number; the core goes on, or awaits the cue word. A full queue stalls it. -/
def Issues (i : Cl → Instr) (e : EngOp) (u : EngUnit) (stall : Nat → Stall) : Prop :=
  ∀ (s : State) (c : Cl) (w : Nat) (ms : List Nat), s.engAt c e = some (w, ms) →
    (((s.cl c).unit u).q.length < 16 →
      ∃ t, exec (i c) s = .next t ∧ s.within t c ∧ (s.cl c).sameEngines (t.cl c)
        ∧ ((t.cl c).unit u).q = ((s.cl c).unit u).q ++ [⟨BitVec.ofNat 32 w, (e.operands (s.cl c).core w).1,
            (e.operands (s.cl c).core w).2, ((s.cl c).unit u).seq, (s.cl c).tk⟩]
        ∧ ((t.cl c).unit u).seq = (((s.cl c).unit u).seq + 1) % 65536
        ∧ (∀ v, v ≠ u → (t.cl c).unit v = (s.cl c).unit v)
        ∧ (t.cl c).core.x = (s.cl c).core.x ∧ (t.cl c).core.pc = (s.cl c).core.pc + 4
        ∧ (t.cl c).core.stall = stall (iRd w))
    ∧ (16 ≤ ((s.cl c).unit u).q.length → exec (i c) s = .next s)

end Sys2Proof.Claims

open Sys2Proof.Claims

/-- R223, R228, R229, R232. -/
def Obligations.EngineIssueJoinsItsQueue : Prop :=
  Issues .tileCfg .tileCfg .tile (fun _ => .none) ∧ Issues .tileLd .tileLd .tile (fun _ => .none)
  ∧ Issues .tileRel .tileRel .tile (fun _ => .none) ∧ Issues .mxLoad .mxLoad .array (fun _ => .none)
  ∧ Issues .mxRun .mxRun .array (fun _ => .none) ∧ Issues .mxGauge .mxGauge .array (fun _ => .none)
  ∧ Issues .vxChain .vxChain .vector (fun _ => .none) ∧ Issues .stPost .stPost .stream (fun _ => .none)
  ∧ Issues .stResume .stResume .stream (fun _ => .none) ∧ Issues .sySig .sySig .sync (fun _ => .none)
  ∧ Issues .syWatchInstruction .syWatch .sync (fun _ => .none) ∧ Issues .syWait .syWait .sync (fun rd => .cue rd)
  ∧ Issues .syWaitinv .syWaitinv .sync (fun rd => .cue rd)

namespace Sys2Proof.Claims

/-- An instruction that the core executes itself retires: the pc advances by 4, the core stalls as given, and neither a
register nor an engine nor anything outside the cluster changes. -/
def Stalls (i : Cl → Instr) (e : EngOp) (ok : CoreSt → Nat → Prop) (stall : Cluster → Nat → Stall) : Prop :=
  ∀ (s : State) (c : Cl) (w : Nat) (ms : List Nat), s.engAt c e = some (w, ms) → ok (s.cl c).core w →
    ∃ t, exec (i c) s = .next t ∧ s.within t c ∧ (s.cl c).sameEngines (t.cl c) ∧ (t.cl c).uq = (s.cl c).uq
      ∧ (t.cl c).core.x = (s.cl c).core.x ∧ (t.cl c).core.pc = (s.cl c).core.pc + 4
      ∧ (t.cl c).core.stall = stall (s.cl c) w

end Sys2Proof.Claims

/-- R227, R232, R252 to R254. -/
def Obligations.FencesStallTheCore : Prop :=
  Stalls .fenceEng .fenceEng (fun k w => 0 < (k.get (iRs1 w)).toNat ∧ (k.get (iRs1 w)).toNat < 64)
      (fun k w => .fenceEng (k.core.get (iRs1 w)).toNat k.tk)
  ∧ Stalls .fenceEng .fenceEng (fun k w => (k.get (iRs1 w)).toNat = 0) (fun _ _ => .none)
  ∧ Stalls .fenceKern .fenceKern (fun _ _ => True) (fun k _ => .fenceKern k.tk)
  ∧ Stalls .cacheInv .cacheInv (fun k w => 0 < (k.get (iRs2 w)).toNat)
      (fun k w => .cacheInv (k.core.get (iRs1 w)).toNat (k.core.get (iRs2 w)).toNat)
  ∧ Stalls .cacheInv .cacheInv (fun k w => (k.get (iRs2 w)).toNat = 0) (fun _ _ => .none)

/-- R252 to R254. -/
def Obligations.FencesComplete : Prop :=
  (∀ s c m tk, (s.cl c).core.stall = .fenceEng m tk → s.unitsQuiet c m tk = true → (s.cl c).run = true →
    ∃ t, exec (.fenceEngComplete c) s = .next t ∧ s.within t c ∧ (t.cl c).core.stall = .none
      ∧ (t.cl c).core.x = (s.cl c).core.x ∧ (t.cl c).core.pc = (s.cl c).core.pc)
  ∧ (∀ s c m tk, (s.cl c).core.stall = .fenceEng m tk → s.unitsQuiet c m tk = false →
    exec (.fenceEngComplete c) s = .next s)
  ∧ (∀ s c tk, (s.cl c).core.stall = .fenceKern tk → s.kernQuiet c tk = true →
    ((s.ccFlush c).cl c).run = true →
    ∃ t, exec (.fenceKernComplete c) s = .next t ∧ (s.ccFlush c).within t c ∧ (t.cl c).core.stall = .none
      ∧ (t.cl c).core.pc = ((s.ccFlush c).cl c).core.pc)
  ∧ (∀ s c lo len, (s.cl c).core.stall = .cacheInv lo len → ((s.ccInv c (lineIn lo len)).cl c).run = true →
    ∃ t, exec (.cacheInvComplete c) s = .next t ∧ (s.ccInv c (lineIn lo len)).within t c ∧ (t.cl c).core.stall = .none)

/-- R245, R249, R250. -/
def Obligations.EnvironmentCalls : Prop :=
  (∀ s c ms, s.ecallAt c (· == 0) = some ms →
    ∃ t, exec (.ecallExit c) s = .next t ∧ s.within t c ∧ (t.cl c).core.pc = (s.cl c).core.pc + 4
      ∧ (t.cl c).core.stall = .exit (s.cl c).tk (((s.cl c).core.get 10).toNat % 2 ^ 32) ∧ (t.cl c).core.x = (s.cl c).core.x)
  ∧ (∀ s c ms, s.ecallAt c (· == 1) = some ms →
    ∃ t, exec (.ecallHandler c) s = .next t ∧ s.within t c ∧ (t.cl c).core.pc = (s.cl c).core.pc + 4
      ∧ (t.cl c).core.handler = (s.cl c).core.get 10 ∧ (t.cl c).core.fwd = bits ((s.cl c).core.get 11).toNat 4 0
      ∧ (t.cl c).core.x = (s.cl c).core.x)
  ∧ (∀ s c ms, s.ecallAt c (fun n => decide (4 ≤ n)) = some ms →
    ∃ t, exec (.ecallUnknown c) s = .next t ∧ s.within t c ∧ (t.cl c).core.pc = (s.cl c).core.pc + 4
      ∧ (∀ r, r < 32 → (t.cl c).core.get r = if r = 10 then allOnes else (s.cl c).core.get r))
  ∧ (∀ s c ms, (s.cl c).core.inHand = false → s.ecallAt c (· == 2) = some ms →
    ∃ t, exec (.ecallHret c) s = .next t ∧ s.within t c ∧ (t.cl c).core.pc = (s.cl c).core.pc + 4
      ∧ (∀ r, r < 32 → (t.cl c).core.get r = if r = 10 then allOnes else (s.cl c).core.get r))
  ∧ (∀ s c ms vs u, (s.cl c).core.inHand = true → s.ecallAt c (· == 2) = some ms →
    (s.fillI c ms).loadWords c ((s.fillI c ms).cl c).core.area.toNat 32 = .ok vs u →
    Nat.land (u.cl c).core.handPend (u.cl c).pendBits = 0 →
    ∃ t, exec (.ecallHret c) s = .next t ∧ u.within t c ∧ (t.cl c).core.inHand = false ∧ (t.cl c).core.pc = vs.headD 0
      ∧ (∀ r, 0 < r → r < 32 → (t.cl c).core.get r = vs.getD r 0))
  ∧ (∀ s c ms, s.ecallAt c (· == 3) = some ms →
    ∃ u, s.within u c ∧ (u.cl c).core.pc = (s.cl c).core.pc + 4 ∧ (u.cl c).core.x = (s.cl c).core.x
      ∧ exec (.ecallEvent c) s = .next (u.event (s.cl c).owner 3 OK s.timebase
          (leBytes 8 ((s.cl c).core.get 10).toNat ++ leBytes 8 ((s.cl c).core.get 11).toNat)))

/-- R243 to R245. -/
def Obligations.InterruptsAreTaken : Prop :=
  (∀ s c (i : Fin 5), (s.cl c).coreStopped = false → (s.cl c).coreHalted = false → (s.cl c).wiping = false →
    (s.cl c).core.inHand = false → (s.cl c).irqPending (16 + i.val) = true →
    ((s.cl c).core.handler = 0 ∨ bit (s.cl c).core.fwd i.val = false) →
    (i.val ≠ 0 → ∃ t, exec (.interruptEntry c i) s = .next t ∧ s.within t c ∧ (t.cl c).core.x = (s.cl c).core.x
      ∧ (t.cl c).core.pc = (s.cl c).core.pc ∧ (t.cl c).core.irqs = nsDel (s.cl c).core.irqs (16 + i.val))
    ∧ (i.val = 0 → exec (.interruptEntry c i) s = .next (s.endKernel c ((s.cl c).fltStatus (s.cl c).pendBits))))
  ∧ (∀ s c (i : Fin 5) vs u, (s.cl c).coreStopped = false → (s.cl c).coreHalted = false → (s.cl c).wiping = false →
    (s.cl c).core.inHand = false → (s.cl c).irqPending (16 + i.val) = true → (s.cl c).core.handler ≠ 0 →
    bit (s.cl c).core.fwd i.val = true → (s.cl c).core.stall = .none → (s.cl c).core.awaiting = [] →
    (((s.cl c).core.get 2).toNat + 2 ^ 64 - 256) % 2 ^ 64 % 8 = 0 →
    s.saveWords c ((((s.cl c).core.get 2).toNat + 2 ^ 64 - 256) % 2 ^ 64)
      ((s.cl c).core.pc :: (upFrom 1 31).map (s.cl c).core.get) = .ok vs u →
    ∃ t, exec (.interruptEntry c i) s = .next t ∧ u.within t c ∧ (t.cl c).core.inHand = true
      ∧ (t.cl c).core.pc = (u.cl c).core.handler ∧ (t.cl c).core.get 10 = word (16 + i.val)
      ∧ (t.cl c).core.get 2 = word ((((s.cl c).core.get 2).toNat + 2 ^ 64 - 256) % 2 ^ 64))
  ∧ (∀ s c i, (s.cl c).core.inHand = true → exec (.interruptEntry c i) s = .next s)

namespace Sys2Proof.Claims

/-- The core may carry out base word w, of len bytes, now; its fetch missed the lines ms. -/
def CoreAt (s : State) (c : Cl) (w len : Nat) (ms : List Nat) : Prop :=
  (s.cl c).coreReady = true ∧ s.atBreak c = false ∧ ownRow w = false ∧ (s.cl c).core.awaits w = false
    ∧ ∃ raw, s.fetch c = .ok raw len ms ∧ baseWord raw len = some w

/-- The instruction writes v to its rd, or to none if rd is x0, and goes on at pc; no other register, no engine, and nothing
outside the cluster changes. -/
def Writes (s : State) (c : Cl) (w : Nat) (v pc : Word) : Prop :=
  ∃ t, (∀ ecc, exec (.coreInstruction c ecc) s = .next t) ∧ s.within t c ∧ (s.cl c).sameEngines (t.cl c)
    ∧ (t.cl c).uq = (s.cl c).uq ∧ (t.cl c).core.pc = pc ∧ (t.cl c).core.instret = (s.cl c).core.instret + 1
    ∧ (∀ r, (t.cl c).core.get r = if r = iRd w ∧ r ≠ 0 then v else (s.cl c).core.get r)

end Sys2Proof.Claims

/-- R213, R215. -/
def Obligations.ArithmeticWritesRdAlone : Prop :=
  (∀ s c w len ms v, CoreAt s c w len ms → (iOp w = 0x33 ∨ iOp w = 0x3B) →
    opValue w ((s.cl c).core.get (iRs1 w)).toNat ((s.cl c).core.get (iRs2 w)).toNat = some v →
    Writes s c w v ((s.cl c).core.pc + word len))
  ∧ (∀ s c w len ms v, CoreAt s c w len ms → (iOp w = 0x13 ∨ iOp w = 0x1B) →
    opImmValue w ((s.cl c).core.get (iRs1 w)).toNat = some v → Writes s c w v ((s.cl c).core.pc + word len))
  ∧ (∀ s c w len ms, CoreAt s c w len ms → iOp w = 0x37 →
    Writes s c w (word (wrapInt 64 (immU w))) ((s.cl c).core.pc + word len))
  ∧ (∀ s c w len ms, CoreAt s c w len ms → iOp w = 0x17 →
    Writes s c w (word (wrapInt 64 (((s.cl c).core.pc.toNat : Int) + immU w))) ((s.cl c).core.pc + word len))

namespace Sys2Proof.Claims

/-- The instruction goes on at pc with v in rd; nothing outside the cluster changes but the free values drawn. -/
def Jumps (s : State) (c : Cl) (rd : Nat) (v pc : Word) : Prop :=
  ∃ t, (∀ ecc, exec (.coreInstruction c ecc) s = .next t) ∧ (t.cl c).core.pc = pc
    ∧ (∀ r, (t.cl c).core.get r = if r = rd ∧ r ≠ 0 then v else (s.cl c).core.get r)
    ∧ s.sameOthers t c ∧ t.mem = s.mem ∧ t.ctx = s.ctx ∧ t.regs = s.regs ∧ t.sy = s.sy ∧ (s.cl c).sameEngines (t.cl c)

end Sys2Proof.Claims

/-- R213, R221. -/
def Obligations.JumpsAndBranches : Prop :=
  (∀ s c w len ms, CoreAt s c w len ms → iOp w = 0x6F →
    Jumps s c (iRd w) ((s.cl c).core.pc + word len) (word (wrapInt 64 (((s.cl c).core.pc.toNat : Int) + immJ w))))
  ∧ (∀ s c w len ms, CoreAt s c w len ms → iOp w = 0x67 → iF3 w = 0 →
    Jumps s c (iRd w) ((s.cl c).core.pc + word len)
      (word (wrapInt 64 ((((s.cl c).core.get (iRs1 w)).toNat : Int) + immI w) / 2 * 2)))
  ∧ (∀ s c w len ms b, CoreAt s c w len ms → iOp w = 0x63 →
    branchTaken (iF3 w) ((s.cl c).core.get (iRs1 w)).toNat ((s.cl c).core.get (iRs2 w)).toNat = some b →
    Jumps s c 0 0 (if b then word (wrapInt 64 (((s.cl c).core.pc.toNat : Int) + immB w)) else (s.cl c).core.pc + word len))

/-- R217, R263. -/
def Obligations.ScratchpadLoadsAndStores : Prop :=
  (∀ s c w len ms a, CoreAt s c w len ms → iOp w = 0x03 → iF3 w ≠ 7 →
    a = wrapInt 64 ((((s.cl c).core.get (iRs1 w)).toNat : Int) + immI w) → a < 524288 → a % 2 ^ (iF3 w % 4) = 0 →
    (s.cl c).bad.contains (a / 8) = false →
    ∃ t, exec (.coreInstruction c .clean) s = .next t ∧ s.within t c ∧ (t.cl c).sp = (s.cl c).sp
      ∧ (t.cl c).core.pc = (s.cl c).core.pc + word len
      ∧ (∀ r, (t.cl c).core.get r = if r = iRd w ∧ r ≠ 0
          then extend (2 ^ (iF3 w % 4)) (decide (iF3 w < 4)) (leNat ((s.cl c).spRead a (2 ^ (iF3 w % 4))))
          else (s.cl c).core.get r))
  ∧ (∀ s c w len ms a, CoreAt s c w len ms → iOp w = 0x23 → iF3 w < 4 →
    a = wrapInt 64 ((((s.cl c).core.get (iRs1 w)).toNat : Int) + immS w) → a < 524288 → a % 2 ^ iF3 w = 0 →
    (iF3 w = 3 ∨ (s.cl c).bad.contains (a / 8) = false) →
    ∃ t, exec (.coreInstruction c .clean) s = .next t ∧ s.within t c ∧ (t.cl c).core.x = (s.cl c).core.x
      ∧ (t.cl c).core.pc = (s.cl c).core.pc + word len
      ∧ (t.cl c).spRead a (2 ^ iF3 w) = leBytes (2 ^ iF3 w) ((s.cl c).core.get (iRs2 w)).toNat
      ∧ (∀ j, j < a ∨ a + 2 ^ iF3 w ≤ j → amGet 0 (t.cl c).sp j = amGet 0 (s.cl c).sp j))

/-- R246. -/
def Obligations.ExceptionsEndTheKernel : Prop :=
  let Ends := fun (s t : State) (c : Cl) (cause tval : Nat) =>
    (t.cl c).core.mode = .stopped ∧ (t.cl c).core.endRep = some ⟨FAULT, word cause, (s.cl c).core.pc, word tval⟩
  (∀ s c raw len ms, (s.cl c).coreReady = true → s.atBreak c = false → s.fetch c = .ok raw len ms →
    baseWord raw len = none → ∃ t, exec (.coreInstruction c .clean) s = .next t ∧ Ends s t c 2 raw)
  ∧ (∀ s c a, (s.cl c).coreReady = true → s.atBreak c = false → s.fetch c = .fault a →
    ∃ t, exec (.coreInstruction c .clean) s = .next t ∧ Ends s t c 1 a)
  ∧ (∀ s c w len ms a, CoreAt s c w len ms → iOp w = 0x03 → iF3 w ≠ 7 →
    a = wrapInt 64 ((((s.cl c).core.get (iRs1 w)).toNat : Int) + immI w) → misaligned a (2 ^ (iF3 w % 4)) = true →
    ∃ t, exec (.coreInstruction c .clean) s = .next t ∧ Ends s t c 4 a)
  ∧ (∀ s c w len ms a, CoreAt s c w len ms → iOp w = 0x23 → iF3 w < 4 →
    a = wrapInt 64 ((((s.cl c).core.get (iRs1 w)).toNat : Int) + immS w) → misaligned a (2 ^ iF3 w) = true →
    ∃ t, exec (.coreInstruction c .clean) s = .next t ∧ Ends s t c 6 a)
  ∧ (∀ s c w len ms a, CoreAt s c w len ms → iOp w = 0x03 → iF3 w ≠ 7 →
    a = wrapInt 64 ((((s.cl c).core.get (iRs1 w)).toNat : Int) + immI w) → misaligned a (2 ^ (iF3 w % 4)) = false →
    (s.fillI c ms).space c a (2 ^ (iF3 w % 4)) = .none →
    ∃ t, exec (.coreInstruction c .clean) s = .next t ∧ Ends s t c 5 a)
  ∧ (∀ s c len ms, CoreAt s c 0x00100073 len ms → bit (s.dr MG_DBG_ATTACH) c.val = false →
    ∃ t, exec (.coreInstruction c .clean) s = .next t ∧ Ends s t c 3 (s.cl c).core.pc.toNat)
  ∧ (∀ s c len ms, CoreAt s c 0x00100073 len ms → bit (s.dr MG_DBG_ATTACH) c.val = true →
    ∃ t, exec (.coreInstruction c .clean) s = .next t ∧ (t.cl c).haltBit = true ∧ (t.cl c).core.mode = (s.cl c).core.mode
      ∧ (t.cl c).core.pc = (s.cl c).core.pc ∧ (t.cl c).core.endRep = (s.cl c).core.endRep)

/-- R285, R295, R489, R767. -/
def Obligations.CoreAccessesResume : Prop :=
  (∀ s c p cause a, (s.cl c).core.stall = .page p cause a →
    (∀ q, s.translate (s.cl c).owner (p * 2097152) ≠ .absent q) → (s.cl c).run = true →
    exec (.corePageInResume c true) s = (s.core c (fun k => { k with stall := .none })).coreGo c .clean)
  ∧ (∀ s c p cause a, (s.cl c).core.stall = .page p cause a →
    ∃ t, exec (.corePageInResume c false) s = .next t ∧ (t.cl c).core.mode = .stopped
      ∧ (t.cl c).core.endRep = some ⟨FAULT, word cause, (s.cl c).core.pc, a⟩)
  ∧ (∀ s c line ecc m p ro, (s.cl c).misses.find? (fun m => m.line == line) = some m → m.uses = [] →
    s.translate (s.cl c).owner (gOff (line * 64)) = .at_ p ro →
    exec (.clusterCacheMissFill c line ecc) s = .next (((s.mod c (fun k => { k with
      misses := k.misses.filter (fun y => y.line ≠ line) })).shcEcc (shcSlice p) (p / 64) ecc).ccFill c line 0 0 true))
  ∧ (∀ s c line ecc m p ro, (s.cl c).misses.find? (fun m => m.line == line) = some m → m.uses ≠ [] →
    s.translate (s.cl c).owner (gOff (line * 64)) = .at_ p ro →
    exec (.clusterCacheMissFill c line ecc) s = .next ((m.uses.foldl (fun s u => s.useLine c u)
      (((s.mod c (fun k => { k with misses := k.misses.filter (fun y => y.line ≠ line) })).shcEcc (shcSlice p) (p / 64)
        ecc).ccFill c line 0 1 false)).prefetch c line))
  ∧ (∀ s c rd n sg a len data, (s.cl c).core.stall = .hostRead rd n sg a len → s.mayMaster (s.cl c).owner = true →
    (s.cl c).run = true →
    ∃ t, exec (.hostReadCompletion c data false) s = .next t ∧ s.within t c ∧ (t.cl c).core.stall = .none
      ∧ (t.cl c).core.pc = (s.cl c).core.pc + word len
      ∧ (0 < rd → rd < 32 → (t.cl c).core.get rd = extend n sg (data.toNat % 2 ^ (8 * n))))
  ∧ (∀ s c rd n sg a len data, (s.cl c).core.stall = .hostRead rd n sg a len → s.mayMaster (s.cl c).owner = true →
    ∃ t, exec (.hostReadCompletion c data true) s = .next t ∧ (t.cl c).core.mode = .stopped
      ∧ (t.cl c).core.mcause = word 5)

/-- R235, R237, R239. -/
def Obligations.HandleQueueAccesses : Prop :=
  (∀ s c (n : Fin 8) val, ((s.cl c).queue n.val).length < 16 → bit (s.cr c CL_Q_SIG) (8 * n.val + 6) = false →
    ∃ t, exec (.clQPush c n val) s = .next t ∧ s.within t c
      ∧ (t.cl c).queue n.val = (s.cl c).queue n.val
          ++ [⟨BitVec.ofNat 32 (bits val.toNat 5 0 + bits val.toNat 31 8 * 256), none⟩]
      ∧ (∀ m : Fin 8, m ≠ n → (t.cl c).queue m.val = (s.cl c).queue m.val) ∧ (t.cl c).resq = (s.cl c).resq)
  ∧ (∀ s c (n : Fin 8) val, 16 ≤ ((s.cl c).queue n.val).length →
    exec (.clQPush c n val) s = .next (s.cwf c CL_Q_ERR n.val n.val 1))
  ∧ (∀ s c (n : Fin 8) e q, (s.cl c).queue n.val = e :: q →
    ∃ t, exec (.clQPop c n) s = .next t ∧ t.readData = word (e.word.toNat + 2 ^ 32) ∧ (t.cl c).queue n.val = q
      ∧ (∀ m : Fin 8, m ≠ n → (t.cl c).queue m.val = (s.cl c).queue m.val) ∧ s.sameOthers t c ∧ t.mem = s.mem)
  ∧ (∀ s c (n : Fin 8), (s.cl c).queue n.val = [] → exec (.clQPop c n) s = .next { s with readData := 0 })
  ∧ (∀ s c w q, (s.cl c).resq = w :: q →
    ∃ t, exec (.clQRespop c) s = .next t ∧ t.readData = word (w.toNat + 2 ^ 32) ∧ (t.cl c).resq = q
      ∧ (t.cl c).hq = (s.cl c).hq ∧ s.sameOthers t c ∧ t.mem = s.mem)
  ∧ (∀ s c, (s.cl c).resq = [] → exec (.clQRespop c) s = .next { s with readData := 0 })
  ∧ (∀ s c val, (s.cl c).arrayIdle = true → (s.cl c).vectorIdle = true →
    ∃ t, exec (.clQRouteWrite c val) s = .next t ∧ s.within t c ∧ (∀ p, p < 6 → (t.cl c).port p = bits val.toNat (4 * p + 2) (4 * p)))
  ∧ (∀ s c val, (s.cl c).arrayIdle = false → bits val.toNat 2 0 ≠ (s.cl c).port 0 →
    exec (.clQRouteWrite c val) s = .next (s.cwf c CL_Q_ERR 8 8 1))

/-- R134, R222, R247, R248, R256, R257. -/
def Obligations.LaunchAndStopOfTheCore : Prop :=
  (∀ s c, (s.cl c).run = false →
    let u := s.ccInv c (fun _ => true)
    ∃ t, exec (.coreRunSet c) s = .next t
      ∧ (t.cl c).core.pc = word ((u.cl c).r CL_CORE_ENTRY / 2 * 2) ∧ (t.cl c).core.mode = .running ∧ (t.cl c).core.user = true
      ∧ (∀ r, 0 < r → r < 32 → (t.cl c).core.get r =
          if r = 2 then word ((u.cl c).r CL_CORE_STACK) else if r = 10 then word (bits ((u.cl c).r CL_CORE_LAUNCH) 15 0)
          else if r = 11 then word ((u.cl c).r CL_CORE_ARG) else if r = 12 then word (bits ((u.cl c).r CL_CORE_LAUNCH) 31 16) else 0)
      ∧ (∀ n, n < 8 → (t.cl c).queue n = []) ∧ (t.cl c).resq = [] ∧ (∀ v, (t.cl c).unit v = {}) ∧ (t.cl c).core.handler = 0
      ∧ (t.cl c).arr = (u.cl c).arr ∧ (t.cl c).vx = (u.cl c).vx ∧ (t.cl c).st = (u.cl c).st ∧ (t.cl c).tiles = (u.cl c).tiles)
  ∧ (∀ s c, (s.cl c).run = true → exec (.coreRunSet c) s = .next s)
  ∧ (∀ s c, (s.cl c).core.stall = .none → ∃ t, exec (.coreRunClear c) s = .next t ∧ s.within t c ∧ (t.cl c).run = false
      ∧ (t.cl c).core.mode = .stopped ∧ (s.cl c).sameEngines (t.cl c) ∧ (t.cl c).uq = (s.cl c).uq)
  ∧ (∀ s c, exec (.bpclr c) s = .next (s.mod c (fun k => { k with core := { k.core with pred := {} } })))
  ∧ (∀ s c, exec (.peakclr c) s = .next (s.mod c (fun k => { k with arr := { k.arr with peak := {}, peakRun := 0 } })))
  ∧ (∀ s c, ∃ t, exec (.rateclr c) s = .next t ∧ s.within t c ∧ bits ((t.cl c).r CL_STEP_RATE) 15 0 = bits ((s.cl c).r CL_STEP_RATE) 15 0
      ∧ bits ((t.cl c).r CL_STEP_RATE) 31 16 = 65535 ∧ bits ((t.cl c).r CL_STEP_RATE) 48 32 = 0)
  ∧ (∀ s c, (s.cl c).rateWin < s.timebase / 4096 → (s.cl c).rateOk = true → ∃ t, exec (.stepRateWindowEnd c) s = .next t
      ∧ s.within t c ∧ bits ((t.cl c).r CL_STEP_RATE) 15 0 = min (s.cl c).rateN 65535 ∧ (t.cl c).rateN = 0)

/-- R242, R734, R738, R739, R742, R743, R747. -/
def Obligations.DebugControlOfACore : Prop :=
  (∀ s c, s.debugOpen = true → (s.cl c).haltBit = false → (s.cl c).coreReady = true → s.blocked c = false →
    ∃ t, exec (.debugHalt c) s = .next t ∧ s.within t c ∧ (t.cl c).coreHalted = true ∧ (t.cl c).core.pc = (s.cl c).core.pc)
  ∧ (∀ s c, s.debugOpen = false → (s.cl c).haltBit = false → exec (.debugHalt c) s = .next s.denied)
  ∧ (∀ s c, s.debugOpen = true → (s.cl c).haltBit = true → ∃ t, exec (.debugResume c) s = .next t ∧ s.within t c
      ∧ (t.cl c).haltBit = false ∧ (t.cl c).core.pc = (s.cl c).core.pc ∧ (t.cl c).core.x = (s.cl c).core.x)
  ∧ (∀ s c, s.debugOpen = true → (s.cl c).coreHalted = true →
      exec (.debugStep c) s = .next (s.mod c (fun k => { k with core := { k.core with step := true } })))
  ∧ (∀ s c, s.debugOpen = false → exec (.debugStep c) s = .next s.denied)
  ∧ (∀ s c n v, s.debugOpen = true → toCl (bits (s.dr MG_DBG_CSEL) 5 0) = some c → bits (s.dr MG_DBG_CSEL) 13 8 = n →
    (s.cl c).coreState = 2 → (s.cl c).core.dbgReg n = some v →
      exec (.mgDbgCdataAccess none) s = .next { s with readData := v }
      ∧ ∀ w, exec (.mgDbgCdataAccess (some w)) s = .next (s.mod c (fun k => { k with core := k.core.dbgSet n w })))
  ∧ (∀ s w c, s.debugOpen = false → toCl (bits (s.dr MG_DBG_CSEL) 5 0) = some c →
      exec (.mgDbgCdataAccess (some w)) s = .next s.denied ∧ exec (.mgDbgMdataAccess (some w)) s = .next s.denied)
  ∧ (∀ s c v u, s.debugOpen = true → toCl (bits (s.dr MG_DBG_CSEL) 5 0) = some c → (s.cl c).coreState = 2 →
    s.dr MG_DBG_MADDR % 8 = 0 → s.memLoad c (s.dr MG_DBG_MADDR) 8 .clean true = .ok v u →
      exec (.mgDbgMdataAccess none) s = .next { u with readData := word v })
  ∧ (∀ s c, 0 < bits (s.dr MG_DBG_HANG) 15 0 → (s.cl c).hung = false → (s.cl c).coreState ≠ 0 →
    (s.cl c).hangAt + 1000000 * bits (s.dr MG_DBG_HANG) 15 0 ≤ s.timebase →
      exec (.hangDetect c) s = .next (((s.mod c (fun k => { k with hung := true })).dinc MG_DBG_CNT_HANG 1).logErr
        { source := 0x15, cls := INFO, cause := 1, unit := c.val, ctx := some (s.cl c).owner, info := word (s.cl c).coreStatus }))
  ∧ (∀ s c (val : Word) u, bit val.toNat (4 + unitNo u) = true → ∃ t, exec (.pendClear c val) s = .next t ∧ s.within t c
      ∧ (t.cl c).pend u = false)

namespace Sys2Proof.Claims

/-! ### Tile unit, array and vector engine (03 to 05) -/

/-- Unit u takes its head instruction q, writing v to q's rd: no other queue, no other register, not the pc, not the
scratchpad, and nothing outside the cluster changes. -/
def Takes (s t : State) (c : Cl) (u : EngUnit) (q : QInsn) (v : Word) : Prop :=
  s.within t c ∧ ((t.cl c).unit u).q = ((s.cl c).unit u).q.tail ∧ (∀ w, w ≠ u → (t.cl c).unit w = (s.cl c).unit w)
    ∧ (∀ r, r < 32 → (t.cl c).core.get r = if r = q.rd ∧ r ≠ 0 then v else (s.cl c).core.get r)
    ∧ (t.cl c).core.pc = (s.cl c).core.pc ∧ (t.cl c).sp = (s.cl c).sp

end Sys2Proof.Claims

/-- R106, R125, R126, R132, R133, R142, R143, R146, R148, R230, R241, R768. -/
def Obligations.TileAndArrayAccept : Prop :=
  (∀ s c q f, (s.cl c).ready .tile 0 = some q → tileCfgCheck (s.cl c) q = .pass → Fmt.ofCode (bits q.rs1.toNat 9 6) = some f →
    ∃ t, exec (.tileCfgAccept c) s = .next t ∧ Takes s t c .tile q (word ((s.cl c).tileCfg (bits q.rs1.toNat 2 0) % 2 ^ 32))
      ∧ ((t.cl c).tile (bits q.rs1.toNat 2 0)).shape = bits q.rs1.toNat 5 3 ∧ ((t.cl c).tile (bits q.rs1.toNat 2 0)).fmt = f
      ∧ ((t.cl c).tile (bits q.rs1.toNat 2 0)).pair = bit q.rs1.toNat 10 ∧ ((t.cl c).tile (bits q.rs1.toNat 2 0)).valid = [])
  ∧ (∀ s c q, (s.cl c).ready .tile 2 = some q → bits q.rs1.toNat 63 3 = 0 → ((s.cl c).tile (bits q.rs1.toNat 2 0)).member = false →
    ∃ t, exec (.tileRelAccept c) s = .next t ∧ Takes s t c .tile q 0 ∧ ((t.cl c).tile (bits q.rs1.toNat 2 0)).shape = 0
      ∧ ((t.cl c).tile (bits q.rs1.toNat 2 0)).valid = [])
  ∧ (∀ s c q, (s.cl c).ready .tile 1 = some q → tileLdCheck (s.cl c) q = .pass →
    ∃ t, exec (.tileLdAccept c) s = .next t ∧ Takes s t c .tile q 0 ∧ (t.cl c).tiles = (s.cl c).tiles
      ∧ (t.cl c).lds = (s.cl c).lds ++
        [{ tk := q.tk, t := tileLdReg q, addr := q.rs1.toNat, first := bits q.rs2.toNat 9 0,
           count := bits q.rs2.toNat 20 10, stride := bits q.rs2.toNat 39 21, scoff := bits q.rs2.toNat 63 40 }])
  ∧ (∀ s c q, (s.cl c).ready .array 0 = some q → (s.cl c).arr.loads.any (fun l => l.started.isNone) = false →
    mxLoadOk (s.cl c) q = true →
    ∃ t, exec (.mxLoadAccept c) s = .next t ∧ Takes s t c .array q 0 ∧ (t.cl c).arr = { (s.cl c).arr with
      loads := (s.cl c).arr.loads ++
        [{ tk := q.tk, t := mxLoadT q, pack := mxLoadPack q, rep := mxLoadRep q
           fmt := ((s.cl c).tile (mxLoadT q)).fmt }] })
  ∧ (∀ s c q, (s.cl c).ready .array 2 = some q → bits q.rs1.toNat 63 16 = 0 →
    ∃ t, exec (.mxGaugeAccept c) s = .next t ∧ Takes s t c .array q (word (s.cl c).arr.gauge.code)
      ∧ (t.cl c).arr = { (s.cl c).arr with gauge := Gauge.ofCode q.rs1.toNat })
  ∧ (∀ s c q f, (s.cl c).ready .array 1 = some q → (s.cl c).arr.runs.any (fun r => !r.begun && r.count != 0) = false →
    mxRunCheck1 (s.cl c) (runDesc q) = .pass → Fmt.ofCode (runDesc q).wfmt = some f → (runDesc q).kind = true →
    mxRunCheck2 (s.cl c) (mkRun (s.cl c) q (runDesc q) f none ⟨0, 0⟩) = .pass →
    ∃ t, exec (.mxRunAccept c false) s = .next t ∧ Takes s t c .array q (word (s.cl c).arr.nextRun)
      ∧ (t.cl c).arr = { (s.cl c).arr with
          runs := (s.cl c).arr.runs ++ [mkRun (s.cl c) q (runDesc q) f none ⟨0, 0⟩]
          nextRun := ((s.cl c).arr.nextRun + 1) % 65536 })
  ∧ (∀ s c q f h, (s.cl c).ready .array 1 = some q → (s.cl c).arr.runs.any (fun r => !r.begun && r.count != 0) = false →
    mxRunCheck1 (s.cl c) (runDesc q) = .pass → Fmt.ofCode (runDesc q).wfmt = some f → (runDesc q).kind = false →
    ((s.cl c).queue ((s.cl c).port 0)).head? = some h →
    mxRunCheck2 (s.cl c) (mkRun (s.cl c) q (runDesc q) f (some h) ((s.cl c).prop h.handle)) = .pass →
    ∃ t, exec (.mxRunAccept c false) s = .next t ∧ Takes s t c .array q (word (s.cl c).arr.nextRun)
      ∧ (t.cl c).queue ((s.cl c).port 0) = ((s.cl c).queue ((s.cl c).port 0)).tail
      ∧ (t.cl c).arr.runs = (s.cl c).arr.runs ++ [mkRun (s.cl c) q (runDesc q) f (some h) ((s.cl c).prop h.handle)])
  ∧ (∀ s c u q, (s.cl c).head u = some q → (s.cl c).pend u = true → (q.word.toNat % 128 ≠ 0x7B) →
    ∃ t, exec (.instructionDiscard c u) s = .next t ∧ Takes s t c u q allOnes)

namespace Sys2Proof.Claims

/-- Instruction q faults at unit u with a status. -/
def Faults (s t : State) (c : Cl) (u : EngUnit) (q : QInsn) (status : Nat) : Prop :=
  Takes s t c u q allOnes ∧ (t.cl c).pend u = true ∧ (t.cl c).irqPending 16 = true
    ∧ (bit ((s.cl c).r CL_FLT_INFO) 3 = false →
        bits ((t.cl c).r CL_FLT_INFO) 2 0 = unitNo u ∧ bit ((t.cl c).r CL_FLT_INFO) 3 = true
        ∧ bits ((t.cl c).r CL_FLT_INFO) 31 16 = status ∧ bits ((t.cl c).r CL_FLT_INFO) 47 32 = q.seq % 65536
        ∧ (t.cl c).r CL_FLT_INSN = q.word.toNat ∧ (t.cl c).r CL_FLT_RS1 = q.rs1.toNat ∧ (t.cl c).r CL_FLT_RS2 = q.rs2.toNat)
    ∧ (bit ((s.cl c).r CL_FLT_INFO) 3 = true →
        bits ((t.cl c).r CL_FLT_INFO) 2 0 = bits ((s.cl c).r CL_FLT_INFO) 2 0
        ∧ bits ((t.cl c).r CL_FLT_INFO) 31 16 = bits ((s.cl c).r CL_FLT_INFO) 31 16
        ∧ (t.cl c).r CL_FLT_INSN = (s.cl c).r CL_FLT_INSN ∧ (t.cl c).r CL_FLT_RS1 = (s.cl c).r CL_FLT_RS1
        ∧ (t.cl c).r CL_FLT_RS2 = (s.cl c).r CL_FLT_RS2)

end Sys2Proof.Claims

/-- R240. -/
def Obligations.EngineFaultsAreCaptured : Prop :=
  (∀ s c q st, (s.cl c).ready .tile 0 = some q → tileCfgCheck (s.cl c) q = .fault st →
    ∃ t, exec (.tileCfgAccept c) s = .next t ∧ Faults s t c .tile q st)
  ∧ (∀ s c q st, (s.cl c).ready .tile 1 = some q → tileLdCheck (s.cl c) q = .fault st →
    ∃ t, exec (.tileLdAccept c) s = .next t ∧ Faults s t c .tile q st)
  ∧ (∀ s c q, (s.cl c).ready .tile 2 = some q → bits q.rs1.toNat 63 3 ≠ 0 →
    ∃ t, exec (.tileRelAccept c) s = .next t ∧ Faults s t c .tile q SHAPE)
  ∧ (∀ s c q, (s.cl c).ready .array 0 = some q → (s.cl c).arr.loads.any (fun l => l.started.isNone) = false →
    mxLoadOk (s.cl c) q = false → ∃ t, exec (.mxLoadAccept c) s = .next t ∧ Faults s t c .array q SHAPE)
  ∧ (∀ s c q, (s.cl c).ready .array 2 = some q → bits q.rs1.toNat 63 16 ≠ 0 →
    ∃ t, exec (.mxGaugeAccept c) s = .next t ∧ Faults s t c .array q SHAPE)
  ∧ (∀ s c q st, (s.cl c).ready .array 1 = some q → (s.cl c).arr.runs.any (fun r => !r.begun && r.count != 0) = false →
    mxRunCheck1 (s.cl c) (runDesc q) = .fault st → ∃ t, exec (.mxRunAccept c false) s = .next t ∧ Faults s t c .array q st)
  ∧ (∀ s c q st, (s.cl c).ready .vector 0 = some q → s.usWaits c = false →
    (s.cl c).queuesReady ((s.cl c).spRead (bits q.rs1.toNat 18 0) 320) = true →
    (s.cl c).chainCheck q ((s.cl c).spRead (bits q.rs1.toNat 18 0) 320) = .fault st →
    ∃ t, exec (.vxChainAccept c) s = .next t ∧ Faults s t c .vector q st)
  ∧ (∀ s c q st, (s.cl c).ready .stream 1 = some q →
    ((streamD ((s.cl c).spRead (bits q.rs1.toNat 18 0) 64)).dir ≤ 1 →
      ((s.cl c).freeStrm (streamD ((s.cl c).spRead (bits q.rs1.toNat 18 0) 64)).dir).isSome = true) →
    s.streamCheck c q (streamD ((s.cl c).spRead (bits q.rs1.toNat 18 0) 64)) = .fault st →
    ∃ t, exec (.streamAccept c) s = .next t ∧ Faults s t c .stream q st)
  ∧ (∀ s c q, (s.cl c).ready .stream 2 = some q → fieldB ((s.cl c).spRead (bits q.rs1.toNat 18 0) 128) 88 4
      ≠ (crc32c (sliceB ((s.cl c).spRead (bits q.rs1.toNat 18 0) 128) 0 88)).toNat →
    ∃ t, exec (.streamResumeAccept c) s = .next t ∧ Faults s t c .stream q SHAPE)
  ∧ (∀ s c q st, (s.cl c).ready .sync 0 = some q → sigHeld s c q = false → sigCheck s c q = .fault st →
    ∃ t, exec (.sySigAccept c) s = .next t ∧ Faults s t c .sync q st)
  ∧ (∀ s c q st, (s.cl c).ready .sync 1 = some q → watchCheck s c q false = .fault st →
    bits q.word.toNat 6 0 = 0x7B →
    ∃ t, exec (.syWaitAccept c) s = .next t ∧ Faults s t c .sync q st ∧ (t.cl c).core.stall = .none)
  ∧ (∀ s c q st, (s.cl c).ready .sync 3 = some q → watchCheck s c q false = .fault st →
    bits q.word.toNat 6 0 = 0x7B →
    ∃ t, exec (.syWaitinvAccept c) s = .next t ∧ Faults s t c .sync q st ∧ (t.cl c).core.stall = .none)
  ∧ (∀ s c q st, (s.cl c).ready .sync 2 = some q → watchCheck s c q true = .fault st →
    ∃ t, exec (.syWatchAccept c) s = .next t ∧ Faults s t c .sync q st)

/-- R89, R95, R98, R107, R110 to R113, R117, R149, R151. -/
def Obligations.ArrayPipelineSteps : Prop :=
  (∀ s c row l r u, (ldsOpen (s.cl c).lds).find? (fun l => decide (l.first ≤ row) && l.issuedRow (row - l.first)) = some l →
    s.ldRead c l (row - l.first) = (r, u) → r.cause = 0 → l.back = [] → row - l.first = l.done → l.done + 1 = l.count →
    ∃ t, exec (.tileLdRowArrive c row) s = .next t ∧ (∀ y ∈ (t.cl c).lds, y.tk ≠ l.tk)
      ∧ (t.cl c).tiles = (((u.cl c).putTileRow l.t row r.bytes).putTileScales l.t row r.sc).tiles)
  ∧ (∀ s c l, (s.cl c).arr.startable = some l → ((s.cl c).tile l.t).badData = [] → ((s.cl c).tile l.t).badScale = [] →
    ((s.cl c).tile (l.t + 1)).badData = [] →
    ∃ t, exec (.mxLoadTransferStart c .clean) s = .next t ∧ s.within t c ∧ (t.cl c).arr = { (s.cl c).arr with
      loads := (s.cl c).arr.loads.map (fun y => if y.tk = l.tk then { y with started := some 0, tile :=
        ⟨true, l.fmt, l.pack, l.rep, false, l.tk, ((s.cl c).tileCopy l.t).1, ((s.cl c).tileCopy l.t).2⟩ } else y) })
  ∧ (∀ s c l ls n, (s.cl c).arr.loads = l :: ls → l.started = some n → loadKib l.fmt + 4 ≤ n →
    ∃ t, exec (.mxLoadComplete c) s = .next t ∧ s.within t c ∧ (t.cl c).arr.loads = ls
      ∧ (t.cl c).arr.active = (s.cl c).arr.active
      ∧ ((s.cl c).arr.active < 2 → (t.cl c).arr.store (s.cl c).arr.shadow = l.tile
          ∧ (t.cl c).arr.store (s.cl c).arr.active = (s.cl c).arr.store (s.cl c).arr.active))
  ∧ (∀ s c r ecc, (s.cl c).admissible = some r →
    ∃ t rows, exec (.arrayRowAdmit c ecc) s = .next t ∧ rows.length = r.nextRows.length
      ∧ (t.cl c).arr.flights = (s.cl c).arr.flights ++ [⟨r.tk, r.admitted, 0, rows, [], []⟩]
      ∧ (t.cl c).arr.admitted = some (rampCost r.fmt))
  ∧ (∀ s c sl ecc, (s.cl c).stepReady = true → ((s.cl c).backpressure = true ∨ (s.cl c).starved = true) →
    ∃ t, exec (.arrayPipelineStep c sl ecc) s = .next t ∧ (t.cl c).arr.frozen = true
      ∧ (t.cl c).arr.flights = (s.cl c).arr.flights ∧ (t.cl c).arr.acc = (s.cl c).arr.acc
      ∧ (t.cl c).arr.blocks = (s.cl c).arr.blocks ∧ (t.cl c).steps = (s.cl c).steps + 1)
  ∧ (∀ s c w ps, (s.cl c).arr.pushes = .result w :: ps → (s.cl c).resq.length < 8 →
    ∃ t, exec (.arrayHandlePush c) s = .next t ∧ s.within t c ∧ (t.cl c).resq = (s.cl c).resq ++ [w] ∧ (t.cl c).hq = (s.cl c).hq
      ∧ (t.cl c).arr.pushes = ps)
  ∧ (∀ s c h ps, (s.cl c).arr.pushes = .handle h :: ps → (s.cl c).room ((s.cl c).port 1) = true →
    bit (s.cr c CL_Q_SIG) (8 * (s.cl c).port 1 + 6) = false →
    ∃ t, exec (.arrayHandlePush c) s = .next t ∧ s.within t c ∧ (t.cl c).resq = (s.cl c).resq ∧ (t.cl c).arr.pushes = ps
      ∧ (t.cl c).queue ((s.cl c).port 1) = (s.cl c).queue ((s.cl c).port 1) ++ [h])
  ∧ (∀ s c r, (s.cl c).arr.completable = some r →
    ∃ t, exec (.runComplete c) s = .next t ∧ s.within t c ∧ (t.cl c).arr.runs = (s.cl c).arr.runs.tail
      ∧ (t.cl c).arr.lastRun = r.num ∧ (t.cl c).arr.pushes = (s.cl c).arr.pushes ++ [.result r.result]
      ∧ (t.cl c).arr.peak = if r.count = 0 then (s.cl c).arr.peak else (s.cl c).arr.peak.join r.peak)

/-- R182, R198, R201, R204, R208, R210. -/
def Obligations.VectorChainsRun : Prop :=
  (∀ s c q, (s.cl c).ready .vector 0 = some q → s.usWaits c = false →
    (s.cl c).queuesReady ((s.cl c).spRead (bits q.rs1.toNat 18 0) 320) = true →
    (s.cl c).chainCheck q ((s.cl c).spRead (bits q.rs1.toNat 18 0) 320) = .pass →
    ∃ t, exec (.vxChainAccept c) s = .next t ∧ Takes s t c .vector q (word (s.cl c).vx.nextChain)
      ∧ (t.cl c).vx = { (s.cl c).vx with
          chains := (s.cl c).vx.chains ++ [mkChain s c q ((s.cl c).spRead (bits q.rs1.toNat 18 0) 320)]
          nextChain := ((s.cl c).vx.nextChain + 1) % 65536 })
  ∧ (∀ s c x, (s.cl c).vx.current = some x → (s.cl c).vx.hold = 0 → x.loaded = true → (chainD x.desc).kind = true →
    (s.cl c).beatRefused x x.beat ((chainD x.desc).lanes x.beat)
      (((s.cl c).rawValues x ((chainD x.desc).lanes x.beat) []).map (·.1)) = true →
    ∃ t, exec (.vxBeat c .clean) s = .next t ∧ s.within t c ∧ (t.cl c).arr = (s.cl c).arr ∧ (t.cl c).sp = (s.cl c).sp
      ∧ (t.cl c).vx.chains = (s.cl c).vx.chains.map (fun y => if y.tk = x.tk then { x with stopped := true, tree := {} } else y))
  ∧ (∀ s c x, (s.cl c).vx.current = some x → (s.cl c).vx.hold = 0 → x.loaded = true → (chainD x.desc).kind = false →
    ∃ t, exec (.vxBeat c .clean) s = .next t
      ∧ (t.cl c).vx.hold = beatSteps x.desc ((chainD x.desc).lanes x.beat).length - 1
      ∧ (∃ y ∈ (t.cl c).vx.chains, y.tk = x.tk ∧ y.beat = x.beat + 1 ∧ y.desc = x.desc))
  ∧ (∀ s c x xs, (s.cl c).vx.chains = x :: xs → x.busy = false → (s.cl c).roomFor ((s.cl c).chainPushes x) = true → x.cmp = false →
    ∃ t, exec (.vxChainComplete c) s = .next t ∧ (t.cl c).vx.chains = (s.cl c).vx.chains.filter (fun y => y.tk ≠ x.tk)
      ∧ (t.cl c).vx.lastChain = x.num ∧ amGetMany 0 (t.cl c).vx.summary (64 * (x.num % 16)) 64 = x.summary)

namespace Sys2Proof.Claims

/-! ### Scratchpad, shared cache, HBM and registers (07, 08, 19) -/

/-- A scratchpad byte outside [a, a + n) is as before. -/
def SpOutside (k j : Cluster) (a n : Nat) : Prop := ∀ b, (b < a ∨ a + n ≤ b) → amGet 0 j.sp b = amGet 0 k.sp b

/-- The increment that an admitted arrival makes. -/
def arrivalInc (m : Admitted) : Nat := if m.inc then m.arr.words.length else 1

end Sys2Proof.Claims

/-- R266, R269 to R272, R274, R279 to R283. -/
def Obligations.ScratchpadUnit : Prop :=
  (∀ s c, bit (s.cr c CL_SP_CTRL) 0 = true → (s.cl c).wiping = false →
    (s.cl c).bad.contains (bits (s.cr c CL_SP_SCRUB) 15 0) = false →
    ∃ t, exec (.scrubWordCheck c .clean) s = .next t ∧ s.within t c ∧ (t.cl c).sp = (s.cl c).sp ∧ (t.cl c).bad = (s.cl c).bad
      ∧ bits (t.cr c CL_SP_SCRUB) 15 0 = (bits (s.cr c CL_SP_SCRUB) 15 0 + 1) % 65536
      ∧ bits (t.cr c CL_SP_SCRUB) 47 16 =
          (bits (s.cr c CL_SP_SCRUB) 47 16 + if bits (s.cr c CL_SP_SCRUB) 15 0 = 65535 then 1 else 0) % 2 ^ 32)
  ∧ (∀ s c w, bit (s.cr c CL_SP_CTRL) 0 = true → (s.cl c).wiping = false → w = bits (s.cr c CL_SP_SCRUB) 15 0 →
    ∃ t, exec (.scrubWordCheck c (.uncorrectable w)) s = .next t ∧ (t.cl c).sp = (s.cl c).sp ∧ w ∈ (t.cl c).bad
      ∧ bit (t.cr c CL_SP_ERR) 18 = true)
  ∧ (∀ s c w ws, (s.cl c).fix = w :: ws →
    exec (.correctedWordWriteback c) s = .next (s.mod c (fun k => { k with fix := ws })))
  ∧ (∀ s c v, bit v.toNat 28 = true →
    ∃ t, exec (.fillCopyGo c v) s = .next t ∧ (t.cl c).sp = (s.cl c).sp ∧
      if (s.cl c).op.isSome then (t.cl c).op = (s.cl c).op ∧ bit (t.cr c CL_SP_STATUS) 3 = true
      else if bits v.toNat 19 3 = 0 then (bit v.toNat 27 = false → (t.cl c).op = none
        ∧ bits (t.cr c CL_SP_STATUS) 31 16 = OK ∧ bit (t.cr c CL_SP_STATUS) 1 = true)
      else if 524288 < s.cr c CL_SP_OPDST + bits v.toNat 19 3 * 8
          ∨ (bit v.toNat 20 = true ∧ 524288 < s.cr c CL_SP_OPSRC + bits v.toNat 19 3 * 8) then
        (bit v.toNat 27 = false → (t.cl c).op = none ∧ bits (t.cr c CL_SP_STATUS) 31 16 = EXTENT)
      else ∃ o, (t.cl c).op = some o ∧ o.dst = s.cr c CL_SP_OPDST ∧ o.len = bits v.toNat 19 3 * 8 ∧ o.copy = bit v.toNat 20
        ∧ (o.copy = true → o.src = (s.cl c).spRead (s.cr c CL_SP_OPSRC) o.len) ∧ o.val.toNat = s.cr c CL_SP_OPVAL)
  ∧ (∀ s c o, (s.cl c).op = some o → o.copy = false → o.bad = [] → o.sig = false → o.len % 8 = 0 →
    ∃ t, exec (.fillCopyComplete c) s = .next t ∧ s.within t c ∧ SpOutside (s.cl c) (t.cl c) o.dst o.len
      ∧ (t.cl c).spRead o.dst o.len = (List.range (o.len / 8)).flatMap (fun _ => leBytes 8 o.val.toNat)
      ∧ (t.cl c).op = none ∧ bits (t.cr c CL_SP_STATUS) 31 16 = OK ∧ bit (t.cr c CL_SP_STATUS) 1 = true)
  ∧ (∀ s c h v, ∃ t, exec (.propTableWrite c h v) s = .next t ∧ s.within t c ∧
      if bit v.toNat 27 = true ∧ 524288 < (bits v.toNat 12 0 + bits v.toNat 26 13) * 64 then
        bit (t.cr c CL_SP_STATUS) 4 = true ∧ (∀ a, a ≠ CL_SP_STATUS → t.cr c a = s.cr c a)
      else t.cr c (CL_PROP + 8 * h.val) = v.toNat % 2 ^ 29 ∧ (∀ a, a ≠ CL_PROP + 8 * h.val → t.cr c a = s.cr c a))
  ∧ (∀ s c n v, ∃ t, exec (.windowWrite c n v) s = .next t ∧ s.within t c ∧
      if 524288 < (bits v.toNat 12 0 + bits v.toNat 26 13) * 64 then
        bit (t.cr c CL_SP_STATUS) 5 = true ∧ (∀ a, a ≠ CL_SP_STATUS → t.cr c a = s.cr c a)
      else t.cr c (CL_SP_WIN + 8 * n.val) = v.toNat % 2 ^ 48 ∧ (∀ a, a ≠ CL_SP_WIN + 8 * n.val → t.cr c a = s.cr c a))
  ∧ (∀ s c a as, (s.cl c).waitA = a :: as → a.chip < 4096 →
    ∃ t, exec (.arrivalCheck c) s = .next t ∧ (t.cl c).waitA = as ∧ (t.cl c).sp = (s.cl c).sp ∧
      match (s.cl c).admits a.chip a.off (8 * a.words.length) with
      | some i => (t.cl c).admA = (s.cl c).admA
          ++ [⟨a, bits (s.cr c (CL_SP_WIN + 8 * i)) 32 27, bit (s.cr c (CL_SP_WIN + 8 * i)) 33⟩]
      | none => (t.cl c).admA = (s.cl c).admA ∧ bit (t.cr c CL_SP_WINREJ) 32 = true
          ∧ (s.frozen = false → t.cr c CL_SP_CNT_WINREJ = (s.cr c CL_SP_CNT_WINREJ + 1) % 2 ^ 48))
  ∧ (∀ s c m ms, (s.cl c).admA = m :: ms → m.arr.amo = none → (s.cl c).ctr m.ctr + arrivalInc m < 2 ^ 48 →
    (s.cl c).pairBroken m.ctr ((s.cl c).ctr m.ctr + arrivalInc m) = false →
    ∃ t, exec (.arrivalComplete c) s = .next t ∧ (t.cl c).admA = ms
      ∧ (t.cl c).spRead m.arr.off (8 * m.arr.words.length) = m.arr.words.flatMap (fun w => leBytes 8 w.toNat)
      ∧ SpOutside (s.cl c) (t.cl c) m.arr.off (8 * m.arr.words.length)
      ∧ (t.cl c).ctr m.ctr = (s.cl c).ctr m.ctr + arrivalInc m)
  ∧ (∀ s c m ms f, (s.cl c).admA = m :: ms → m.arr.amo = some f → (s.cl c).bad.contains (m.arr.off / 8) = false →
    ∃ t, exec (.arrivalComplete c) s = .next t ∧ SpOutside (s.cl c) (t.cl c) m.arr.off 8
      ∧ (t.cl c).spRead m.arr.off 8 =
          leBytes 8 (amoOp f 64 (leNat ((s.cl c).spRead m.arr.off 8)) (m.arr.words.headD 0).toNat))
  ∧ (∀ s x c, (s.cx x.val).overQ = true → (s.cl c).owner = x.val → s.kernelRuns x.val = false →
    ∃ t, exec (.scratchpadReclaim x c) s = .next t ∧ s.within t c ∧ (t.spUsed x.val ≤ (s.cx x.val).quota.spret
      ∨ ∀ h < 64, (bit (t.cr c (CL_PROP + 8 * h)) 27 && bit (t.cr c (CL_PROP + 8 * h)) 28) = false))

namespace Sys2Proof.Claims

/-- A line stands in slice sl, dirty or not as said. -/
def InShc (t : State) (sl : Sl) (a : Nat) : Prop := (t.shcWay sl.val a).isSome = true

/-- The lines that a maintenance word covers: its classes, of its context or of all. -/
def maintCovers (v : Nat) (t : Tag) : Prop := bit (bits v 10 7) t.cls = true ∧ (bit v 6 = true ∨ bits v 5 2 = t.ctx)

end Sys2Proof.Claims

/-- R288 to R290, R294, R296, R616, R621 to R623, R626, R631, R632. -/
def Obligations.SharedCacheAndMemory : Prop :=
  (∀ s sl req, hbmBytes ≤ req.addr → exec (.sharedCacheAccess sl req) s = .fault .noSuchAddress)
  ∧ (∀ s sl req w tg, req.addr < hbmBytes → shcSlice req.addr = sl.val → s.shcWay sl.val req.addr = some w →
    s.mem.tags.find? (fun p => p.1 == shcKey sl.val req.addr w) = some (shcKey sl.val req.addr w, tg) →
    ∃ t, exec (.sharedCacheAccess sl req) s = .next t ∧ t.mem.hbm = s.mem.hbm ∧ t.mem.misses = s.mem.misses
      ∧ (s.frozen = false → t.dr (shcCtr HM_SHC_CNT_HIT sl.val) = (s.dr (shcCtr HM_SHC_CNT_HIT sl.val) + 1) % 2 ^ 48)
      ∧ t.mem.tags.find? (fun p => p.1 == shcKey sl.val req.addr w) = some (shcKey sl.val req.addr w,
          { tg with age := 0, hint := max tg.hint req.hint.val, dirty := tg.dirty || req.write, pf := tg.pf && req.prefetch }))
  ∧ (∀ s sl req, req.addr < hbmBytes → shcSlice req.addr = sl.val → s.shcWay sl.val req.addr = none →
    s.mem.misses.find? (fun m => m.slice == sl.val && m.line == req.addr / 64) = none → (req.write && req.whole) = false →
    ∃ t, exec (.sharedCacheAccess sl req) s = .next t ∧ t.mem.hbm = s.mem.hbm ∧ t.mem.tags = s.mem.tags
      ∧ t.mem.misses = s.mem.misses
          ++ [⟨sl.val, req.addr / 64, req.write, req.cls.val, req.hint.val, req.ctx.val, req.prefetch⟩]
      ∧ t.mem.track = s.mem.track ++ [{ slice := sl.val, block := req.addr / 256, write := false }])
  ∧ (∀ s sl req, req.addr < hbmBytes → shcSlice req.addr = sl.val → s.shcWay sl.val req.addr = none →
    s.mem.misses.find? (fun m => m.slice == sl.val && m.line == req.addr / 64) = none → (req.write && req.whole) = true →
    ∃ t, exec (.sharedCacheAccess sl req) s = .next t ∧ InShc t sl req.addr)
  ∧ (∀ s sl line m, s.mem.misses.find? (fun m => m.slice == sl.val && m.line == line) = some m →
    s.mem.track.any (fun t => t.slice == sl.val && t.block == line / 4 && !t.write) = false →
    ∃ t, exec (.sharedCacheMissFill sl line .clean) s = .next t ∧ InShc t sl (line * 64)
      ∧ t.mem.misses = dropFirst (fun y => y == m) s.mem.misses)
  ∧ (∀ s v, bit v.toNat 0 = true →
    ∃ t, exec (.shcMaintGo v) s = .next t ∧ t.mem.tags = s.mem.tags ∧ t.mem.hbm = s.mem.hbm
      ∧ t.mem.maint = if s.mem.maint.isNone then some (v.toNat % 2 ^ 11) else s.mem.maint)
  ∧ (∀ s v, s.mem.maint = some v →
    ∃ t, exec .shcMaintDone s = .next t ∧ t.mem.maint = none ∧ bit (t.dr HM_SHC_MSTATUS) 1 = true
      ∧ (∀ p ∈ t.mem.tags, maintCovers v p.2 → bit v 1 = true ∧ p.2.dirty = false))
  ∧ (∀ s sl, s.mem.track.any (fun t => t.slice == sl.val && !t.held && !(s.domStopped (phyDomain t.block))) = true →
    (s.mem.track.filter (fun t => t.slice == sl.val && t.held)).length < 8192 → s.stackReady (sl.val % 8) = true →
    s.mem.wiping = false →
    ∃ t, exec (.hbmRequest sl) s = .next t ∧ t.mem.hbm = s.mem.hbm ∧ t.mem.track.length = s.mem.track.length
      ∧ (t.mem.track.filter (fun y => y.slice == sl.val && y.held)).length
          = (s.mem.track.filter (fun y => y.slice == sl.val && y.held)).length + 1)
  ∧ (∀ s st i r, (s.mem.track.filter (fun t => t.held && t.slice % 8 == st.val))[i]? = some r →
    ((s.mem.track.filter (fun t => t.held && t.slice % 8 == st.val)).take i).any (fun y => y.block == r.block) = false →
    s.mem.wiping = false → s.domStopped (phyDomain r.block) = false →
    ∃ t, exec (.hbmRequestComplete st i .ok) s = .next t ∧ t.mem.hbm = s.mem.hbm
      ∧ t.mem.track = dropFirst (fun y => y == r) s.mem.track
      ∧ (s.frozen = false → t.dr (stkReg (if r.write then HM_CNT_WR else HM_CNT_RD) st.val)
          = (s.dr (stkReg (if r.write then HM_CNT_WR else HM_CNT_RD) st.val) + 1) % 2 ^ 48))
  ∧ (∀ s st i r w, (s.mem.track.filter (fun t => t.held && t.slice % 8 == st.val))[i]? = some r →
    ((s.mem.track.filter (fun t => t.held && t.slice % 8 == st.val)).take i).any (fun y => y.block == r.block) = false →
    s.mem.wiping = false → s.domStopped (phyDomain r.block) = false → r.write = false →
    (s.mem.bad.filter (fun y => stackOf (y * 8) == stackOf (blockWord r.block w * 8))).length < 8192 →
    ∃ t, exec (.hbmRequestComplete st i (.uncorrectable w)) s = .next t ∧ t.mem.hbm = s.mem.hbm
      ∧ blockWord r.block w ∈ t.mem.bad)
  ∧ (∀ s st, bits (s.dr HM_CTRL) 7 0 ≠ 0 → s.stackReady st.val = true → s.mem.wiping = false →
    bits (s.dr (stkReg HM_STK_SCRUB st.val)) 31 0 < 72 * 2 ^ 24 →
    ∃ t, exec (.hbmPatrolRead st .clean) s = .next t ∧ t.mem = s.mem
      ∧ bits (t.dr (stkReg HM_STK_SCRUB st.val)) 31 0 = (bits (s.dr (stkReg HM_STK_SCRUB st.val)) 31 0 + 1) % (72 * 2 ^ 24))
  ∧ (∀ s st, s.stackReady st.val = true → exec (.hbmRefresh st) s = .next s)

/-- R11, R13, R218, R546, R590, R646, R729, R730, R734, R735. -/
def Obligations.RegisterWrites : Prop :=
  (∀ s v, ∃ t, exec (.registerWrite .firmware HM_CTRL v) s = .next t ∧ bits (t.dr HM_CTRL) 7 0 = bits v.toNat 7 0
    ∧ bits (t.dr HM_CTRL) 63 8 = bits (s.dr HM_CTRL) 63 8 ∧ s.sameRegs t [HM_CTRL] ∧ t.cls = s.cls)
  ∧ (∀ s c v, s.debugOpen = true → ∃ t, exec (.registerWrite .debugPath (0x02000000 + 65536 * c.val + CL_SP_OPVAL) v) s = .next t
    ∧ s.within t c ∧ t.cr c CL_SP_OPVAL = v.toNat)
  ∧ (∀ s c d off v, off < 65536 → d ≠ c → exec (.registerWrite (.core c) (0x02000000 + 65536 * d.val + off) v) s = .next s)
  ∧ (∀ s c a v, a < 0x02000000 → exec (.registerWrite (.core c) a v) s = .next s)
  ∧ (∀ s a v, s.debugOpen = false → ∃ t, exec (.registerWrite .debugPath a v) s = .next t ∧ s.sameRegs t [MG_DBG_CNT_DENIED])
  ∧ (∀ s a v, s.debugOpen = true → 0x0E000000 ≤ a → a < 0x0F000000 → exec (.registerWrite .debugPath a v) s = .next s)
  ∧ (∀ s x v, bit (s.dr (cxReg MG_CX_CTRL x.val)) 0 = false →
    ∃ t, exec (.mgCxEnSet x v) s = .next t ∧ bit (t.dr (cxReg MG_CX_CTRL x.val)) 0 = true
      ∧ bits (t.dr (cxReg MG_CX_RRHEAD x.val)) 63 32 = 0 ∧ bits (t.dr (cxReg MG_CX_ERHEAD x.val)) 63 32 = 0
      ∧ t.dr (cxReg MG_CX_INTAKE x.val) = 2 ^ 20 ∧ (t.cx x.val).serial = 0 ∧ t.cls = s.cls)
  ∧ (∀ s x v, ∃ t, exec (.mgCxEnClear x v) s = .next t ∧ bit (t.dr (cxReg MG_CX_CTRL x.val)) 0 = false
      ∧ s.sameRegs t [cxReg MG_CX_CTRL x.val] ∧ t.ctx = s.ctx)
  ∧ (∀ s x, ∃ t, exec (.intakeRestart x) s = .next t ∧ t.dr (cxReg MG_CX_INTAKE x.val) = 2 ^ 20
      ∧ s.sameRegs t [cxReg MG_CX_INTAKE x.val] ∧ (t.cx x.val).sealAt = none ∧ (∀ y, y ≠ x.val → t.cx y = s.cx y))
  ∧ (∀ s, s.debugOpen = true → ∃ t, exec .debugClose s = .next t ∧ t.debugOpen = false ∧ t.dr MG_DBG_ATTACH = 0
      ∧ ∀ c < 40, t.dr (MG_DBG_BP + 8 * c) = 0)
  ∧ (∀ s on, ∃ t, exec (.freezeWrite on) s = .next t ∧ t.frozen = on ∧ s.sameRegs t [MG_DBG_CTRL] ∧ t.cls = s.cls)
  ∧ (∀ s, exec .mgElClr s = .next { s with err := { s.err with log := [], total := 0, fatal := false } })
  ∧ (∀ s v, ∃ t, exec (.wdogKick v) s = .next t ∧ t.boot.kick = s.pw.uptime ∧ t.cls = s.cls)

namespace Sys2Proof.Claims

/-! ### Streams (09) -/

/-- The 64 bytes that st.post or st.resume names. -/
def blockAt (k : Cluster) (q : QInsn) (n : Nat) : List Byte := k.spRead (bits q.rs1.toNat 18 0) n

/-- Stream x has taken slot sl of cluster c for instruction q, with the descriptor bs, from a place of its byte sequence:
its state block stands in the scratchpad as RUNNING, and no other unit's queue or register differs. -/
def Started (s t : State) (c : Cl) (q : QInsn) (bs : List Byte) (sl base : Nat) : Prop :=
  s.within t c ∧ ((t.cl c).unit .stream).q = ((s.cl c).unit .stream).q.tail
    ∧ (∀ r, r < 32 → (t.cl c).core.get r = if r = q.rd ∧ r ≠ 0 then word (s.cl c).st.next else (s.cl c).core.get r)
    ∧ (t.cl c).st.next = ((s.cl c).st.next + 1) % 65536
    ∧ (∃ x, (t.cl c).strm sl = some x ∧ x.num = (s.cl c).st.next ∧ x.desc = bs ∧ x.base = base ∧ x.issued = base ∧ x.stop = none)
    ∧ (t.cl c).spRead ((streamD bs).sb * 64) 64 = bs
    ∧ fieldB ((t.cl c).spRead ((streamD bs).sb * 64 + 64) 64) 32 2 = 1

end Sys2Proof.Claims

/-- R302, R304, R305, R329, R331, R338, R339. -/
def Obligations.StreamAcceptance : Prop :=
  (∀ s c q sl, (s.cl c).ready .stream 1 = some q → (s.cl c).freeStrm (streamD (blockAt (s.cl c) q 64)).dir = some sl →
    s.streamCheck c q (streamD (blockAt (s.cl c) q 64)) = .pass →
    ∃ t, exec (.streamAccept c) s = .next t ∧ Started s t c q (blockAt (s.cl c) q 64) sl 0)
  ∧ (∀ s c q sl, (s.cl c).ready .stream 1 = some q → (s.cl c).freeStrm (streamD (blockAt (s.cl c) q 64)).dir = some sl →
    s.streamCheck c q (streamD (blockAt (s.cl c) q 64)) = .noEffect → (streamD (blockAt (s.cl c) q 64)).sigen = false →
    ∃ t, exec (.streamAccept c) s = .next t ∧ s.within t c ∧ (t.cl c).st.slots = (s.cl c).st.slots
      ∧ (t.cl c).st.next = ((s.cl c).st.next + 1) % 65536 ∧ (t.cl c).st.last = (s.cl c).st.next
      ∧ ((streamD (blockAt (s.cl c) q 64)).sb * 64 + 128 ≤ 524288 →
          fieldB ((t.cl c).spRead ((streamD (blockAt (s.cl c) q 64)).sb * 64) 128) 96 2 = 4))
  ∧ (∀ s c q sl, (s.cl c).ready .stream 2 = some q →
    fieldB (blockAt (s.cl c) q 128) 88 4 = (crc32c (sliceB (blockAt (s.cl c) q 128) 0 88)).toNat →
    (fieldB (blockAt (s.cl c) q 128) 96 1 = 3 ∨ fieldB (blockAt (s.cl c) q 128) 96 1 = 5) →
    (s.cl c).freeStrm (streamD (sliceB (blockAt (s.cl c) q 128) 0 64)).dir = some sl →
    s.streamCheck c q (streamD (sliceB (blockAt (s.cl c) q 128) 0 64)) = .pass →
    ∃ t, exec (.streamResumeAccept c) s = .next t
      ∧ Started s t c q (sliceB (blockAt (s.cl c) q 128) 0 64) sl (fieldB (blockAt (s.cl c) q 128) 64 8))

namespace Sys2Proof.Claims

/-- A stream of cluster c alone, in slot sl. -/
def Alone (s : State) (c : Cl) (sl : Fin 8) (x : Strm) : Prop := (s.cl c).strm sl.val = some x ∧ (streamD x.desc).mcast = false

/-- Stream x may have its next transfer. -/
def MayIssue (s : State) (c : Cl) (sl : Fin 8) (x : Strm) : Prop :=
  (s.cl c).strm sl.val = some x ∧ x.stop = none ∧ x.halted = none ∧ (streamD x.desc).feed = false
    ∧ x.issued < (streamD x.desc).total ∧ (s.cl c).outstanding sl.val < 8
    ∧ ((streamD x.desc).loc = 0 → x.issued < x.begun * (streamD x.desc).fillB)
    ∧ (streamD x.desc).inject = false ∧ (streamD x.desc).idx = false

end Sys2Proof.Claims

/-- R308, R316, R318, R325, R332 to R334, R336, R340 to R342, R772. -/
def Obligations.StreamsRun : Prop :=
  (∀ s c sl x e es, Alone s c sl x → (s.cl c).wantsFill sl.val x = true → s.lagging c sl.val x = [] →
    (streamD x.desc).feed = false → (s.cl c).queue (streamD x.desc).popQ = e :: es →
    ∃ t y, exec (.streamFillBegin c sl) s = .next t ∧ s.within t c ∧ (t.cl c).queue (streamD x.desc).popQ = es
      ∧ (t.cl c).sp = (s.cl c).sp ∧ (t.cl c).strm sl.val = some y ∧ y.begun = x.begun + 1
      ∧ y.fills = x.fills ++ [{ f := x.begun, handles := [(c.val, e, (s.cl c).prop e.handle)], len := (streamD x.desc).fillLen x.begun }]
      ∧ y.stop = if ((s.cl c).prop e.handle).size < (streamD x.desc).need x.begun then
          some { state := 3, status := EXTENT, handle := e.handle, member := c.val } else none)
  ∧ (∀ s c sl x a phys n, MayIssue s c sl x → (streamD x.desc).dir = 0 → gKind a ≠ 2 →
    s.nextXfer c (streamD x.desc) x = .go a phys n →
    ∃ t, exec (.streamTransferIssue c sl) s = .next t ∧ s.within t c ∧ (t.cl c).sp = (s.cl c).sp
      ∧ (t.cl c).st.xfers = (s.cl c).st.xfers
          ++ [{ slot := sl.val, num := x.num, pos := x.issued, len := n, addr := a, phys := phys }]
      ∧ (∃ y, (t.cl c).strm sl.val = some y ∧ y.issued = x.issued + n ∧ y.stop = none))
  ∧ (∀ s c sl x p, MayIssue s c sl x → s.nextXfer c (streamD x.desc) x = .halt p →
    ∃ t, exec (.streamTransferIssue c sl) s = .next t ∧ (t.cl c).strm sl.val = some { x with halted := some p }
      ∧ ((s.cl c).owner, p) ∈ t.mem.pageReqs ∧ (t.cl c).st.xfers = (s.cl c).st.xfers ∧ t.mem.hbm = s.mem.hbm)
  ∧ (∀ s c sl x i, MayIssue s c sl x → s.nextXfer c (streamD x.desc) x = .stop i →
    ∃ t y, exec (.streamTransferIssue c sl) s = .next t ∧ s.within t c ∧ (t.cl c).strm sl.val = some y ∧ y.stop = some i
      ∧ (t.cl c).st.xfers = (s.cl c).st.xfers)
  ∧ (∀ s c sl x y hd ft, (s.cl c).strm sl.val = some x →
    (s.cl c).st.xfers.find? (fun y => y.slot == sl.val && s.canEnd c y) = some y → (streamD x.desc).dir = 0 →
    (streamD x.desc).loc = 1 → (streamD x.desc).cc = false → (streamD x.desc).inject = false → gKind y.addr = 1 →
    s.hbmBad y.phys y.len = [] → y.bad = [] →
    ∃ t, exec (.streamTransferComplete c sl hd ft) s = .next t ∧ s.within t c
      ∧ (t.cl c).spRead (x.hbuf.base + y.pos) y.len = s.hbmRead y.phys y.len
      ∧ SpOutside (s.cl c) (t.cl c) (x.hbuf.base + y.pos) y.len
      ∧ (t.cl c).st.xfers = dropFirst (fun z => z == y) (s.cl c).st.xfers
      ∧ (∃ z, (t.cl c).strm sl.val = some z ∧ z.doneR = x.doneR ++ [(y.pos, y.pos + y.len)]))
  ∧ (∀ s c sl x y hd ft, (s.cl c).strm sl.val = some x →
    (s.cl c).st.xfers.find? (fun y => y.slot == sl.val && s.canEnd c y) = some y → (streamD x.desc).dir = 1 →
    y.rejected = false → gKind y.addr = 1 → y.bad = [] →
    ∃ t, exec (.streamTransferComplete c sl hd ft) s = .next t ∧ t.hbmRead y.phys y.data.length = y.data
      ∧ (t.cl c).sp = (s.cl c).sp ∧ (t.cl c).st.xfers = dropFirst (fun z => z == y) (s.cl c).st.xfers)
  ∧ (∀ s c sl x f e b, Alone s c sl x → x.dueFill = some f → f.handles = [(c.val, e, b)] → f.pushed = [] →
    (streamD x.desc).pushQ < 8 → (s.cl c).room (streamD x.desc).pushQ = true → (streamD x.desc).feed = false →
    bit (s.cr c CL_Q_SIG) (8 * (streamD x.desc).pushQ + 6) = false →
    ∃ t w y, exec (.streamFillPush c sl) s = .next t ∧ s.within t c
      ∧ (t.cl c).queue (streamD x.desc).pushQ = (s.cl c).queue (streamD x.desc).pushQ ++ [w]
      ∧ w.word.toNat = (e.handle + 256 * (f.f % 2 ^ 24)) % 2 ^ 32
      ∧ (t.cl c).strm sl.val = some y ∧ y.fills = x.fills.tail ∧ y.pushedF = x.pushedF + 1)
  ∧ (∀ s c sl x p a ro, (s.cl c).strm sl.val = some x → x.halted = some p →
    s.translate (s.cl c).owner (p * 2097152) = .at_ a ro →
    ∃ t, exec (.streamPageResume c sl) s = .next t ∧ s.within t c ∧ (t.cl c).strm sl.val = some { x with halted := none })
  ∧ (∀ s c sl x, (s.cl c).strm sl.val = some x → x.stop = none → (s.cl c).strmOver sl.val x = true →
    (streamD x.desc).sigen = false → (streamD x.desc).inject = false →
    ∃ t, exec (.streamEnd c sl) s = .next t ∧ s.within t c ∧ (t.cl c).strm sl.val = none ∧ (t.cl c).st.last = x.num
      ∧ (t.cl c).hq = (s.cl c).hq
      ∧ fieldB ((t.cl c).spRead ((streamD x.desc).sb * 64 + 64) 64) 32 2 = 4
      ∧ fieldB ((t.cl c).spRead ((streamD x.desc).sb * 64 + 64) 64) 34 2 = if x.poison = 0 then OK else FAULT)
  ∧ (∀ s c sl x, (s.cl c).strm sl.val = some x → bits (s.cr c ST_CTRL) 15 0 ≠ 0 → x.alarmed = false →
    bits (s.cr c ST_CTRL) 15 0 * 1024 ≤ x.wait → x.num < 65536 →
    ∃ t, exec (.streamStallAlarm c sl) s = .next t ∧ (t.cl c).strm sl.val = some { x with alarmed := true }
      ∧ bit (t.cr c ST_STALL) 22 = true ∧ (t.cl c).sp = (s.cl c).sp)
  ∧ (∀ s c i y t0 x, (s.cl c).st.xfers.find? (fun y => decide (4 ≤ y.slot) && y.xslot == i.val && !y.ready) = some y →
    y.sent = some t0 → t0 + 1000 * bits (s.cr c ST_CTRL) 31 16 ≤ s.timebase → (s.cl c).strm y.slot = some x → x.stop = none →
    ∃ t z, exec (.storeTransferTimeout c i) s = .next t ∧ s.within t c ∧ (t.cl c).strm y.slot = some z
      ∧ z.stop = some { state := 3, status := TIMEOUT, faddr := y.addr }
      ∧ (t.cl c).st.xfers = dropFirst (fun z => z == y) (s.cl c).st.xfers)
  ∧ (∀ s c v sl x, bit v.toNat 16 = true → (s.cl c).strm sl = some x → x.stop = none →
    ∃ t, exec (.stCancelWrite c v) s = .next t ∧ s.within t c ∧ (t.cl c).sp = (s.cl c).sp
      ∧ (t.cl c).strm sl = some (if x.num = bits v.toNat 15 0 then { x with stop := some { state := 5, status := PARTIAL }, halted := none } else x))

namespace Sys2Proof.Claims

/-! ### Counters, watches and cues (10) -/

end Sys2Proof.Claims

/-- R356, R372, R374 to R376, R390, R396. -/
def Obligations.SignalsAndChanges : Prop :=
  (∀ s c q, (s.cl c).ready .sync 0 = some q → sigHeld s c q = false → sigCheck s c q = .pass → (ctrD q.rs1).space = 0 →
    ∃ t, exec (.sySigAccept c) s = .next t ∧ ((t.cl c).unit .sync).q = ((s.cl c).unit .sync).q.tail
      ∧ t.sy.changes = s.sy.changes ++ [{ ctr := .loc c.val (ctrD q.rs1).num, amt := bits q.rs2.toNat 47 0
                                          scope := (ctrD q.rs1).scope, src := .core c.val q }]
      ∧ (1 ≤ (ctrD q.rs1).scope → ∀ p ∈ (t.cl c).cc, p.2.dirty = 0) ∧ (t.cl c).lctr = (s.cl c).lctr)
  ∧ (∀ s c q, (s.cl c).ready .sync 0 = some q → sigHeld s c q = false → sigCheck s c q = .noEffect →
    ∃ t, exec (.sySigAccept c) s = .next t ∧ s.within t c ∧ (t.cl c).lctr = (s.cl c).lctr
      ∧ ((t.cl c).unit .sync).q = ((s.cl c).unit .sync).q.tail)
  ∧ (∀ s i ch c n, s.changeReady i = some ch → ch.ctr = .loc c.val n → (s.cl c).ctr n + ch.amt < 2 ^ 48 →
    (s.cl c).pairBroken n ((s.cl c).ctr n + ch.amt) = false →
    ∃ t, exec (.counterChange i) s = .next t ∧ (t.cl c).ctr n = (s.cl c).ctr n + ch.amt ∧ (∀ m, m ≠ n → (t.cl c).ctr m = (s.cl c).ctr m)
      ∧ t.sy.ctr = s.sy.ctr)
  ∧ (∀ s i ch c n, s.changeReady i = some ch → ch.ctr = .loc c.val n → n < 64 →
    (2 ^ 48 ≤ (s.cl c).ctr n + ch.amt ∨ (s.cl c).pairBroken n ((s.cl c).ctr n + ch.amt) = true) →
    ∃ t, exec (.counterChange i) s = .next t ∧ (t.cl c).lctr = (s.cl c).lctr ∧ t.sy.ctr = s.sy.ctr ∧ bit (t.cr c CL_SY_ERR) 14 = true)
  ∧ (∀ s i ch p, s.changeReady i = some ch → ch.ctr = .dev p → ((s.ctrOwner p).isSome ∨ s.layerCtr p = true) → ch.raise = false →
    s.dctr p + ch.amt < 2 ^ 48 → s.devPairBroken p (s.dctr p + ch.amt) = false →
    ∃ t, exec (.counterChange i) s = .next t ∧ t.dctr p = s.dctr p + ch.amt ∧ (∀ r, r ≠ p → t.dctr r = s.dctr r))
  ∧ (∀ s i ch p, s.changeReady i = some ch → ch.ctr = .dev p → ((s.ctrOwner p).isSome ∨ s.layerCtr p = true) → ch.raise = true →
    ∃ t, exec (.counterChange i) s = .next t ∧ t.dctr p = max (s.dctr p) ch.amt ∧ (∀ r, r ≠ p → t.dctr r = s.dctr r))
  ∧ (∀ s i ch p, s.changeReady i = some ch → ch.ctr = .dev p → p < 65536 → ((s.ctrOwner p).isSome ∨ s.layerCtr p = true) →
    ch.raise = false → (2 ^ 48 ≤ s.dctr p + ch.amt ∨ s.devPairBroken p (s.dctr p + ch.amt) = true) →
    ∃ t, exec (.counterChange i) s = .next t ∧ t.sy.ctr = s.sy.ctr ∧ bit (t.dr SY_ERR) 36 = true)
  ∧ (∀ s i ch p, s.changeReady i = some ch → ch.ctr = .dev p → s.ctrOwner p = none → s.layerCtr p = false →
    ∃ t, exec (.counterChange i) s = .next t ∧ t.sy.ctr = s.sy.ctr)

namespace Sys2Proof.Claims

/-- A cue with a reason bit (48 SATISFIED, 49 EXPIRED) is on its way to a destination. -/
def CueSent (t : State) (d : CueDest) (n : Nat) : Prop := ∃ w : Word, ⟨d, w⟩ ∈ t.sy.cues ∧ bit w.toNat n = true

/-- The core's wait entry takes instruction q: a device watch joins the unit's table; a local one already satisfied is cued. -/
def WaitTaken (s t : State) (c : Cl) (q : QInsn) (inv : Bool) : Prop :=
  ((t.cl c).unit .sync).q = ((s.cl c).unit .sync).q.tail
    ∧ (∃ e, (t.cl c).wait = some e ∧ e.rd = q.rd ∧ e.inv = inv ∧ e.watch.value = bits q.rs2.toNat 47 0)
    ∧ (∀ p, (mkWatch s c q).ctr = .dev p → t.sy.watches = s.sy.watches ++
        [{ ctr := p, value := bits q.rs2.toNat 47 0, scope := (ctrD q.rs1).scope, timeout := bits q.rs2.toNat 63 48
           dest := .wait c.val, ctx := (s.cl c).owner }])
    ∧ (∀ n, (mkWatch s c q).ctr = .loc n → bits q.rs2.toNat 47 0 ≤ (s.cl c).ctr n → CueSent t (.wait c.val) 48)

/-- A local watch of cluster c: slots 0 to 15, then the wait entry. -/
def localWatch (k : Cluster) (j : Nat) : Option Watch :=
  if h : j < 16 then (match k.ws[j] with | .armed w _ => some w | _ => none) else k.wait.map (·.watch)

end Sys2Proof.Claims

/-- R232, R378 to R383, R385. -/
def Obligations.WatchesAndCues : Prop :=
  (∀ s c q, (s.cl c).ready .sync 1 = some q → watchCheck s c q false = .pass →
    ∃ t, exec (.syWaitAccept c) s = .next t ∧ WaitTaken s t c q false)
  ∧ (∀ s c q, (s.cl c).ready .sync 3 = some q → watchCheck s c q false = .pass →
    ∃ t, exec (.syWaitinvAccept c) s = .next t ∧ WaitTaken s t c q true)
  ∧ (∀ s c q i p, (s.cl c).ready .sync 2 = some q → watchCheck s c q true = .pass → (s.cl c).freeSlot = some i →
    (mkWatch s c q).ctr = .dev p →
    ∃ t, exec (.syWatchAccept c) s = .next t ∧ (t.cl c).ws[i.val] = .armed (mkWatch s c q) (ctrD q.rs1).cuectr
      ∧ (∀ j : Fin 16, j ≠ i → (t.cl c).ws[j.val] = (s.cl c).ws[j.val])
      ∧ (∀ r, r < 32 → (t.cl c).core.get r = if r = q.rd ∧ r ≠ 0 then word i.val else (s.cl c).core.get r)
      ∧ t.sy.watches.length = s.sy.watches.length + 1)
  ∧ (∀ s i w, s.sy.watches[i]? = some w → w.registered = false → s.dctr w.ctr < w.value →
    ∃ t, exec (.watchRegister i) s = .next t ∧ t.sy.cues = s.sy.cues ∧ t.sy.watches = s.sy.watches.set i { w with
      registered := true, deadline := if w.timeout = 0 then none else some (s.timebase + 1024 * w.timeout) })
  ∧ (∀ s i w, s.sy.watches[i]? = some w → w.registered = false → w.value ≤ s.dctr w.ctr →
    ∃ t, exec (.watchRegister i) s = .next t ∧ CueSent t w.dest 48)
  ∧ (∀ s i w d, i < 8192 → s.sy.watches[i]? = some w → w.registered = true → w.deadline = some d → d ≤ s.timebase →
    ∃ t, exec (.watchTimerExpiry i) s = .next t ∧ CueSent t w.dest 49)
  ∧ (∀ s c j w n d, j < 17 → localWatch (s.cl c) j = some w → w.registered = true → w.done = false → w.ctr = .loc n →
    w.deadline = some d → d ≤ s.timebase →
    ∃ t, exec (.watchTimerExpiry (8192 + 17 * c.val + j)) s = .next t
      ∧ CueSent t (if j < 16 then .slot c.val j else .wait c.val) 49)
  ∧ (∀ s i c n v cc w, s.sy.cues[i]? = some ⟨.slot c.val n.val, w⟩ → (s.cl c).ws[n.val] = .armed v cc →
    ∃ t, exec (.cueDelivery i) s = .next t ∧ (t.cl c).ws[(n : Fin 16).val] = .cued w)
  ∧ (∀ s i c e w, s.sy.cues[i]? = some ⟨.wait c.val, w⟩ → (s.cl c).wait = some e → 0 < e.rd → e.rd < 32 →
    ∃ t, exec (.cueDelivery i) s = .next t ∧ (t.cl c).wait = none ∧ (t.cl c).core.stall = .none ∧ (t.cl c).core.get e.rd = w)
  ∧ (∀ s i x id w, s.sy.cues[i]? = some ⟨.host x id, w⟩ → (s.cx x).state ≠ 2 →
    ∃ t, exec (.cueDelivery i) s = .next t ∧ t.sy.cues = s.sy.cues.eraseIdx i)
  ∧ (∀ s c v n w cc, bit v.toNat 4 = true → bits v.toNat 3 0 = n.val → (s.cl c).ws[n.val] = .armed w cc → w.done = false →
    ∃ t, exec (.clSyWcancelWrite c v) s = .next t ∧ (t.cl c).ws[(n : Fin 16).val] = .free ∧ t.sy.cues = s.sy.cues
      ∧ ∀ y ∈ t.sy.watches, y.dest ≠ .slot c.val n.val)
  ∧ (∀ s c n, ∃ t, exec (.clSyCueRead c n) s = .next t ∧
      match (s.cl c).ws[(n : Fin 16).val] with
      | .cued w => t.readData = w ∧ (t.cl c).ws[n.val] = .free
      | y => t.readData = 0 ∧ (t.cl c).ws[n.val] = y)

/-- R389, R390, R392, R393, R395, R399, R403. -/
def Obligations.SyncRegisters : Prop :=
  (∀ s c who v, (∀ d, who ≠ .core d) → bit v.toNat 48 = true → s.debugOpen = true →
    ∃ t, exec (.clSySetvWrite who c v) s = .next t ∧ (t.cl c).ctr (bits (s.cr c CL_SY_SEL) 5 0) = bits v.toNat 47 0
      ∧ ∀ m, m ≠ bits (s.cr c CL_SY_SEL) 5 0 → (t.cl c).ctr m = (s.cl c).ctr m)
  ∧ (∀ s c who v, ((∃ d, who = .core d) ∨ s.debugOpen = false) → ∃ t, exec (.clSySetvWrite who c v) s = .next t ∧ t.cls = s.cls)
  ∧ (∀ s who v, (∀ d, who ≠ .core d) → bit v.toNat 48 = true → s.debugOpen = true →
    ∃ t, exec (.sySetvWrite who v) s = .next t ∧ t.dctr (bits (s.dr SY_SETSEL) 15 0) = bits v.toNat 47 0
      ∧ ∀ p, p ≠ bits (s.dr SY_SETSEL) 15 0 → t.dctr p = s.dctr p)
  ∧ (∀ s who v, ((∃ d, who = .core d) ∨ s.debugOpen = false) → ∃ t, exec (.sySetvWrite who v) s = .next t ∧ t.sy = s.sy)
  ∧ (∀ s c n v, ∃ t, exec (.clSyPairWrite c n v) s = .next t ∧ s.within t c ∧
      if bit v.toNat 12 = true ∧ (s.cl c).ctr (bits v.toNat 5 0) < (s.cl c).ctr (bits v.toNat 11 6) then
        t.cr c (CL_SY_PAIR + 8 * n.val) = s.cr c (CL_SY_PAIR + 8 * n.val) ∧ bit (t.cr c CL_SY_STATUS) 33 = true
      else t.cr c (CL_SY_PAIR + 8 * n.val) = v.toNat % 2 ^ 13)
  ∧ (∀ s k v, ∃ t, exec (.syPairWrite k v) s = .next t ∧ t.sy = s.sy ∧ t.cls = s.cls ∧
      if bit v.toNat 32 = true ∧ s.dctr (bits v.toNat 15 0) < s.dctr (bits v.toNat 31 16) then
        s.sameRegs t [SY_ERR] ∧ bit (t.dr SY_ERR) 38 = true
      else t.dr (SY_PAIR + 8 * k.val) = v.toNat % 2 ^ 33 ∧ s.sameRegs t [SY_PAIR + 8 * k.val])
  ∧ (∀ s x n v, ∃ t, exec (.syVmapWrite x n v) s = .next t ∧ t.sy = s.sy ∧
      if bit v.toNat 16 = true ∧ (∃ o, s.ctrOwner (bits v.toNat 15 0) = some o ∧ o ≠ (x.val, n.val)) then
        s.sameRegs t [SY_ERR] ∧ bit (t.dr SY_ERR) 39 = true
      else t.dr (SY_VMAP + 0x8000 * x.val + 8 * n.val) = v.toNat % 2 ^ 17)
  ∧ (∀ s k v, bit v.toNat 54 = true → bits v.toNat 47 32 = 0 → exec (.syCurCfgWrite k v) s = .next s)
  ∧ (∀ s k v, (bit v.toNat 54 = false ∨ bits v.toNat 47 32 ≠ 0) →
    ∃ t, exec (.syCurCfgWrite k v) s = .next t ∧ t.dr (curReg SY_CUR_CFG k.val) = v.toNat % 2 ^ 55 ∧ t.sy.ctr = s.sy.ctr
      ∧ (bit v.toNat 54 = true → bit (s.dr (curReg SY_CUR_CFG k.val)) 54 = false →
          amGet 0 t.sy.sent k.val = s.dctr (bits v.toNat 15 0) / bits v.toNat 47 32))

namespace Sys2Proof.Claims

/-! ### The ring and the revolve (11, 12) -/

/-- The first record of the reply to command k of context x, as the host reads it at the reply ring's tail. -/
def replyAt (s t : State) (x : Nat) : List Byte :=
  amGetMany 0 t.hostMem (s.replyAddr x (bits (s.dr (cxReg MG_CX_RRHEAD x)) 63 32)) 32

/-- Where the context's rings are enabled, its function may master the bus, and the command is the host's and not QUIET with
OK, the reply to it with this status stands at the reply ring's tail. -/
def Told (s t : State) (x : Nat) (k : Cmd) (st : Nat) : Prop :=
  k.origin = none → bit (s.dr (cxReg MG_CX_CTRL x)) 0 = true → s.mayMaster x = true → (k.flag 1 = false ∨ st ≠ OK) →
    fieldB (replyAt s t x) 0 2 = k.op ∧ fieldB (replyAt s t x) 2 2 = st ∧ fieldB (replyAt s t x) 4 4 = k.seq % 2 ^ 32

/-- Command k of context x leaves the commands in flight and is answered with a status. -/
def Answers (s t : State) (x : Nat) (k : Cmd) (st : Nat) : Prop :=
  (t.cmds x).length + 1 = (s.cmds x).length ∧ Told s t x k st

end Sys2Proof.Claims

/-- R41 to R43, R395, R396, R398, R411, R422, R426, R429, R430, R439. -/
def Obligations.RevolvePasses : Prop :=
  (∀ s, bit (s.dr LK_RV_STATUS) 2 = true → s.stage = 2 → s.rv.formed = false →
    ∃ t, exec .ringFormation s = .next t ∧ t.rv.formed = true ∧ t.cls = s.cls
      ∧ (∀ p < 8, bit (t.dr (portReg LK_PORT_CTRL p)) 0 = true)
      ∧ (∀ p < 8, s.portState p = 0 → s.role ≠ 0 → (s.port p).offAt = none → s.err.dead = false → t.portState p = 1))
  ∧ (∀ s, bit (s.dr LK_RV_STATUS) 2 = true → s.stage = 2 → s.rv.formed = true → s.neighboursUp = true → s.role = 3 →
    s.rv.joins.contains s.chip = false →
    ∃ t, exec .ringFormation s = .next t ∧ s.chip ∈ t.rv.joins ∧ (s.rv.joins.length + 1 = s.ringN → bit (t.dr LK_RV_STATUS) 3 = true))
  ∧ (∀ s, bit (s.dr LK_RV_STATUS) 2 = true → s.stage = 2 → s.rv.formed = true → s.neighboursUp = true → s.role = 2 →
    s.session s.mgrChip = none → s.rngFail = false →
    ∃ t, exec .ringFormation s = .next t ∧ (t.session s.mgrChip).isSome = true)
  ∧ (∀ s p f x, s.rxFind p.val (fun g => g.ty == 1 && g.op == 5) = some f → s.session f.src = some x → x.done = true →
    x.same = true → s.role = 3 → ∃ t, exec (.joinReceive p) s = .next t ∧ f.src ∈ t.rv.joins)
  ∧ (∀ s p f, s.rxFind p.val (fun g => g.ty == 4 && g.bop == 0) = some f →
    ∃ t, exec (.readyReceive p) s = .next t ∧ bit (t.dr LK_RV_STATUS) 3 = true
      ∧ (bit (s.dr LK_RV_STATUS) 3 = false → s.stage = 2 → t.stage = 3))
  ∧ (∀ s, bit (s.dr LK_RV_STATUS) 3 = true → s.rv.injDone = false → s.rv.injBad = false → s.rv.inj = [] → s.rv.injEnd = true →
    ∃ t, exec .weightInjection s = .next t ∧ t.rv.injDone = true ∧ t.rv.inj = [])
  ∧ (∀ s, bit (s.dr LK_RV_STATUS) 3 = true → s.rv.injDone = false → s.rv.injBad = false → recCheck (s.rv.inj.take 64) = true →
    recReserved (s.rv.inj.take 64) = true → recLen (s.rv.inj.take 64) % 64 = 0 → recLayer (s.rv.inj.take 64) = s.rv.pass % 65536 →
    64 + recLen (s.rv.inj.take 64) ≤ s.rv.inj.length →
    ∃ t, exec .weightInjection s = .next t ∧ t.rv.inj = s.rv.inj.drop (64 + recLen (s.rv.inj.take 64))
      ∧ t.rv.injN = s.rv.injN + 1 ∧ t.rv.injBytes = s.rv.injBytes + recLen (s.rv.inj.take 64))
  ∧ (∀ s, bit (s.dr LK_RV_STATUS) 3 = true → s.rv.injDone = false → s.rv.injBad = false → 64 ≤ s.rv.inj.length →
    recCheck (s.rv.inj.take 64) = false →
    ∃ t, exec .weightInjection s = .next t ∧ t.rv.inj = [] ∧ (t.rv.injBad = true ∨ t.rv.injDone = true) ∧ t.ports = s.ports)
  ∧ (∀ s f pos c sl x y bs e b g, s.feedStream f.val = some (c, sl, x) → (s.cl c).strm sl = some x →
    s.rv.pieces.find? (fun y => y.src == pos && !y.done && recFeed y.recd == f.val && (y.fill (streamD x.desc).fillB).isSome) = some y →
    y.fill (streamD x.desc).fillB = some bs → x.fills.find? (fun g => g.len == 0) = some g → g.handles = [(c.val, e, b)] →
    ∃ t z, exec (.feedDelivery f pos) s = .next t ∧ (t.cl c).spRead b.base bs.length = bs
      ∧ (t.cl c).spRead (b.base + (streamD x.desc).fillB) (fillRecord y bs.length).length = fillRecord y bs.length
      ∧ (t.cl c).strm sl = some z ∧ z.issued = x.issued + bs.length)
  ∧ (∀ s, s.ringN ≤ 64 → s.mayArrive = true →
    ∃ t, exec .layerCurtainArrival s = .next t ∧ t.rv = { s.rv with arrived := true }
      ∧ t.dctr (bits (s.dr (curReg SY_CUR_CFG 15)) 15 0) = s.rv.pass + 1)
  ∧ (∀ s, 64 < s.ringN → s.mayArrive = true → s.linksEmpty = true →
    s.cls.toList.all (fun k => k.arrayIdle && k.vectorIdle) = true →
    ∃ t, exec .layerIntervalArrival s = .next t ∧ t.rv = { s.rv with arrived := true }
      ∧ t.dctr (bits (s.dr (curReg SY_CUR_CFG 15)) 15 0) = s.rv.pass + 1)
  ∧ (∀ s p f k, s.rxFind p.val (fun g => g.ty == 4 && g.bop == 1) = some f → k = fieldB f.data 0 1 % 16 →
    bit (s.dr (curReg SY_CUR_CFG k)) 54 = true → s.dctr (bits (s.dr (curReg SY_CUR_CFG k)) 31 16) < fieldB f.data 8 8 + 1 →
    ∃ t, exec (.releaseReceive p) s = .next t
      ∧ { ctr := .dev (bits (s.dr (curReg SY_CUR_CFG k)) 31 16), amt := fieldB f.data 8 8 + 1, raise := true, scope := 2, src := .curtain }
          ∈ t.sy.changes
      ∧ (k = 15 → fieldB f.data 8 8 = s.rv.pass → t.rv.pass = s.rv.pass + 1 ∧ t.rv.arrived = false ∧ t.rv.pieces = [] ∧ t.rv.marks = [])
      ∧ (k ≠ 15 → t.rv = s.rv))
  ∧ (∀ s p f k, s.rxFind p.val (fun g => g.ty == 4 && g.bop == 2) = some f → k = fieldB f.data 0 1 % 16 →
    ∃ t, exec (.abandonReceive p) s = .next t ∧ bit (t.dr (curReg SY_CUR_STAT k)) 32 = true
      ∧ ∀ w ∈ t.sy.watches, w.ctr ≠ bits (s.dr (curReg SY_CUR_CFG k)) 31 16)
  ∧ (∀ s, bit (s.dr MG_TB_CTRL) 0 = true → ∃ t, exec .rackSyncEdge s = .next t ∧ t.timebase = s.dr MG_TB_LOAD
      ∧ bit (t.dr MG_TB_CTRL) 0 = false ∧ t.dr MG_TB_OFFSET = 0)
  ∧ (∀ s p, bit (s.dr MG_TB_CTRL) 0 = false → p = bits (s.dr MG_TB_CTRL) 63 32 → 2 * (s.timebase % p) < p →
    ∃ t, exec .rackSyncEdge s = .next t ∧ t.timebase = s.timebase ∧ t.dr MG_TB_OFFSET = s.timebase % p + 2 ^ 32)

namespace Sys2Proof.Claims

/-- How many frames of a port's receive buffer still wait to be delivered here. -/
def undelivered (s : State) (p : Port) : Nat := ((s.port p.val).rx.filter (fun r => !r.taken)).length

/-- The first routed frame of an operation at port p to be delivered. -/
def Routed (s : State) (p : Port) (op : Nat) (f : Frame) : Prop := s.rxFind p.val (fun g => g.ty == 1 && g.op == op) = some f

/-- Frame f of another chip names cluster c of the context bound to its slice. -/
def NamesCluster (s : State) (f : Frame) (c : Cl) : Prop :=
  f.kind = 2 ∧ bits f.off 47 25 = 0 ∧ bits f.off 24 19 = c.val ∧ s.ctxOfSlice f.slice = some (s.cl c).owner ∧ f.off % 8 = 0

/-- The answer f is for transfer y of a store engine. -/
def AnswerTo (f : Frame) (y : Xfer) : Prop :=
  4 ≤ y.slot ∧ y.xslot = fieldB f.data 9 1 ∧ gChip y.addr = f.src ∧ gKind y.addr = 2

/-- The effect of piece bytes from offset 0 of a piece of which nothing has come. -/
def FirstBytes (s t : State) (pos num : Nat) (bs : List Byte) : Prop :=
  s.pieceOf pos num = none → ∃ x, t.pieceOf pos num = some x ∧ x.recd = bs.take 64

end Sys2Proof.Claims

/-- R377, R396, R424, R429, R430, R436, R453, R454, R464, R466, R502, R587. -/
def Obligations.RoutedFrames : Prop :=
  (∀ s p f, s.nextWeight p.val = some f → f.poff = 0 → s.ahead f = 0 →
    ∃ t, exec (.weightFrameReceive p) s = .next t ∧ FirstBytes s t f.pos f.piece f.data)
  ∧ (∀ s p f, s.nextWeight p.val = some f → s.ahead f ≠ 0 →
    ∃ t, exec (.weightFrameReceive p) s = .next t ∧ t.rv.pieces = s.rv.pieces
      ∧ (s.frozen = false → t.dr LK_RV_CNT_STALE = (s.dr LK_RV_CNT_STALE + 1) % 2 ^ 48))
  ∧ (∀ s p f, s.rxFind p.val (fun f => f.ty == 3 && (s.ahead f == 0 || decide (32768 ≤ s.ahead f))) = some f → s.ahead f = 0 →
    s.rv.marks.any (fun m => m.src == f.pos) = false →
    ∃ t, exec (.endMarkReceive p) s = .next t ∧ t.rv.marks = s.rv.marks ++ [⟨f.pos, f.piece, fieldB f.data 0 8⟩])
  ∧ (∀ s p f, s.rxFind p.val (fun f => f.ty == 1 && f.op == 8) = some f → bit (fieldB f.data 6 1) 0 = false →
    fieldB f.data 7 1 = s.ringSlice → fieldB f.data 0 2 = s.rv.pass % 65536 → fieldB f.data 8 4 = 0 →
    s.canTake (fieldB f.data 2 2) (fieldB f.data 4 2) 0 (f.data.drop 16) = true →
    ∃ t, exec (.repairReceive p) s = .next t ∧ FirstBytes s t (fieldB f.data 2 2) (fieldB f.data 4 2) (f.data.drop 16))
  ∧ (∀ s p f c, Routed s p 0 f → NamesCluster s f c →
    ∃ t, exec (.writeReceive p) s = .next t ∧ undelivered t p + 1 = undelivered s p ∧ s.sameOthers t c
      ∧ (t.cl c).waitA = (s.cl c).waitA ++ [{ chip := f.src, off := f.off % 524288, words := wordList f.data
                                              from_ := .link f.src f.clus f.xslot f.xend }])
  ∧ (∀ s p f, Routed s p 0 f → (∀ c, ¬ NamesCluster s f c) →
    ∃ t, exec (.writeReceive p) s = .next t ∧ undelivered t p + 1 = undelivered s p ∧ t.cls = s.cls)
  ∧ (∀ s p f c, Routed s p 1 f → NamesCluster s f c →
    ∃ t, exec (.atomicReceive p) s = .next t ∧ undelivered t p + 1 = undelivered s p ∧ s.sameOthers t c
      ∧ (t.cl c).waitA = (s.cl c).waitA ++ [{ chip := f.src, off := f.off % 524288, words := [word (fieldB f.data 8 8)]
                                              amo := some (fieldB f.data 0 1), from_ := .link f.src f.clus f.xslot f.xend }])
  ∧ (∀ s p f, Routed s p 2 f → ∃ t, exec (.signalReceive p) s = .next t ∧ undelivered t p + 1 = undelivered s p ∧ t.cls = s.cls
      ∧ match (s.ctxOfSlice f.slice).bind (fun x => s.vmap x (fieldB f.data 0 2)) with
        | some q => t.sy.changes = s.sy.changes ++ [{ ctr := .dev q, amt := bits (fieldB f.data 8 8) 47 0
                                                      scope := fieldB f.data 2 1 % 4, src := .chip f.src f.clus }]
        | none => t.sy = s.sy)
  ∧ (∀ s p f k, Routed s p 4 f → k = fieldB f.data 0 1 → k < 16 → bits (s.dr (curReg SY_CUR_CFG k)) 54 52 = 7 →
    s.ctxOfSlice f.slice = some (bits (s.dr (curReg SY_CUR_CFG k)) 51 48) →
    ∃ t, exec (.arriveReceive p) s = .next t ∧ undelivered t p + 1 = undelivered s p
      ∧ t.sy.changes = s.sy.changes
          ++ [{ ctr := .dev (bits (s.dr (curReg SY_CUR_RING k)) 15 0), amt := 1, scope := 2, src := .chip f.src 63 }])
  ∧ (∀ s p f c, Routed s p 6 f → fieldB f.data 8 1 = c.val →
    ∃ t, exec (.rejectReceive p) s = .next t ∧ undelivered t p + 1 = undelivered s p ∧ s.sameOthers t c
      ∧ (∀ y ∈ (t.cl c).st.xfers, AnswerTo f y → y.ready = true ∧ y.rejected = true)
      ∧ (∀ y ∈ (s.cl c).st.xfers, ¬ AnswerTo f y → y ∈ (t.cl c).st.xfers))
  ∧ (∀ s p f c, Routed s p 7 f → fieldB f.data 8 1 = c.val →
    ∃ t, exec (.completeReceive p) s = .next t ∧ undelivered t p + 1 = undelivered s p ∧ s.sameOthers t c
      ∧ (∀ y ∈ (t.cl c).st.xfers, AnswerTo f y → y.ready = true ∧ y.rejected = false)
      ∧ (∀ y ∈ (s.cl c).st.xfers, ¬ AnswerTo f y → y ∈ (t.cl c).st.xfers))
  ∧ (∀ s p f, Routed s p 3 f → f.xend = false →
    ∃ t, exec (.mgmtReceive p) s = .next t ∧ undelivered t p + 1 = undelivered s p
      ∧ (f.src, ((s.rv.inbox.find? (fun e => e.1 == f.src)).map (·.2)).getD [] ++ f.data) ∈ t.rv.inbox)
  ∧ (∀ s p f m, Routed s p 3 f → f.xend = true → m = ((s.rv.inbox.find? (fun e => e.1 == f.src)).map (·.2)).getD [] ++ f.data →
    fieldB m 0 1 = tagShard → ∃ t, exec (.mgmtReceive p) s = .next t ∧ (f.src, m) ∈ t.rv.fwbox ∧ ∀ e ∈ t.rv.inbox, e.1 ≠ f.src)
  ∧ (∀ s p i r o g, s.nextFwd p.val = some (i, r) → r.fwd = some (o, g) → o < 8 → (s.port o).stompFrom = none →
    s.domStopped (32 + o) = false →
    ∃ t, exec (.frameForward p) s = .next t ∧ (t.port o).nextSeq = ((s.port o).nextSeq + 1) % 2 ^ 48
      ∧ (∃ f ∈ (t.port o).replay, f.seq = (s.port o).nextSeq ∧ f.tf = g.tf ∧ f.data = g.data)
      ∧ (t.port o).stompFrom = if g.stomp then some p.val else none)
  ∧ (∀ s p i r o g, s.nextFwd p.val = some (i, r) → r.fwd = some (o, g) → o < 8 → (s.port o).stompFrom = some p.val → g.stomp = false →
    s.domStopped (32 + o) = false →
    ∃ t, exec (.forwardGoodCopy p) s = .next t ∧ (t.port o).stompFrom = none
      ∧ (∃ f ∈ (t.port o).replay, f.seq = (s.port o).nextSeq ∧ f.tf = g.tf ∧ f.data = g.data))
  ∧ (∀ s id r k, s.rv.relayed.find? (fun r => r.id == id && decide (r.until_ ≤ s.timebase)) = some r →
    (s.cmds r.ctx).find? (fun k => k.seq == r.seq && k.op == 0x0704) = some k →
    ∃ t, exec (.relayTimeout id) s = .next t ∧ (∀ y ∈ t.rv.relayed, y.id ≠ id) ∧ Answers s t r.ctx k TIMEOUT)

namespace Sys2Proof.Claims

/-! ### Ports, links and frames (12) -/

end Sys2Proof.Claims

/-- R412, R445, R446, R456, R476, R477, R481, R686 to R688, R690. -/
def Obligations.PortsAndKeys : Prop :=
  (∀ s p, ∃ t, exec (.portEnSet p) s = .next t ∧ bit (t.dr (portReg LK_PORT_CTRL p.val)) 0 = true ∧ t.cls = s.cls
    ∧ t.portState p.val = if s.portState p.val = 0 ∧ s.role ≠ 0 ∧ (s.port p.val).offAt = none ∧ s.err.dead = false then 1
        else s.portState p.val)
  ∧ (∀ s p, s.portLive p.val = true → ∃ t, exec (.portEnClear p) s = .next t ∧ t.portState p.val = 0
      ∧ bit (t.dr (portReg LK_PORT_CTRL p.val)) 0 = false ∧ (t.port p.val).replay = [] ∧ (t.port p.val).resend = [])
  ∧ (∀ s p, s.portState p.val = 1 → ∃ t, exec (.portTrainComplete p) s = .next t
      ∧ (t.portState p.val = if bits (s.dr (linkReg (s.linkOf p.val))) 1 0 = 2 then 3 else 2)
      ∧ (t.port p.val).vcbuf = s.dr (portReg LK_PORT_VCBUF p.val) ∧ (t.port p.val).share = none ∧ (t.port p.val).fresh = true)
  ∧ (∀ s p l, s.portLive p.val = true → ∃ t, exec (.laneLoss p l) s = .next t ∧ (t.port p.val).replay = []
      ∧ bits (t.dr (portReg LK_PORT_STATUS p.val)) 9 4 = l.val
      ∧ t.portState p.val = if bit (s.dr (portReg LK_PORT_CTRL p.val)) 1 then 1 else 5)
  ∧ (∀ s p k b, s.portState p.val = 2 → k = s.linkOf p.val → k < 4 → (s.link k).hs.expect ≠ 0 → fieldB b 0 1 = (s.link k).hs.expect →
    fieldB b 1 1 = (s.link k).hs.frag → fieldB b 3 1 = 0 → (s.link k).hs.frag + 1 < fieldB b 2 1 →
    ∃ t, exec (.handshakeReceive p b) s = .next t ∧ t.ports = s.ports ∧ (t.link k).hs.frag = (s.link k).hs.frag + 1
      ∧ (t.link k).hs.part = (s.link k).hs.part ++ sliceB b 8 456)
  ∧ (∀ s p b, s.portLive p.val = true → s.portState p.val ≠ 2 →
    ∃ t, exec (.handshakeReceive p b) s = .next t ∧ t.links = s.links ∧ t.ports = s.ports
      ∧ s.sameRegs t [portReg LK_CNT_MALFORMED p.val])
  ∧ (∀ s k, (s.link (k : Fin 4).val).hs.expect ≠ 0 → (s.link k.val).hs.last + 10000000 ≤ s.timebase →
    ∃ t, exec (.handshakeMsgTimeout k) s = .next t ∧ (t.link k.val).hs = { failAt := some (s.timebase + 100000000) }
      ∧ bits (t.dr (linkReg k.val)) 1 0 = 0)
  ∧ (∀ s k n p, (s.link (k : Fin 4).val).hs.failAt = some n → n ≤ s.timebase → s.rngFail = false →
    (s.linkPorts k.val).find? (fun n => s.portState n == 2) = some p →
    ∃ t, exec (.handshakeRestart k) s = .next t ∧ (t.link k.val).hsPort = p ∧ bits (t.dr (linkReg k.val)) 1 0 = 1)
  ∧ (∀ s k key salt, 2 ≤ bits (s.dr (linkReg (k : Fin 4).val)) 1 0 → (s.link k.val).swTx = false → (s.link k.val).eraseAt = none →
    (s.link k.val).keys.length < 2 →
    ∃ t, exec (.linkKeyInstall k key salt) s = .next t
      ∧ amGet (0, 0) (t.link k.val).keys (1 - bits (s.dr (linkReg k.val)) 2 2) = (key, salt)
      ∧ bit (t.dr (linkReg k.val)) (3 + (1 - bits (s.dr (linkReg k.val)) 2 2)) = true
      ∧ bits (t.dr (linkReg k.val)) 2 2 = if s.chip < bits (s.dr (linkReg k.val)) 27 16
          then 1 - bits (s.dr (linkReg k.val)) 2 2 else bits (s.dr (linkReg k.val)) 2 2)
  ∧ (∀ s k key salt, 2 ≤ bits (s.dr (linkReg (k : Fin 4).val)) 1 0 → (s.link k.val).swTx = true →
    ∃ t, exec (.linkKeyInstall k key salt) s = .next t ∧ (t.link k.val).next = some (key, salt)
      ∧ (t.link k.val).keys = (s.link k.val).keys ∧ t.regs = s.regs)
  ∧ (∀ s k n, (s.link (k : Fin 4).val).eraseAt = some n → n ≤ s.timebase → (s.link k.val).next = none →
    ∃ t, exec (.oldKeyErase k) s = .next t ∧ (∀ e ∈ (t.link k.val).keys, e.1 ≠ 1 - bits (s.dr (linkReg k.val)) 2 2)
      ∧ bit (t.dr (linkReg k.val)) (3 + (1 - bits (s.dr (linkReg k.val)) 2 2)) = false ∧ (t.link k.val).swTx = false
      ∧ (t.link k.val).eraseAt = none)
  ∧ (∀ s k n key salt, (s.link (k : Fin 4).val).eraseAt = some n → n ≤ s.timebase → (s.link k.val).next = some (key, salt) →
    ∃ t, exec (.oldKeyErase k) s = .next t ∧ (t.link k.val).next = none
      ∧ amGet (0, 0) (t.link k.val).keys (1 - bits (s.dr (linkReg k.val)) 2 2) = (key, salt))
  ∧ (∀ s p v, ∃ t, exec (.vcbufWrite p v) s = .next t ∧ t.ports = s.ports ∧
      if ((List.range 4).map (fun i => bits v.toNat (12 * i + 11) (12 * i))).any (· == 0) = true
          ∨ 4096 < ((List.range 4).map (fun i => bits v.toNat (12 * i + 11) (12 * i))).foldl (· + ·) 0 then
        bit (t.dr LK_ERR) 18 = true ∧ s.sameRegs t [LK_ERR]
      else t.dr (portReg LK_PORT_VCBUF p.val) = v.toNat % 2 ^ 48 ∧ s.sameRegs t [portReg LK_PORT_VCBUF p.val])

namespace Sys2Proof.Claims

/-- A plain well-formed data frame b has come at port p, which takes data, and no encoded block is open. -/
def PlainData (s : State) (p : Port) (b : List Byte) : Prop :=
  (s.portState p.val = 3 ∨ s.portState p.val = 4) ∧ (frameOf b).ty ≠ 0 ∧ badField b = none ∧ (frameOf b).cmp = false
    ∧ (frameOf b).bfirst = false ∧ (frameOf b).blast = false ∧ (s.port p.val).block = []

/-- Frame b is accepted at port p and waits to be delivered here. -/
def Accepted (t : State) (p : Port) (b : List Byte) : Prop :=
  (t.port p.val).expSeq = ((frameOf b).seq + 1) % 2 ^ 48 ∧ (t.port p.val).nackAt = none
    ∧ ∃ r ∈ (t.port p.val).rx, r.f = frameOf b ∧ r.taken = false

/-- A good control frame of a type at a live port. -/
def ControlFrame (s : State) (p : Port) (n : Nat) (b : List Byte) : Prop :=
  s.portLive p.val = true ∧ (frameOf b).ty = 0 ∧ (frameOf b).tf = n ∧ badField b = none

end Sys2Proof.Claims

/-- R449, R456 to R463, R477, R480. -/
def Obligations.FramesOnAPort : Prop :=
  (∀ s p b fw, PlainData s p b → (frameOf b).seq = (s.port p.val).expSeq → s.placeOf (frameOf b) = .keep true fw →
    ∃ t, exec (.dataFrameReceive p b .good) s = .next t ∧ Accepted t p b)
  ∧ (∀ s p b, PlainData s p b → (s.port p.val).fresh = false → (s.port p.val).nackAt = none →
    0 < ((frameOf b).seq + 2 ^ 48 - (s.port p.val).expSeq) % 2 ^ 48 →
    ((frameOf b).seq + 2 ^ 48 - (s.port p.val).expSeq) % 2 ^ 48 < 2 ^ 47 →
    ∃ t, exec (.dataFrameReceive p b .good) s = .next t ∧ (t.port p.val).rx = (s.port p.val).rx
      ∧ (t.port p.val).expSeq = (s.port p.val).expSeq ∧ (t.port p.val).nackAt = some s.timebase
      ∧ ∃ f ∈ (t.port p.val).wire, f.ty = 0 ∧ f.tf = 1 ∧ fieldB f.data 0 6 = (s.port p.val).expSeq % 2 ^ 48)
  ∧ (∀ s p b, PlainData s p b → 2 ^ 47 ≤ ((frameOf b).seq + 2 ^ 48 - (s.port p.val).expSeq) % 2 ^ 48 →
    ∃ t, exec (.dataFrameReceive p b .good) s = .next t ∧ (t.port p.val).rx = (s.port p.val).rx
      ∧ (t.port p.val).expSeq = (s.port p.val).expSeq ∧ t.regs = s.regs)
  ∧ (∀ s p b fw m n, PlainData s p b → (frameOf b).seq = (s.port p.val).expSeq → s.placeOf (frameOf b) = .keep true fw →
    ∃ t, exec (.frameFecCheck p b .good m n) s = .next t ∧ Accepted t p b
      ∧ (s.frozen = false → t.dr (portReg LK_CNT_FECCORR p.val) = (s.dr (portReg LK_CNT_FECCORR p.val) + m) % 2 ^ 48))
  ∧ (∀ s p b h hs, ControlFrame s p 0 b → (s.port p.val).replay = h :: hs → (frameOf b).ack = h.seq % 2 ^ 24 →
    ∃ t, exec (.idleReceive p b .good) s = .next t ∧ (t.port p.val).replay = hs ∧ (t.port p.val).ackAt = s.timebase
      ∧ (t.port p.val).rx = (s.port p.val).rx ∧ t.regs = s.regs)
  ∧ (∀ s p b q n, ControlFrame s p 1 b → q = (s.ackIn p.val (frameOf b).ack).port p.val → n = fieldB (frameOf b).data 0 6 →
    q.replay.any (fun f => f.seq == n) = true → q.tries.1 ≠ n →
    ∃ t, exec (.nackReceive p b .good) s = .next t ∧ (t.port p.val).resend = (q.replay.map (·.seq)).dropWhile (· != n)
      ∧ (t.port p.val).replay = q.replay ∧ (t.port p.val).tries = (n, 1))
  ∧ (∀ s p b, ControlFrame s p 2 b → (s.port p.val).share = none →
    ∃ t, exec (.creditReceive p b .good) s = .next t
      ∧ (t.port p.val).share = some ((List.range 4).map (fun v => fieldB (frameOf b).data (4 * v) 4)))
  ∧ (∀ s p b k n, ControlFrame s p 3 b → k = s.linkOf p.val → k < 4 → (s.portState p.val = 3 ∨ s.portState p.val = 4) →
    n = fieldB (frameOf b).data 0 1 → n < 2 → bit (s.dr (linkReg k)) (3 + n) = true → (s.port p.val).swRx = false →
    (bits (s.dr (linkReg k)) 2 2 = n → (s.link k).swTx = true) →
    ∃ t, exec (.keyswitchReceive p b .good) s = .next t ∧ t.portState p.val = 4 ∧ (t.port p.val).swRx = true
      ∧ bits (t.dr (linkReg k)) 2 2 = n ∧ bits (t.dr (linkReg k)) 1 0 = 3 ∧ (t.link k).swTx = true)
  ∧ (∀ s p b k, ControlFrame s p 5 b → k = s.linkOf p.val → bits (s.dr (linkReg k)) 1 0 = 3 → s.portState p.val = 2 →
    s.neighbourOk k (fieldB (frameOf b).data 16 2) = true →
    ∃ t, exec (.portstateReceive p b .good) s = .next t ∧ t.portState p.val = 4 ∧ t.links = s.links)
  ∧ (∀ s p i f, (s.portState p.val = 3 ∨ s.portState p.val = 4) → (s.port p.val).stompFrom = none →
    s.domStopped (32 + p.val) = false → (s.port p.val).resend = [] → s.nextTx p.val = some (i, f) →
    ∃ t, exec (.dataFrameTransmit p) s = .next t ∧ (t.port p.val).txq = (s.port p.val).txq.eraseIdx i
      ∧ (t.port p.val).nextSeq = ((s.port p.val).nextSeq + 1) % 2 ^ 48
      ∧ ∃ g, (t.port p.val).replay = (s.port p.val).replay ++ [g] ∧ g ∈ (t.port p.val).wire ∧ g.seq = (s.port p.val).nextSeq
          ∧ g.tf = f.tf ∧ g.data = f.data)
  ∧ (∀ s p r rs f, (s.portState p.val = 3 ∨ s.portState p.val = 4) → (s.port p.val).stompFrom = none →
    s.domStopped (32 + p.val) = false → (s.port p.val).resend = r :: rs → (s.port p.val).replay.find? (fun f => f.seq == r) = some f →
    (s.port p.val).keyed.1 < 2 ^ 44 →
    ∃ t g, exec (.dataFrameTransmit p) s = .next t ∧ (t.port p.val).resend = rs ∧ (t.port p.val).nextSeq = (s.port p.val).nextSeq
      ∧ (t.port p.val).wire = (s.port p.val).wire ++ [g] ∧ g.seq = r ∧ g.tf = f.tf ∧ g.data = f.data)
  ∧ (∀ s p, (s.portState p.val = 2 ∨ s.portState p.val = 3 ∨ s.portState p.val = 4) → (s.port p.val).resend = [] →
    s.nextTx p.val = none → s.domStopped (32 + p.val) = false →
    ∃ t g, exec (.idleTransmit p) s = .next t ∧ (t.port p.val).wire = (s.port p.val).wire ++ [g] ∧ g.ty = 0 ∧ g.tf = 0
      ∧ (t.port p.val).nextSeq = (s.port p.val).nextSeq)
  ∧ (∀ s p h hs, (s.portState p.val = 3 ∨ s.portState p.val = 4) → (s.port p.val).replay = h :: hs →
    (s.port p.val).ackAt + s.rto p.val ≤ s.timebase →
    ∃ t, exec (.resendTimeout p) s = .next t ∧
      if (s.port p.val).tries.1 = h.seq ∧ s.retryMax p.val ≤ (s.port p.val).tries.2 then t.portState p.val = 5
      else (t.port p.val).resend = (s.port p.val).replay.map (·.seq) ∧ (t.port p.val).ackAt = s.timebase)
  ∧ (∀ s p n, (s.port p.val).nackAt = some n → s.portLive p.val = true → n + s.rto p.val ≤ s.timebase →
    ∃ t, exec (.nackRepeat p) s = .next t ∧ (t.port p.val).nackAt = some s.timebase
      ∧ (s.frozen = false → t.dr (portReg LK_CNT_NACKTX p.val) = (s.dr (portReg LK_CNT_NACKTX p.val) + 1) % 2 ^ 48))
  ∧ (∀ s p n, (s.port p.val).freeAt = some n → n + 100 ≤ s.timebase →
    ∃ t, exec (.creditTimer p) s = .next t ∧ (t.port p.val).freeAt = none ∧ (t.port p.val).credAt = (s.port p.val).freed)

namespace Sys2Proof.Claims

/-! ### Weights (13) -/

/-- The image read for shard h holds it whole: its bytes pass the check. -/
def Sound (s : State) (h : Shard) (image : List Byte) (bs : List Byte) : Prop :=
  s.imageWaits h = false ∧ (∃ gen, s.copyOf h image = .bytes bs gen) ∧ checkShard h bs = none

/-- The image read for shard h cannot be read, decrypted or parsed, or its digest differs. -/
def Unsound (s : State) (h : Shard) (image : List Byte) : Prop :=
  s.imageWaits h = false ∧ (∀ bs gen, s.copyOf h image = .bytes bs gen → checkShard h bs ≠ none)

/-- Shard h has come in: its entry tells so, and with no pass to be stamped for its frames hold the bytes read. -/
def CameIn (s t : State) (h : Shard) (bs : List Byte) : Prop :=
  (∃ y ∈ t.wt.shards, y.same h = true ∧ y.state = (if h.replaces.isSome then .staged else .resident) ∧ y.attempts = 0
      ∧ y.wait = false ∧ y.check = s.wt.tick + 1)
  ∧ (h.period = 0 → h.period2 = 0 → h.frames.Nodup → h.frames.length = h.pages → t.shardBytes h = bs)

/-- A failed check is counted, while counters run. -/
def CheckFailed (s t : State) : Prop :=
  s.frozen = false → t.dr HM_WT_CNT_CHKFAIL = (s.dr HM_WT_CNT_CHKFAIL + 1) % 2 ^ 48

end Sys2Proof.Claims

/-- R484, R494, R496 to R499, R504, R510, R582, R583. -/
def Obligations.ShardsComeInWhole : Prop :=
  (∀ s (x : Ctx) id img h bs, s.shardIn? x.val (BitVec.toNat id) .loading = some h → Sound s h img bs →
    ∃ t, exec (.wtLoadComplete x id img) s = .next t ∧ CameIn s t h bs
      ∧ (∀ k, s.wtCmd h.ctx h.cmd = some k → Answers s t h.ctx k OK))
  ∧ (∀ s (x : Ctx) id img h, s.shardIn? x.val (BitVec.toNat id) .loading = some h → Unsound s h img →
    ∃ t, exec (.wtLoadComplete x id img) s = .next t ∧ CheckFailed s t)
  ∧ (∀ s (x : Ctx) id img h p bs, s.shardIn? x.val (BitVec.toNat id) .moving = some h → s.pageIn x.val (BitVec.toNat id) = some p →
    Sound s h img bs →
    ∃ t, exec (.pageInComplete x id img) s = .next t ∧ CameIn s t h bs
      ∧ t.wt.pageIns = dropFirst (fun y => y == p) s.wt.pageIns
      ∧ (∀ k, s.wtCmd h.ctx p.cmd = some k → Answers s t h.ctx k OK))
  ∧ (∀ s (x : Ctx) id img h p, s.shardIn? x.val (BitVec.toNat id) .moving = some h → s.pageIn x.val (BitVec.toNat id) = some p →
    Unsound s h img → ∃ t, exec (.pageInComplete x id img) s = .next t ∧ CheckFailed s t)
  ∧ (∀ s (x : Ctx) id img h bs, s.shardIn? x.val (BitVec.toNat id) .moving = some h → s.pageIn x.val (BitVec.toNat id) = none →
    Sound s h img bs → ∃ t, exec (.refetchComplete x id img) s = .next t ∧ CameIn s t h bs)
  ∧ (∀ s (x : Ctx) id img h, s.shardIn? x.val (BitVec.toNat id) .moving = some h → s.pageIn x.val (BitVec.toNat id) = none →
    Unsound s h img → ∃ t, exec (.refetchComplete x id img) s = .next t ∧ CheckFailed s t)

namespace Sys2Proof.Claims

/-- No word of the shard's pages is poisoned. -/
def Readable (s : State) (h : Shard) : Prop :=
  ∀ i < h.pages, s.hbmBad (h.phys (2097152 * i)) (min 2097152 (h.len - 2097152 * i)) = []

/-- The device waits for the slice of a position in this pass. -/
def Awaits (s : State) (pos : Nat) : Prop :=
  bit (s.dr LK_RV_STATUS) 3 = true ∧ pos < s.ringN ∧ pos ≠ s.ringPos ∧ s.sliceWhole pos = false ∧ s.rv.pass ∉ s.rv.given

/-- Shard h of the table is resident in place of the one it replaced, and its pages lead to its frames. -/
def SwappedIn (t : State) (h : Shard) : Prop :=
  (∃ y ∈ t.wt.shards, y.ctx = h.ctx ∧ y.id = h.id ∧ y.state = .resident ∧ y.replaces = none)
  ∧ ∀ i < h.pages, bit (t.page h.ctx (h.page0 + i)) 1 = true
      ∧ bits (t.page h.ctx (h.page0 + i)) 26 8 = h.frames.getD i 0 % 2 ^ 19

end Sys2Proof.Claims

/-- R490, R498, R500, R502 to R505, R507, R509, R570, R583. -/
def Obligations.WeightsAreKept : Prop :=
  (∀ s i r h, s.mem.pageReqs[i]? = some r → s.shardAt r.1 r.2 = some h → h.state = .backed → s.wt.pageIns.length < 16 →
    s.framesLeft h.ctx h.pages = true →
    ∃ t, exec (.pageInRequest i) s = .next t ∧ t.mem.pageReqs = s.mem.pageReqs.eraseIdx i
      ∧ t.wt.pageIns = s.wt.pageIns ++ [{ ctx := h.ctx, shard := h.id }]
      ∧ ∃ y ∈ t.wt.shards, y.same h = true ∧ y.state = .moving)
  ∧ (∀ s q rest h, s.wt.queue = q :: rest → s.shardIn? q.1 q.2 .resident = some h → Readable s h →
    checkShard h (s.shardBytes h) = none →
    ∃ t, exec .shardCheckComplete s = .next t ∧ t.wt.queue = rest ∧ t.mem = s.mem
      ∧ ∃ y ∈ t.wt.shards, y.same h = true ∧ y.check = s.wt.tick + 1 ∧ y.injSince = 0 ∧ y.wait = false)
  ∧ (∀ s h, bit (s.dr HM_WT_CTRL) 24 = true → s.wt.queue = [] → h ∈ s.wt.shards → h.state = .resident → h.writable = false →
    h.queued = false →
    (∀ y ∈ s.wt.shards, y.state = .resident → y.writable = false → y.queued = false → y = h ∨ h.check < y.check) →
    ∃ t, exec .idleScrubCheck s = .next t ∧ t.wt.queue = [(h.ctx, h.id)] ∧ t.mem = s.mem ∧ t.pages = s.pages)
  ∧ (∀ s (r : BitVec 128), s.role = 3 →
    ∃ t, exec (.shardReportReceive r) s = .next t ∧ t.rv.reports = s.rv.reports ++ [leBytes 16 r.toNat]
      ∧ ∀ k rest, s.covering (fieldB (leBytes 16 r.toNat) 4 4) = k :: rest →
          (∀ y ∈ s.rv.reports, fieldB y 4 4 ≠ fieldB (leBytes 16 r.toNat) 4 4) → Answers s t 0 k SHARD)
  ∧ (∀ s pos h, Awaits s pos → s.rv.shorts.find? (fun h => h.pos == pos) = some h → h.until_ ≤ s.timebase → h.asked < 3 →
    ∃ t, exec (.repairWaitExpiry pos) s = .next t
      ∧ (∃ y ∈ t.rv.shorts, y.pos = pos ∧ y.asked = h.asked + 1 ∧ y.until_ = s.timebase + s.rvEndWait)
      ∧ (s.frozen = false → t.dr LK_RV_CNT_REPAIR = (s.dr LK_RV_CNT_REPAIR + 1) % 2 ^ 48))
  ∧ (∀ s pos, Awaits s pos → s.rv.shorts.find? (fun h => h.pos == pos) = none → s.rv.relAt + s.rvEndWait ≤ s.timebase →
    ∃ t, exec (.repairWaitExpiry pos) s = .next t
      ∧ (∃ y ∈ t.rv.shorts, y.pos = pos ∧ y.asked = 1 ∧ y.until_ = s.timebase + s.rvEndWait))
  ∧ (∀ s pos h, Awaits s pos → h ∈ s.rv.shorts → h.pos = pos → 3 ≤ h.asked → h.until_ ≤ s.timebase →
    ∃ t, exec (.shardGiveUp pos) s = .next t ∧ s.rv.pass ∈ t.rv.given ∧ bit (t.dr LK_RV_SHFAIL) 57 = true)
  ∧ (∀ s pos, Awaits s pos → s.rv.relAt + s.rvShardTmo ≤ s.timebase →
    ∃ t, exec (.shardGiveUp pos) s = .next t ∧ s.rv.pass ∈ t.rv.given ∧ bit (t.dr LK_RV_SHFAIL) 57 = true)
  ∧ (∀ s chip sl ps, 2 ≤ s.role → BitVec.toNat (w := 8) sl = s.ringSlice → BitVec.toNat (w := 16) ps = s.rv.pass % 65536 →
    s.rv.injDone = true →
    ∃ t, exec (.repairRequestReceive chip sl ps) s = .next t ∧ t.rv = s.rv ∧ t.mem = s.mem
      ∧ (s.frozen = false → t.dr LK_RV_CNT_REPAIRSRV = (s.dr LK_RV_CNT_REPAIRSRV + 1) % 2 ^ 48))
  ∧ (∀ s (x : Ctx) id h o, s.stagedPair x.val (BitVec.toNat id) = some (h, o) → 2 ≤ s.role → h.at_ ≤ s.rv.pass →
    ∃ t, exec (.replacementSwap x id) s = .next t ∧ SwappedIn t h)
  ∧ (∀ s (x : Ctx) id h o, s.stagedPair x.val (BitVec.toNat id) = some (h, o) → s.role = 0 →
    (∀ k ∈ s.cmds x.val, k.running = false) →
    ∃ t, exec (.standaloneSwap x id) s = .next t ∧ SwappedIn t h)
  ∧ (∀ s (x : Ctx), (s.cx x.val).overQ = true → s.kernelRuns x.val = false →
    ∃ t, exec (.quotaReclaim x) s = .next t ∧ ((t.cx x.val).overQ = false ↔ t.withinQuota x.val = true))
  ∧ (∀ s f, s.mem.zeroing.any (fun z => z.frame == f && !z.held) = true →
    ∃ t, exec (.frameZeroComplete f) s = .next t ∧ (∀ a, a / 2097152 = f → amGet 0 t.mem.hbm a = 0)
      ∧ (∀ a, a / 2097152 ≠ f → amGet 0 t.mem.hbm a = amGet 0 s.mem.hbm a) ∧ (∀ z ∈ t.mem.zeroing, z.frame ≠ f))
  ∧ (∀ s (x : Ctx) (sq : BitVec 32) k h, s.findCmd x sq.toNat 0x0502 = some k → s.anyShard x.val (k.f 16 4) = some h →
    h.busy = false → s.shardRead h = false →
    ∃ t, exec (.wtUnloadComplete x sq) s = .next t ∧ (∀ y ∈ t.wt.shards, y.same h = false) ∧ Answers s t x.val k OK)

namespace Sys2Proof.Claims

/-! ### Understudy mode (14) -/

/-- Two chain records that differ in BEATS, STATUS or DIGEST. -/
def Differ (a b : UsRec) : Prop := a.beats ≠ b.beats ∨ a.status ≠ b.status ∨ a.digest ≠ b.digest

end Sys2Proof.Claims

/-- R529, R531, R532, R534 to R536, R538, R539. -/
def Obligations.UnderstudyCompares : Prop :=
  (∀ s (pg : BitVec 96) (l : BitVec 32), s.usState = 1 → (pg.toNat, l.toNat) = s.usOwn →
    ∃ t, exec (.usPairingReceive pg l) s = .next t ∧ t.usState = 2 ∧ t.us.own = [] ∧ t.us.theirs = []
      ∧ ∀ c, (s.cl c).owner = s.usCtx → (t.cl c).ord = 0)
  ∧ (∀ s (pg : BitVec 96) (l : BitVec 32), s.usState = 1 → (pg.toNat, l.toNat) ≠ s.usOwn →
    ∃ t, exec (.usPairingReceive pg l) s = .next t ∧ t.usState = 3 ∧ bit (t.dr MG_US_STATUS) 4 = true ∧ t.us.own = [])
  ∧ (∀ s (pg : BitVec 96) (l : BitVec 32), s.usState = 0 →
    ∃ t, exec (.usPairingReceive pg l) s = .next t ∧ t.us = { s.us with pair := some (pg.toNat, l.toNat) } ∧ t.regs = s.regs)
  ∧ (∀ s (c : Cl) (rc : BitVec 128) r, s.usState = 2 → r = usRec c.val (leBytes 16 rc.toNat) 0 0 1 1 1 →
    (∀ y ∈ s.us.own, y.c ≠ c.val) →
    ∃ t, exec (.usChainRecordReceive c rc) s = .next t ∧ t.us = { s.us with theirs := s.us.theirs ++ [r] } ∧ t.regs = s.regs)
  ∧ (∀ s (c : Cl) (rc : BitVec 128) r a, s.usState = 2 → r = usRec c.val (leBytes 16 rc.toNat) 0 0 1 1 1 →
    s.us.own.find? (fun y => y.c == c.val) = some a → a.ord = r.ord → (∀ y ∈ s.us.theirs, y.c ≠ c.val) →
    ∃ t, exec (.usChainRecordReceive c rc) s = .next t ∧ t.us.own = dropFirst (fun y => y.c == c.val) s.us.own
      ∧ t.us.theirs = s.us.theirs ∧ (s.frozen = false → t.dr MG_US_CNT_COMPARED = (s.dr MG_US_CNT_COMPARED + 1) % 2 ^ 48)
      ∧ (Differ a r → bit (t.dr MG_US_STATUS) 2 = true ∧ bit (t.dr MG_US_DIV0) 25 = true)
      ∧ (¬ Differ a r → bit (t.dr MG_US_STATUS) 2 = bit (s.dr MG_US_STATUS) 2 ∧ t.dr MG_US_DIV0 = s.dr MG_US_DIV0))
  ∧ (∀ s (c : Cl) (o : BitVec 32) ds b r n, s.us.asked = some r → r.c = c.val → r.ord = o.toNat → s.usBeats c.val o.toNat = some b →
    (List.range b.length).find? (fun n => ds[n]? != b[n]?) = some n → bit (s.dr MG_US_DIV0) 25 = true →
    bits (s.dr MG_US_DIV0) 63 32 = r.ord → bits (s.dr MG_US_DIV0) 21 16 = r.c →
    ∃ t, exec (.usBeatDigestReceive c o (some ds)) s = .next t ∧ t.us.asked = none ∧ bit (t.dr MG_US_DIV0) 24 = true
      ∧ bits (t.dr MG_US_DIV1) 31 16 = n / r.nm % r.e1 % 65536 ∧ bits (t.dr MG_US_DIV1) 47 32 = n / r.nm / r.e1 % r.e2 % 65536
      ∧ bits (t.dr MG_US_DIV1) 63 48 = n / r.nm / r.e1 / r.e2 % 65536 ∧ t.dr MG_US_DIV2 = n % r.nm % 2 ^ 64)
  ∧ (∀ s counts r, s.usState = 2 → s.running s.usCtx = [] → r ∈ s.us.own → r.c < 40 → counts.getD r.c 0 ≤ r.ord →
    ∃ t, exec (.usRecordCountsReceive counts) s = .next t ∧ bit (t.dr MG_US_STATUS) 2 = true)
  ∧ (∀ s counts, s.usState = 2 → s.running s.usCtx ≠ [] →
    ∃ t, exec (.usRecordCountsReceive counts) s = .next t ∧ t.us = { s.us with counts := some counts } ∧ t.regs = s.regs)
  ∧ (∀ s i, i ∈ [Instr.usEndReceive, Instr.usPartnerLost] → (s.usState = 1 ∨ s.usState = 2) →
    ∃ t, exec i s = .next t ∧ t.usState = 3 ∧ bit (t.dr MG_US_STATUS) 3 = true ∧ t.us.own = [] ∧ t.us.theirs = [])
  ∧ (∀ s i, i ∈ [Instr.usEndReceive, Instr.usPartnerLost] → s.usState ≠ 1 → s.usState ≠ 2 →
    ∃ t, exec i s = .next t ∧ t.us = s.us ∧ t.regs = s.regs)
  ∧ (∀ s, bit (s.dr MG_US_CTRL) 0 = true →
    ∃ t, exec .usEnClear s = .next t ∧ t.usState = 0 ∧ bit (t.dr MG_US_CTRL) 0 = false
      ∧ bits (t.dr MG_US_STATUS) 4 2 = bits (s.dr MG_US_STATUS) 4 2
      ∧ (s.usState = 1 ∨ s.usState = 2 → t.us.own = [] ∧ t.us.theirs = []))

namespace Sys2Proof.Claims

/-! ### The Ibzar command protocol (15) -/

/-- Command k is the next of context x to start, of an opcode, with its reserved bytes zero. -/
def Due (s : State) (x : Ctx) (op : Nat) (k : Cmd) : Prop :=
  s.nextCmd x.val = some k ∧ k.op = op ∧ reservedByte k.pkt = none

/-- Where the reply stands at the ring's tail, its result bytes are r. -/
def Carries (s t : State) (x : Nat) (k : Cmd) (st : Nat) (r : List Byte) : Prop :=
  k.origin = none → bit (s.dr (cxReg MG_CX_CTRL x)) 0 = true → s.mayMaster x = true → (k.flag 1 = false ∨ st ≠ OK) →
    (replyAt s t x).drop 16 = sliceB r 0 16

/-- The command of an opcode that is due and meets ok leaves the commands in flight, answered with a status and result bytes, and
has its effect. -/
def Does (i : Instr) (x : Ctx) (op : Nat) (ok : State → Cmd → Prop) (st : Nat) (r : State → Cmd → State → List Byte)
    (eff : State → Cmd → State → Prop) : Prop :=
  ∀ s k, Due s x op k → ok s k → ∃ t, exec i s = .next t ∧ Answers s t x.val k st ∧ Carries s t x.val k st (r s k t) ∧ eff s k t

/-- The command of an opcode that is due and meets ok starts and stays in flight, with an effect. -/
def Begins (i : Instr) (x : Ctx) (op : Nat) (ok : State → Cmd → Prop) (eff : State → Cmd → State → Prop) : Prop :=
  ∀ s k, Due s x op k → ok s k →
    ∃ t, exec i s = .next t ∧ (t.cmds x.val).length = (s.cmds x.val).length
      ∧ (∃ j ∈ t.cmds x.val, j.same k = true ∧ j.started = true) ∧ eff s k t

/-- No result bytes. -/
def noResult (_ : State) (_ : Cmd) (_ : State) : List Byte := []

/-- A command that only answers changes nothing of the clusters, memory, counters, weights, ring, security or power. -/
def OnlyAnswers (s : State) (_ : Cmd) (t : State) : Prop :=
  t.cls = s.cls ∧ t.mem = s.mem ∧ t.pages = s.pages ∧ t.sy = s.sy ∧ t.wt = s.wt ∧ t.rv = s.rv ∧ t.us = s.us ∧ t.sec = s.sec
    ∧ t.pw = s.pw ∧ t.boot = s.boot

/-- No field of the list breaks its range. -/
def Fits (bad : List (Bool × Nat)) : Prop := ∀ b ∈ bad, b.1 = false

/-- No command of context x in flight is a REVOLVE or a RESET, which other commands can end. -/
def Unended (s : State) (x : Ctx) : Prop := ∀ j ∈ s.cmds x.val, j.op ≠ 0x0404 ∧ j.op ≠ 0x0A03

/-- NEXT of the intake moves on past n bytes. -/
def IntakePast (s t : State) (x n : Nat) : Prop :=
  let w := s.dr (cxReg MG_CX_INTAKE x)
  bits (t.dr (cxReg MG_CX_INTAKE x)) 19 0 = (if 0xFF000 < bits w 19 0 + n then 0 else bits w 19 0 + n)
    ∧ bits (t.dr (cxReg MG_CX_INTAKE x)) 51 20 = (if bits w 51 20 = 0xFFFFFFFF then 1 else bits w 51 20 + 1)

/-- The MSI-X message of a vector of function x would go out now. -/
def MsixOpen (s : State) (x v : Nat) : Prop :=
  bit s.pcie.msixEn x = true ∧ bit s.pcie.fmask x = false ∧ bit (s.msixEnt x v) 96 = false ∧ s.mayMaster x = true

end Sys2Proof.Claims

/-- R544 to R547, R550, R560, R566 to R568, R570, R572, R650. -/
def Obligations.ContextsAreCommanded : Prop :=
  (∀ s (x : Ctx) p, s.findPkt x.val = .sealed p → sealOk p = true → s.unreplied x.val < 256 →
    s.replySpace x.val (replyRoom (pktOp p)) = true → s.pktCheck x.val p false = none →
    ∃ t, exec (.packetIntake x) s = .next t ∧ IntakePast s t x.val (pktLen p * 16)
      ∧ t.cmds x.val = s.cmds x.val ++ [{ seq := bits (s.dr (cxReg MG_CX_INTAKE x.val)) 51 20, pkt := p, room := replyRoom (pktOp p) }])
  ∧ (∀ s (x : Ctx) p st off k, s.findPkt x.val = .sealed p → sealOk p = true → s.unreplied x.val < 256 →
    s.replySpace x.val (replyRoom (pktOp p)) = true → s.pktCheck x.val p false = some (st, off) →
    k = { seq := bits (s.dr (cxReg MG_CX_INTAKE x.val)) 51 20, pkt := p, room := replyRoom (pktOp p) } →
    ∃ t, exec (.packetIntake x) s = .next t ∧ IntakePast s t x.val (pktLen p * 16) ∧ t.cmds x.val = s.cmds x.val
      ∧ Told s t x.val k st)
  ∧ (∀ s (x : Ctx) p, s.findPkt x.val = .sealed p → sealOk p = false → (s.cx x.val).sealAt = none →
    ∃ t, exec (.packetIntake x) s = .next t ∧ t = s.modCx x.val (fun y => { y with sealAt := some s.timebase }))
  ∧ (∀ s (x : Ctx) p t0 k, s.findPkt x.val = .sealed p → sealOk p = false → (s.cx x.val).sealAt = some t0 → t0 + 100000 ≤ s.timebase →
    s.replySpace x.val 1 = true → k = { seq := bits (s.dr (cxReg MG_CX_INTAKE x.val)) 51 20, pkt := p, room := 1 } →
    ∃ t, exec (.intakeSealTimeout x) s = .next t ∧ IntakePast s t x.val (pktLen p * 16) ∧ t.cmds x.val = s.cmds x.val
      ∧ (t.cx x.val).sealAt = none ∧ Told s t x.val k MALFORMED)
  ∧ (∀ s (x : Ctx) (v : Fin 64) e, (s.cx x.val).coal.find? (fun y => y.1 == v.val) = some e → e.2.1 ≤ s.timebase →
    ∃ t, exec (.msixCoalesceExpiry x v) s = .next t ∧ (e.2.2 = false → t.pcie = s.pcie ∧ ∀ y ∈ (t.cx x.val).coal, y.1 ≠ v.val)
      ∧ (e.2.2 = true → MsixOpen s x.val v.val → t.pcie.sent = s.pcie.sent ++ [(x.val, v.val)]))
  ∧ (∀ x, Does (.ctxQuery x) x 0x0101 (fun _ k => k.f 16 1 ≤ 15 ∧ (x.val = 0 ∨ k.f 16 1 = x.val)) OK
      (fun s k _ => leBytes 1 (s.cx (k.f 16 1)).state ++ leBytes 1 (b2n (s.cx (k.f 16 1)).overQ) ++ leBytes 2 0
        ++ leBytes 4 (s.framesOf (k.f 16 1)) ++ leBytes 4 (s.flyOf (k.f 16 1)) ++ leBytes 4 (s.spUsed (k.f 16 1))) OnlyAnswers)
  ∧ (∀ x, Does (.ctxEnable x) x 0x0102 (fun s k => 0 < k.f 16 1 ∧ k.f 16 1 ≤ 15 ∧ Fits (badQuota k) ∧ (s.cx (k.f 16 1)).state = 0
        ∧ s.quotaFits (k.f 16 1) k.quota = true) OK noResult
      (fun _ k t => (t.cx (k.f 16 1)).state = 1 ∧ (t.cx (k.f 16 1)).quota = k.quota ∧ (t.cx (k.f 16 1)).overQ = false))
  ∧ (∀ x, Does (.ctxDisable x) x 0x0103 (fun s k => 0 < k.f 16 1 ∧ k.f 16 1 ≤ 15 ∧ k.f 16 1 ≠ x.val ∧ Unended s x) OK noResult
      (fun _ k t => (t.cx (k.f 16 1)).state = 0 ∧ (t.cx (k.f 16 1)).quota = {} ∧ t.cmds (k.f 16 1) = []
        ∧ ∀ p < 2097152, t.page (k.f 16 1) p = 0))
  ∧ (∀ x, Does (.quotaSet x) x 0x0104 (fun s k => k.f 16 1 ≤ 15 ∧ Fits (badQuota k) ∧ s.quotaFits (k.f 16 1) k.quota = true) OK
      (fun _ k t => leBytes 1 (b2n (t.cx (k.f 16 1)).overQ))
      (fun _ k t => (t.cx (k.f 16 1)).quota = k.quota ∧ (t.cx (k.f 16 1)).overQ = !(t.withinQuota (k.f 16 1))))
  ∧ (∀ x, Begins (.ctxPreempt x) x 0x0105 (fun s k => 0 < k.f 16 1 ∧ k.f 16 1 ≤ 15 ∧ (s.cx (k.f 16 1)).state = 1)
      (fun s k t => (t.cx (k.f 16 1)).state = 2 ∧ ∀ c, (s.cl c).owner = k.f 16 1 → (t.cl c).core.mode = .stopped))
  ∧ (∀ s (x : Ctx) k, s.preempting x.val = some k → (∀ c, (s.cl c).owner = x.val → (s.cl c).ended_ = true) → s.sy.changes = [] →
    ∃ t, exec (.ctxPreemptComplete x) s = .next t ∧ Answers s t 0 k OK
      ∧ ∀ c, (s.cl c).owner = x.val → (t.cl c).owner = 16 ∧ (t.cl c).sp = [])
  ∧ (∀ x, Does (.ctxResume x) x 0x0106 (fun s k => k.f 16 1 ≤ 15 ∧ (s.cx (k.f 16 1)).state = 2 ∧ s.canRestore (k.f 16 1) = true) OK
      noResult (fun _ k t => (t.cx (k.f 16 1)).state = 1 ∧ (t.cx (k.f 16 1)).saved = []))
  ∧ (∀ x, Does (.powerCap x) x 0x0107 (fun _ k => 400 ≤ k.f 16 2 ∧ k.f 16 2 ≤ 1200) OK
      (fun s _ _ => leBytes 2 (bits (s.dr PW_CAP) 10 0)) (fun s k t => OnlyAnswers s k t ∧ t.dr PW_CAP = k.f 16 2))
  ∧ (∀ s k (x : Ctx), Due s x 0x0A03 k → k.f 16 1 = 2 → k.f 18 2 < 40 → (x.val = 0 ∨ bit (s.cx x.val).quota.clmask (k.f 18 2) = true) →
    ∃ t, exec (.resetCluster x) s = .next t ∧ (t.cmds x.val).length = (s.cmds x.val).length
      ∧ ∀ c : Cl, c.val = k.f 18 2 → (t.cl c).wiping = true)
  ∧ (∀ s (c : Cl), (s.cl c).wiping = true → (s.cl c).drained = true →
    ∃ t, exec (.clusterWipeComplete c) s = .next t ∧ (t.cl c).wiping = false ∧ (t.cl c).sp = [] ∧ (t.cl c).regs = []
      ∧ (t.cl c).owner = (s.cl c).owner)

/-- R490, R552, R557, R573 to R576, R598, R601. -/
def Obligations.MemoryIsCommanded : Prop :=
  (∀ x, Does (.memMap x) x 0x0201 (fun s k => 0 < k.f 40 4 ∧ s.pageAddr? (k.f 32 8) = true ∧ pagesEnd (k.f 32 8) (k.f 40 4) = true
        ∧ (∀ q ∈ upFrom (bits (k.f 32 8) 41 21) (k.f 40 4), bit (s.page x.val q) 0 = false) ∧ s.framesLeft x.val (k.f 40 4) = true
        ∧ k.f 40 4 + s.framesUsed.length ≤ 293888) OK noResult
      (fun _ k t => ∀ q ∈ upFrom (bits (k.f 32 8) 41 21) (k.f 40 4), bits (t.page x.val q) 1 0 = 3
        ∧ ∀ o < 2097152, amGet 0 t.mem.hbm (bits (t.page x.val q) 26 8 * 2097152 + o) = 0))
  ∧ (∀ x i op, (i, op) ∈ [(Instr.memMap x, 0x0201), (.memUnmap x, 0x0202)] →
      Does i x op (fun _ k => k.f 40 4 = 0) OK noResult OnlyAnswers)
  ∧ (∀ x, Does (.memUnmap x) x 0x0202 (fun s k => 0 < k.f 40 4 ∧ s.pageAddr? (k.f 32 8) = true ∧ pagesEnd (k.f 32 8) (k.f 40 4) = true
        ∧ ∀ q ∈ upFrom (bits (k.f 32 8) 41 21) (k.f 40 4), bit (s.page x.val q) 4 = false ∧ s.progPage x.val q = false
            ∧ bit (s.page x.val q) 0 = true) OK noResult
      (fun s k t => (∀ q ∈ upFrom (bits (k.f 32 8) 41 21) (k.f 40 4), t.page x.val q = 0)
        ∧ ∀ y q, (y ≠ x.val ∨ q ∉ upFrom (bits (k.f 32 8) 41 21) (k.f 40 4)) → q < 2097152 → t.page y q = s.page y q))
  ∧ (∀ x, Begins (.memCopy x) x 0x0203 (fun s k => 0 < k.f 16 8 ∧ k.f 16 8 % 8 = 0 ∧ s.cmdSpace x.val (k.f 32 8) (k.f 16 8) = true
        ∧ s.cmdSpace x.val (k.f 40 8) (k.f 16 8) = true) OnlyAnswers)
  ∧ (∀ x, Begins (.memFill x) x 0x0204 (fun s k => 0 < k.f 16 8 ∧ k.f 16 8 % 8 = 0 ∧ s.cmdSpace x.val (k.f 40 8) (k.f 16 8) = true)
      OnlyAnswers)
  ∧ (∀ s (x : Ctx) (sq : BitVec 32) host k bs q, s.findCmd x sq.toNat 0x0203 = some k →
    (needsHost (k.f 32 8) = false ∨ s.mayMaster x.val = true) → s.cmdSpace x.val (k.f 32 8) (k.f 16 8) = true →
    s.cmdSpace x.val (k.f 40 8) (k.f 16 8) = true → s.absentPage x.val (k.f 32 8) (k.f 16 8) = none →
    s.srcRead x.val (k.f 32 8) (k.f 16 8) host = .ok bs [] → gKind (k.f 40 8) = 1 →
    gOff (k.f 40 8) % 2097152 + k.f 16 8 ≤ 2097152 → s.translate x.val (gOff (k.f 40 8)) = .at_ q false →
    ∃ t, exec (.memCopyComplete x sq host none) s = .next t ∧ Answers s t x.val k OK
      ∧ Carries s t x.val k OK (leBytes 8 (k.f 16 8)) ∧ t.hbmRead q (k.f 16 8) = bs
      ∧ ∀ a, (a < q ∨ q + k.f 16 8 ≤ a) → amGet 0 t.mem.hbm a = amGet 0 s.mem.hbm a)
  ∧ (∀ s (x : Ctx) (sq : BitVec 32) k q, s.findCmd x sq.toNat 0x0204 = some k → k.f 16 8 % 8 = 0 →
    s.cmdSpace x.val (k.f 40 8) (k.f 16 8) = true → gKind (k.f 40 8) = 1 →
    gOff (k.f 40 8) % 2097152 + k.f 16 8 ≤ 2097152 → s.translate x.val (gOff (k.f 40 8)) = .at_ q false →
    ∃ t, exec (.memFillComplete x sq none) s = .next t ∧ Answers s t x.val k OK
      ∧ Carries s t x.val k OK (leBytes 8 (k.f 16 8))
      ∧ t.hbmRead q (k.f 16 8) = (List.replicate (k.f 16 8 / 8) (leBytes 8 (k.f 24 8))).flatten
      ∧ ∀ a, (a < q ∨ q + k.f 16 8 ≤ a) → amGet 0 t.mem.hbm a = amGet 0 s.mem.hbm a)
  ∧ (∀ x, Does (.hostwinGrant x) x 0x0205 (fun _ k => 0 < k.f 40 8 ∧ k.f 16 1 ≤ 7 ∧ k.f 32 8 % 4096 = 0 ∧ k.f 40 8 % 4096 = 0
        ∧ k.f 32 8 + k.f 40 8 ≤ 2 ^ 64) OK noResult
      (fun s k t => OnlyAnswers s k t ∧ (k.f 16 1, k.f 32 8, k.f 40 8) ∈ (t.cx x.val).wins))
  ∧ (∀ x, Begins (.hostwinRevoke x) x 0x0206 (fun _ k => k.f 16 1 ≤ 7)
      (fun s k t => OnlyAnswers s k t ∧ ∀ w ∈ (t.cx x.val).wins, w.1 ≠ k.f 16 1))
  ∧ (∀ s (x : Ctx) (sq : BitVec 32) k, s.findCmd x sq.toNat 0x0206 = some k → s.strayHost x.val = false →
    ∃ t, exec (.hostwinRevokeComplete x sq) s = .next t ∧ Answers s t x.val k OK ∧ OnlyAnswers s k t)
  ∧ (∀ x, Does (.bar4Map x) x 0x0207 (fun s k => 0 < k.f 16 4 ∧ k.f 32 8 % 2097152 = 0 ∧ s.pageAddr? (k.f 40 8) = true
        ∧ k.f 32 8 + k.f 16 4 * 2097152 ≤ (if x.val = 0 then 64 * 2 ^ 30 else 4 * 2 ^ 30)
        ∧ pagesEnd (k.f 40 8) (k.f 16 4) = true) OK noResult
      (fun s k t => OnlyAnswers s k t
        ∧ ∀ i < k.f 16 4, (k.f 32 8 / 2097152 + i, bits (k.f 40 8) 41 21 + i) ∈ (t.cx x.val).bar4))
  ∧ (∀ s (x : Ctx) host k id bs, Due s x 0x0301 k → 0 < k.f 16 4 → s.progHold x.val k = false → s.pageAddr? (k.f 40 8) = true →
    s.freeProg x.val = some id → s.cmdSpace x.val (k.f 32 8) (k.f 16 4) = true →
    s.absentPage x.val (k.f 32 8) (k.f 16 4) = none → pagesEnd (k.f 40 8) ((k.f 16 4 + 2097151) / 2097152) = true →
    (∀ q ∈ upFrom (bits (k.f 40 8) 41 21) ((k.f 16 4 + 2097151) / 2097152), bit (s.page x.val q) 0 = false) →
    s.framesLeft x.val ((k.f 16 4 + 2097151) / 2097152) = true → s.srcRead x.val (k.f 32 8) (k.f 16 4) host = .ok bs [] →
    ∃ t, exec (.progLoad x host) s = .next t ∧ Answers s t x.val k OK
      ∧ Carries s t x.val k OK (leBytes 2 id ++ leBytes 2 0 ++ (leBytes 32 (Config.sha3 bs).toNat).take 12)
      ∧ (⟨id, k.f 40 8, bs.length, leBytes 32 (Config.sha3 bs).toNat⟩ : Prog) ∈ (t.cx x.val).progs)
  ∧ (∀ x, Does (.progUnload x) x 0x0302 (fun s k => (∃ g, (s.cx x.val).progs.find? (fun g => g.id == k.f 16 2) = some g)
        ∧ ∀ j ∈ s.cmds x.val, j.op = 0x0401 → j.started = true → j.f 16 2 ≠ k.f 16 2) OK noResult
      (fun _ k t => ∀ g ∈ (t.cx x.val).progs, g.id ≠ k.f 16 2))

/-- R167, R247, R518, R557, R566, R577 to R581. -/
def Obligations.LaunchesAreCommanded : Prop :=
  (∀ x, Begins (.launch x) x 0x0401 (fun s k => 0 < k.f 32 8 ∧ Fits (s.badLaunch x.val k) ∧ s.launchSpace x.val k = true
        ∧ ∀ c ∈ k.mask, bit (s.cx x.val).quota.clmask c.val = true) OnlyAnswers)
  ∧ (∀ s (x : Ctx) (sq : BitVec 32) k, s.findCmd x sq.toNat 0x0401 = some k → k.running = false → s.launchBefore x.val k = false →
    s.swapDue x.val k = false → (∀ c ∈ k.mask, s.canTakeKernel x.val c = true) → s.absentPage x.val (k.f 40 8) 64 = none →
    ∃ t, exec (.launchStart x sq) s = .next t ∧ (∃ j ∈ t.cmds x.val, j.same k = true ∧ j.running = true)
      ∧ ∀ c ∈ k.mask, (t.cl c).launch = some (x.val, k.seq) ∧ (t.cl c).core.mode = .running ∧ (t.cl c).owner = x.val
          ∧ (t.cl c).r CL_VX_SEED = k.f 72 8 ∧ (t.cl c).r CL_CORE_ARG = k.f 40 8)
  ∧ (∀ s (x : Ctx) (sq : BitVec 32) k, s.findCmd x sq.toNat 0x0401 = some k → k.running = true → k.allEnded = true →
    (∀ c, (s.cl c).launch = some (x.val, k.seq) → s.kernelDone c = true) → (∀ a ∈ k.bills, s.absentPage x.val a 64 = none) →
    ∃ t, exec (.launchComplete x sq) s = .next t ∧ (t.cmds x.val).length + 1 = (s.cmds x.val).length
      ∧ (k.seq, k.exits) ∈ (t.cx x.val).doneL ∧ ∀ c, (t.cl c).launch ≠ some (x.val, k.seq))
  ∧ (∀ s (x : Ctx) (sq : BitVec 32) k d, s.findCmd x sq.toNat 0x0401 = some k → k.running = true → k.allEnded = false →
    k.deadline = some d → d ≤ s.timebase →
    ∃ t, exec (.launchTimeout x sq) s = .next t ∧ (∃ j ∈ t.cmds x.val, j.same k = true ∧ j.ended ≠ .none)
      ∧ ∀ c, (s.cl c).launch = some (x.val, k.seq) → (t.cl c).core.mode = .stopped)
  ∧ (∀ x, Does (.launchCancel x) x 0x0402 (fun s k => s.launchNamed x.val k = none) OK (fun _ _ _ => leBytes 1 0) OnlyAnswers)
  ∧ (∀ s (x : Ctx) k j, Due s x 0x0402 k → s.launchNamed x.val k = some j → j.same k = false → j.running = true → j.allEnded = false →
    ∃ t, exec (.launchCancel x) s = .next t ∧ Answers s t x.val k OK ∧ Carries s t x.val k OK (leBytes 1 1)
      ∧ (∃ y ∈ t.cmds x.val, y.same j = true ∧ y.ended ≠ .none)
      ∧ ∀ c, (s.cl c).launch = some (x.val, j.seq) → (t.cl c).core.mode = .stopped)
  ∧ (∀ s (x : Ctx) k j, Due s x 0x0402 k → s.launchNamed x.val k = some j → j.same k = false → j.started = true → j.running = false →
    ∃ t, exec (.launchCancel x) s = .next t ∧ (t.cmds x.val).length + 2 = (s.cmds x.val).length
      ∧ (j.seq, 0) ∈ (t.cx x.val).doneL ∧ t.cls = s.cls ∧ t.mem = s.mem)
  ∧ (∀ s (x : Ctx) k j, Due s x 0x0403 k → s.launchNamed x.val k = some j → j.same k = false →
    ∃ t, exec (.launchQuery x) s = .next t ∧ Answers s t x.val k OK ∧ OnlyAnswers s k t
      ∧ Carries s t x.val k OK (if j.running then leBytes 1 2 ++ leBytes 1 j.exits else leBytes 1 1))
  ∧ (∀ x, Does (.launchQuery x) x 0x0403 (fun s k => s.launchNamed x.val k = none ∧ ∀ e ∈ (s.cx x.val).doneL, e.1 ≠ k.f 16 4) OK
      (fun _ _ _ => leBytes 1 0) OnlyAnswers)
  ∧ (∀ x, Begins (.revolve x) x 0x0404 (fun s k => 0 < k.f 16 4 ∧ k.f 20 4 = s.rv.pass ∧ s.rv.reports = []
        ∧ bits (s.dr (curReg SY_CUR_CFG 15)) 54 52 ≠ 7) (fun s _ t => t.rv = s.rv ∧ t.mem = s.mem ∧ t.pages = s.pages))
  ∧ (∀ s k rep, Due s 0 0x0404 k → 0 < k.f 16 4 → k.f 20 4 = s.rv.pass →
    s.rv.reports.find? (fun r => fieldB r 4 4 == k.f 20 4) = some rep →
    ∃ t, exec (.revolve 0) s = .next t ∧ Answers s t 0 k SHARD ∧ Carries s t 0 k SHARD rep ∧ OnlyAnswers s k t)

namespace Sys2Proof.Claims

/-- The first entry of shard h in a table after a change satisfies p. -/
def ShardNow (t : State) (h : Shard) (p : Shard → Prop) : Prop := ∃ y ∈ t.wt.shards, y.same h = true ∧ p y

/-- Command k names the known shard h. -/
def Names (s : State) (x : Ctx) (k : Cmd) (h : Shard) : Prop := s.anyShard x.val (k.f 16 4) = some h

end Sys2Proof.Claims

/-- R491, R492, R496, R504, R506, R566, R582 to R584. -/
def Obligations.WeightsAreCommanded : Prop :=
  (∀ x, Begins (.wtLoad x) x 0x0501 (fun s k => (s.newShard x.val k).len ≠ 0 ∧ Fits (s.badShard k)
        ∧ s.shardExtent (s.newShard x.val k) = false ∧ s.flyDenied (s.newShard x.val k) = false
        ∧ s.shardQuota (s.newShard x.val k) = false)
      (fun s k t => ∃ y ∈ t.wt.shards, y.ctx = x.val ∧ y.id = k.f 32 4 ∧ y.len = k.f 48 4 ∧ y.state = .loading ∧ y.cmd = some k.seq
        ∧ t.rv = s.rv ∧ t.sec = s.sec))
  ∧ (∀ x, Does (.wtLoad x) x 0x0501 (fun s k => (s.newShard x.val k).len = 0 ∧ Fits (s.badShard k)) OK
      (fun _ _ _ => leBytes 4 0xFFFFFFFF) OnlyAnswers)
  ∧ (∀ x, Begins (.wtUnload x) x 0x0502 (fun s k => ∃ h, Names s x k h) OnlyAnswers)
  ∧ (∀ s (x : Ctx) k h, Due s x 0x0503 k → Names s x k h → h.state = .backed → s.wt.pageIns.length < 16 →
    s.framesLeft h.ctx h.pages = true →
    ∃ t, exec (.wtReside x) s = .next t ∧ (t.cmds x.val).length = (s.cmds x.val).length
      ∧ t.wt.pageIns = s.wt.pageIns ++ [⟨h.ctx, h.id, some k.seq, bit (k.f 20 1) 0⟩] ∧ ShardNow t h (fun y => y.state = .moving))
  ∧ (∀ s (x : Ctx) k h, Due s x 0x0503 k → Names s x k h → h.state = .resident → s.wt.pageIns.length < 16 →
    ∃ t, exec (.wtReside x) s = .next t ∧ Answers s t x.val k OK ∧ t.mem = s.mem
      ∧ (bit (k.f 20 1) 0 = true → ShardNow t h (fun y => y.pin = true)))
  ∧ (∀ s (x : Ctx) k h, Due s x 0x0504 k → Names s x k h → h.state = .resident → h.pin = false → h.writable = false →
    (h.fly.isSome || h.host.isSome) = true → h.replaces = none → s.shardRead h = false →
    ∃ t, exec (.wtDemote x) s = .next t ∧ Answers s t x.val k OK ∧ ShardNow t h (fun y => y.state = .backed ∧ y.frames = [])
      ∧ ∀ f ∈ h.frames, ∃ z ∈ t.mem.zeroing, z.frame = f)
  ∧ (∀ x i, i = Instr.wtDigest x → Does i x 0x0505 (fun s k => ∃ h, Names s x k h ∧ h.busy = false) OK noResult
      (fun s _ t => t.cls = s.cls ∧ t.mem = s.mem ∧ t.pages = s.pages ∧ t.sec = s.sec))
  ∧ (∀ s (x : Ctx) k h, Due s x 0x0506 k → Names s x k h →
    ∃ t, exec (.wtQuery x) s = .next t ∧ Answers s t x.val k OK ∧ OnlyAnswers s k t
      ∧ Carries s t x.val k OK (leBytes 1 h.stateNo ++ leBytes 1 (if h.fly.isSome then 1 else if h.host.isSome then 2 else 0)
          ++ leBytes 2 (b2n h.pin + 2 * b2n h.writable) ++ leBytes 4 (if h.state = .resident then h.pages else 0)))
  ∧ (∀ x i op, (i, op) ∈ [(Instr.wtUnload x, 0x0502), (.wtDemote x, 0x0504), (.wtDigest x, 0x0505), (.wtQuery x, 0x0506)] →
      Does i x op (fun s k => s.anyShard x.val (k.f 16 4) = none) EXTENT noResult OnlyAnswers)
  ∧ (∀ x, Does (.flyDelete x) x 0x0507 (fun s k => ∃ f, s.wt.flies.find? (fun f => f.num == k.f 16 4) = some f
        ∧ (∀ h ∈ s.wt.shards, h.fly ≠ some f.num) ∧ ∃ w ∈ (s.cx x.val).wkeys, w.ident = f.ident) OK noResult
      (fun s k t => (∀ f ∈ t.wt.flies, f.num ≠ k.f 16 4) ∧ t.wt.shards = s.wt.shards ∧ t.mem = s.mem))

namespace Sys2Proof.Claims

/-- No curtain is enabled. -/
def NoCurtain (s : State) : Prop := ∀ j < 16, bit (s.dr (curReg SY_CUR_CFG j)) 54 = false

end Sys2Proof.Claims

/-- R376, R385 to R387, R389, R391 to R393, R566, R585, R586. -/
def Obligations.CountersAreCommanded : Prop :=
  (∀ x, Does (.syMap x) x 0x0601 (fun s k => 0 < k.f 18 2 ∧ k.f 16 2 + k.f 18 2 ≤ 4096
        ∧ (∀ v ∈ upFrom (k.f 16 2) (k.f 18 2), s.vmap x.val v = none)
        ∧ (s.ctrsOf x.val).length + k.f 18 2 ≤ (s.cx x.val).quota.vctrs ∧ (s.freeCtrs (k.f 18 2)).length = k.f 18 2) OK noResult
      (fun s k t => (∀ v ∈ upFrom (k.f 16 2) (k.f 18 2), ∃ p, t.vmap x.val v = some p ∧ t.dctr p = 0)
        ∧ t.cls = s.cls ∧ t.mem = s.mem ∧ t.pages = s.pages))
  ∧ (∀ x, Does (.syUnmap x) x 0x0602 (fun s k => 0 < k.f 18 2 ∧ k.f 16 2 + k.f 18 2 ≤ 4096
        ∧ ∀ v ∈ upFrom (k.f 16 2) (k.f 18 2), (s.vmap x.val v).isSome = true) OK noResult
      (fun s k t => (∀ v ∈ upFrom (k.f 16 2) (k.f 18 2), t.vmap x.val v = none) ∧ t.mem = s.mem ∧ t.pages = s.pages))
  ∧ (∀ x, Does (.sySignal x) x 0x0603 (fun s k => k.f 24 8 < 2 ^ 48 ∧ NoCurtain s ∧ ∃ p, s.vmap x.val (k.f 16 2) = some p
        ∧ s.dctr p + k.f 24 8 < 2 ^ 48 ∧ s.devPairBroken p (s.dctr p + k.f 24 8) = false) OK noResult
      (fun s k t => ∀ p, s.vmap x.val (k.f 16 2) = some p → t.dctr p = s.dctr p + k.f 24 8))
  ∧ (∀ x, Does (.sySignal x) x 0x0603 (fun s k => k.f 24 8 < 2 ^ 48 ∧ NoCurtain s ∧ ∃ p, s.vmap x.val (k.f 16 2) = some p
        ∧ (2 ^ 48 ≤ s.dctr p + k.f 24 8 ∨ s.devPairBroken p (s.dctr p + k.f 24 8) = true)) FAULT noResult
      (fun s k t => ∀ p, s.vmap x.val (k.f 16 2) = some p → t.dctr p = s.dctr p))
  ∧ (∀ x, Does (.syWatch x) x 0x0604 (fun s k => k.f 24 8 < 2 ^ 48 ∧ (s.vmap x.val (k.f 16 2)).isSome = true
        ∧ (s.hostWatches x.val).length < 256) OK (fun s _ _ => leBytes 4 (s.cx x.val).nextWatch)
      (fun s k t => t.cls = s.cls ∧ ∀ p, s.vmap x.val (k.f 16 2) = some p → t.sy.watches = s.sy.watches
        ++ [{ ctr := p, value := k.f 24 8, scope := 1, timeout := k.f 32 2, dest := .host x.val (s.cx x.val).nextWatch, ctx := x.val }]))
  ∧ (∀ x, Does (.syWcancel x) x 0x0605 (fun _ _ => True) OK
      (fun s k _ => leBytes 1 (b2n (s.sy.watches.any (fun w => w.dest == .host x.val (k.f 16 4)))))
      (fun s k t => t.cls = s.cls ∧ t.sy.ctr = s.sy.ctr
        ∧ t.sy.watches = s.sy.watches.filter (fun w => !(w.dest == .host x.val (k.f 16 4)))))
  ∧ (∀ s (x : Ctx) k p, Due s x 0x0606 k → s.vmap x.val (k.f 16 2) = some p → k.f 16 2 ≤ 4095 →
    ∃ t, exec (.syRead x) s = .next t ∧ Answers s t x.val k OK ∧ Carries s t x.val k OK (leBytes 8 (s.dctr p)) ∧ OnlyAnswers s k t)
  ∧ (∀ x i op, (i, op) ∈ [(Instr.sySignal x, 0x0603), (.syWatch x, 0x0604), (.syRead x, 0x0606)] →
      Does i x op (fun s k => k.f 16 2 ≤ 4095 ∧ (op = 0x0606 ∨ k.f 24 8 < 2 ^ 48) ∧ s.vmap x.val (k.f 16 2) = none) DENIED noResult OnlyAnswers)
  ∧ (∀ s (x : Ctx) k p c, Due s x 0x0607 k → k.f 16 1 ≤ 15 → k.f 22 1 ≤ 1 → s.vmap x.val (k.f 18 2) = some p →
    s.vmap x.val (k.f 20 2) = some c → (k.f 22 1 = 0 ∨ s.dctr c ≤ s.dctr p) →
    ∃ t, exec (.syPair x) s = .next t ∧ Answers s t x.val k OK ∧ t.cls = s.cls ∧ t.sy = s.sy
      ∧ t.dr (SY_PAIR + 8 * (16 * x.val + k.f 16 1)) = p + c * 2 ^ 16 + k.f 22 1 * 2 ^ 32)
  ∧ (∀ s (x : Ctx) k a r, Due s x 0x0608 k → Fits (badCurtain k) → s.dr (curReg SY_CUR_CFG (k.f 16 1)) = 0 → k.f 26 1 = 2 →
    s.vmap x.val (k.f 18 2) = some a → s.vmap x.val (k.f 20 2) = some r → NoCurtain s → s.dctr a = 0 →
    ∃ t, exec (.syCurtain x) s = .next t ∧ Answers s t x.val k OK
      ∧ bits (t.dr (curReg SY_CUR_CFG (k.f 16 1))) 15 0 = a ∧ bits (t.dr (curReg SY_CUR_CFG (k.f 16 1))) 31 16 = r
      ∧ bits (t.dr (curReg SY_CUR_CFG (k.f 16 1))) 47 32 = k.f 24 2 ∧ bits (t.dr (curReg SY_CUR_CFG (k.f 16 1))) 51 48 = x.val
      ∧ bit (t.dr (curReg SY_CUR_CFG (k.f 16 1))) 54 = true)

/-- R31, R408, R415, R419, R436, R529, R566, R581, R587 to R589, R651. -/
def Obligations.TheRingIsCommanded : Prop :=
  (∀ s (x : Ctx) k d, Due s x 0x0701 k → d = sliceB k.pkt 32 32 → s.role ≠ 0 → Fits (badDesc d) → bit (s.dr LK_RV_STATUS) 2 = false →
    ∃ t, exec (.ringDesc x) s = .next t ∧ Answers s t x.val k OK ∧ bit (t.dr LK_RV_STATUS) 2 = true
      ∧ t.role = (if fieldB d 4 2 = fieldB d 6 2 then 3 else 2) ∧ t.ringN = fieldB d 0 2 ∧ t.ringPos = fieldB d 2 2
      ∧ t.chip = fieldB d 4 2 ∧ t.mgrChip = fieldB d 6 2 ∧ t.cls = s.cls ∧ t.mem = s.mem)
  ∧ (∀ s (x : Ctx) k d, Due s x 0x0701 k → d = sliceB k.pkt 32 32 → Fits (badDesc d) → (s.role = 0 ∨ bit (s.dr LK_RV_STATUS) 2 = true) →
    ∃ t, exec (.ringDesc x) s = .next t ∧ Answers s t x.val k DENIED ∧ OnlyAnswers s k t ∧ t.desc = s.desc)
  ∧ (∀ x, Does (.rtWrite x) x 0x0702 (fun _ k => 0 < k.f 18 2 ∧ k.f 16 2 + k.f 18 2 ≤ 4096
        ∧ ∀ i < k.f 18 2, k.f (32 + 4 * i) 4 < 2 ^ 21) OK noResult
      (fun s k t => OnlyAnswers s k t ∧ (∀ i < k.f 18 2, t.dr (LK_RT_ENT + 8 * (k.f 16 2 + i)) = k.f (32 + 4 * i) 4)
        ∧ ∀ c < 4096, (c < k.f 16 2 ∨ k.f 16 2 + k.f 18 2 ≤ c) → t.dr (LK_RT_ENT + 8 * c) = s.dr (LK_RT_ENT + 8 * c)))
  ∧ (∀ x, Does (.sliceBind x) x 0x0703 (fun s k => 0 < k.f 16 1 ∧ k.f 17 1 ≤ 15 ∧ k.f 18 1 ≤ 1
        ∧ (k.f 18 1 = 0 ∨ s.sliceOf (k.f 17 1) = none ∨ s.sliceOf (k.f 17 1) = some (k.f 16 1))) OK noResult
      (fun s k t => OnlyAnswers s k t ∧ t.dr (LK_SLICE_BIND + 8 * k.f 16 1) = k.f 17 1 + 16 * k.f 18 1))
  ∧ (∀ s (x : Ctx) k, Due s x 0x0704 k → k.f 16 2 ≤ 4095 → bit (s.dr (LK_RT_ENT + 8 * k.f 16 2)) 20 = true → k.f 32 2 ≠ 0x0903 →
    ∃ t, exec (.relay x) s = .next t ∧ (t.cmds x.val).length = (s.cmds x.val).length ∧ t.rv.relayN = s.rv.relayN + 1
      ∧ t.rv.relayed = s.rv.relayed ++ [{ id := s.rv.relayN % 2 ^ 32, ctx := x.val, seq := k.seq, chip := k.f 16 2
                                          until_ := s.timebase + 1000 * bits (s.dr (cxReg MG_CX_CTRL x.val)) 36 21 }])
  ∧ (∀ s (x : Ctx) k, Due s x 0x0704 k → k.f 16 2 ≤ 4095 → bit (s.dr (LK_RT_ENT + 8 * k.f 16 2)) 20 = true → k.f 32 2 = 0x0903 →
    s.rngFail = false → s.mayMaster x.val = true →
    ∃ t, exec (.relay x) s = .next t
      ∧ (Answers s t x.val k DENIED ∨ ((t.cmds x.val).length = (s.cmds x.val).length ∧ t.rv.relayN = s.rv.relayN + 1)))
  ∧ (∀ x, Does (.ringStatus x) x 0x0705 (fun _ _ => True) OK (fun s _ _ => leBytes 2 s.ringN ++ leBytes 2 s.ringPos
      ++ leBytes 4 s.rv.pass ++ leBytes 2 (b2n (bit (s.dr LK_RV_STATUS) 3) + 2 * b2n (s.role == 3)) ++ leBytes 2 s.rv.joins.length) OnlyAnswers)
  ∧ (∀ x, Does (.devStatus x) x 0x0801 (fun _ _ => True) OK (fun s _ _ => leBytes 1 s.stage ++ leBytes 1 s.role
      ++ leBytes 2 s.lcState ++ leBytes 2 (wrapInt 16 (sgn 8 (bits (s.dr PW_THERM) 7 0))) ++ leBytes 2 (bits (s.dr PW_STATUS) 31 16)
      ++ leBytes 4 293888 ++ leBytes 4 952650) OnlyAnswers)
  ∧ (∀ x, Does (.regRead x) x 0x0802 (fun s k => k.f 24 8 % 8 = 0 ∧ s.mayRead x.val (k.f 24 8) = true) OK
      (fun s k _ => leBytes 8 (s.devRead (k.f 24 8)).1.toNat) (fun s _ t => t.rv = s.rv ∧ t.sec = s.sec ∧ t.wt = s.wt))
  ∧ (∀ s (x : Ctx) k, Due s x 0x0803 k → k.f 24 8 % 8 = 0 →
    exec (.regWrite x) s = .next ((((s.modCmd x.val k (fun j => { j with started := true })).devWrite .firmware (k.f 24 8)
      (k.f 16 8))).reply x.val k OK))
  ∧ (∀ x, Does (.regWrite x) x 0x0803 (fun _ k => k.f 24 8 = MG_TB_LOAD) OK noResult
      (fun s k t => OnlyAnswers s k t ∧ t.dr MG_TB_LOAD = k.f 16 8))
  ∧ (∀ x, Does (.usPair x) x 0x0804 (fun s k => k.f 16 1 ≤ 15 ∧ k.f 18 2 ≤ 4095 ∧ k.f 20 1 ≤ 3 ∧ bit (s.dr MG_US_CTRL) 0 = false) OK noResult
      (fun s k t => t.dr MG_US_CTRL = k.f 20 1 + 4 * k.f 18 2 + 2 ^ 14 * k.f 16 1 ∧ t.mem = s.mem ∧ t.sec = s.sec))
  ∧ (∀ s (x : Ctx) k, Due s x 0x0A03 k → k.f 16 1 = 1 →
    ∃ t, exec (.resetWarm x) s = .next t ∧ t.mem = {} ∧ t.sec.lc = s.sec.lc ∧ (∀ y < 16, t.cmds y = [])
      ∧ bits (t.dr MG_SU_STATUS) 10 8 = 1 ∧ (s.debugOpen = false → Told s t x.val k OK))
  ∧ (∀ s (x : Ctx) k, Due s x 0x0A03 k → k.f 16 1 = 3 → k.f 18 2 ≤ 7 →
    ∃ t, exec (.resetLink x) s = .next t ∧ (t.cmds x.val).length = (s.cmds x.val).length ∧ t.portState (k.f 18 2) = 0
      ∧ (t.port (k.f 18 2)).offAt = some (s.timebase + 1000000) ∧ t.cls = s.cls ∧ t.mem = s.mem)
  ∧ (∀ s (p : Port) d, (s.port p.val).offAt = some d → d ≤ s.timebase →
    ∃ t, exec (.linkResetOffExpiry p) s = .next t ∧ (t.port p.val).offAt = none
      ∧ (bit (s.dr (portReg LK_PORT_CTRL p.val)) 0 = true → s.portState p.val = 0 → s.role ≠ 0 → s.err.dead = false → t.portState p.val = 1))

/-- R566, R656 to R658, R674, R676, R678, R682, R683, R691, R692. -/
def Obligations.SecurityIsCommanded : Prop :=
  (∀ x, Does (.identity x) x 0x0901 (fun _ k => 10880 ≤ k.f 16 4) OK (fun _ _ _ => leBytes 4 10880) OnlyAnswers)
  ∧ (∀ x, Does (.identity x) x 0x0901 (fun _ k => k.f 16 4 < 10880) EXTENT noResult OnlyAnswers)
  ∧ (∀ x, Does (.attest x) x 0x0902 (fun _ k => 3816 ≤ k.f 16 4) OK (fun _ _ _ => leBytes 4 3816)
      (fun s k t => OnlyAnswers s k t ∧ (s.frozen = false → t.dr SC_CNT_ATTEST = (s.dr SC_CNT_ATTEST + 1) % 2 ^ 48)))
  ∧ (∀ x, Does (.attest x) x 0x0902 (fun _ k => k.f 16 4 < 3816) EXTENT noResult OnlyAnswers)
  ∧ (∀ s (x : Ctx) k host, Due s x 0x0903 k → k.origin = none → s.mayMaster x.val = true → k.f 16 4 = 68 →
    s.inHostWin x.val (k.f 32 8) 68 = true → 68 ≤ host.length →
    ∃ t, exec (.wkeyInstall x host) s = .next t ∧ t.cls = s.cls ∧ t.mem = s.mem
      ∧ match s.unwrapHost x.val (sliceB host 0 68) with
        | none => Answers s t x.val k DENIED ∧ (t.cx x.val).wkeys = (s.cx x.val).wkeys
        | some (g, key) =>
          if g ≠ k.f 20 4 then Answers s t x.val k DENIED ∧ (t.cx x.val).wkeys = (s.cx x.val).wkeys
          else Answers s t x.val k (s.installWKey x.val g key).1
            ∧ ((s.installWKey x.val g key).1 = OK → ∃ w ∈ (t.cx x.val).wkeys, w.gen = g ∧ w.key = key)
            ∧ ((s.installWKey x.val g key).1 ≠ OK → (t.cx x.val).wkeys = (s.cx x.val).wkeys))
  ∧ (∀ s (x : Ctx) k host, Due s x 0x0904 k → s.mayMaster x.val = true → s.inHostWin 0 (k.f 32 8) (k.f 16 4) = true →
    k.f 16 4 ≤ host.length → k.f 16 4 = imgLen host + 5440 →
    ∃ t, exec (.fwUpdate x host) s = .next t ∧ t.cls = s.cls ∧ t.mem = s.mem
      ∧ match s.sec.verifyImage (host.take (k.f 16 4)) with
        | none => Answers s t x.val k OK ∧ t.sec.pend = true ∧ t.sec.tries = 0 ∧ t.sec.active = s.sec.active
            ∧ (if s.sec.active = 0 then t.sec.slotB else t.sec.slotA) = host.take (k.f 16 4)
        | some _ => Answers s t x.val k DENIED ∧ t.sec = s.sec)
  ∧ (∀ x, Does (.lcQuery x) x 0x0A01 (fun _ _ => True) OK (fun s _ _ => leBytes 1 s.sec.lc) OnlyAnswers)
  ∧ (∀ s (x : Ctx) k host, Due s x 0x0A02 k → s.rngFail = false → s.mayMaster x.val = true →
    (lcSigners s.lcState (k.f 16 1)).isSome = true → s.inHostWin x.val (k.f 32 8) (k.f 20 4) = true → k.f 20 4 ≤ host.length →
    1 ≤ fieldB host 44 4 → fieldB host 44 4 ≤ 2 → k.f 20 4 = 48 + 5376 * fieldB host 44 4 →
    ∃ t, exec (.lcChange x host) s = .next t
      ∧ match s.lcFails host (k.f 16 1) with
        | none => t.sec.lc = k.f 16 1 ∧ t.mem = {} ∧ (s.debugOpen = false → Told s t x.val k OK)
        | some _ => Answers s t x.val k DENIED ∧ t.sec.lc = s.sec.lc ∧ t.mem = s.mem)
  ∧ (∀ s (x : Ctx) k host, Due s x 0x0A02 k → s.rngFail = false → s.mayMaster x.val = true → lcSigners s.lcState (k.f 16 1) = none →
    ∃ t, exec (.lcChange x host) s = .next t ∧ Answers s t x.val k DENIED ∧ t.sec = s.sec)

namespace Sys2Proof.Claims

/-! ### The host interface (16) -/

/-- R593: what PC_LINK_STATUS shows of a rate, a width and a mode. -/
def linkWord (rate : Fin 7) (width : Fin 9) (flit : Bool) : Nat :=
  if rate.val = 0 then 0 else rate.val + 8 * width.val + 128 * b2n flit

/-- The link is up, and the clocks of the PCI Express block run. -/
def LinkServes (s : State) : Prop := s.linkIsUp = true ∧ s.pcieStopped = false

/-- A request of the host leaves what computes, and what the firmware holds, as it is. -/
def HostOnly (s t : State) : Prop :=
  t.cls = s.cls ∧ t.mem = s.mem ∧ t.pages = s.pages ∧ t.sy = s.sy ∧ t.wt = s.wt ∧ t.rv = s.rv ∧ t.us = s.us ∧ t.pw = s.pw ∧ t.boot = s.boot

end Sys2Proof.Claims

/-- R592, R593, R595, R596, R602, R605, R609, R611, R612, R696, R758. -/
def Obligations.TheHostConfigures : Prop :=
  (∀ s rate width flit, s.canTrain rate.val width.val flit = true → linkWord rate width flit ≠ bits (s.dr PC_LINK_STATUS) 7 0 →
    ∃ t, exec (.pcieLinkChange rate width flit) s = .next t ∧ HostOnly s t
      ∧ bits (t.dr PC_LINK_STATUS) 8 0 = 256 + linkWord rate width flit
      ∧ (s.frozen = false → t.dr PC_CNT_RETRAIN =
          if bits (s.dr PC_LINK_STATUS) 2 0 ≠ 0 ∧ rate.val ≠ 0 then (s.dr PC_CNT_RETRAIN + 1) % 2 ^ 48 else s.dr PC_CNT_RETRAIN))
  ∧ (∀ s (fn : Fn) off, LinkServes s → bit (s.dr PC_LINK_STATUS) 9 = false → s.fnLive fn.val = true → off % 4 = 0 → off < 4096 →
    ∃ t, exec (.configRequest fn ⟨off, none⟩) s = .next t ∧ HostOnly s t ∧ t.regs = s.regs ∧ t.pcie.cpl = 0
      ∧ t.pcie.cfg = s.pcie.cfg ∧ t.readData = word (s.cfgRead fn.val off)
      ∧ (off = 0 → t.readData = if fn.val = 0 then 0x40081F9E else 0xFFFFFFFF))
  ∧ (∀ s (fn : Fn) req, LinkServes s → req.offset % 4 = 0 → req.offset < 4096 →
    (bit (s.dr PC_LINK_STATUS) 9 = true ∨ s.fnLive fn.val = false) →
    ∃ t, exec (.configRequest fn req) s = .next t ∧ HostOnly s t ∧ t.regs = s.regs ∧ t.pcie.bme = s.pcie.bme ∧ t.pcie.cfg = s.pcie.cfg
      ∧ (if bit (s.dr PC_LINK_STATUS) 9 then t.pcie.cpl = 2 ∧ t.readData = 0xFFFF0001 else t.pcie.cpl = 1))
  ∧ (∀ s (fn : Fn) (v : BitVec 32), LinkServes s → bit (s.dr PC_LINK_STATUS) 9 = false → s.fnLive fn.val = true →
    ∃ t, exec (.configRequest fn ⟨4, some v⟩) s = .next t ∧ HostOnly s t ∧ t.regs = s.regs ∧ t.pcie.cpl = 0
      ∧ bit t.pcie.bme fn.val = bit v.toNat 2 ∧ bit t.pcie.mse fn.val = bit v.toNat 1)
  ∧ (∀ s n, s.cfgOpen = true → exec (.numvfsWrite n) s = .next (if s.pcie.vfe then s
      else { s with pcie := { s.pcie with numVfs := n.toNat } }))
  ∧ (∀ s, s.cfgOpen = true → ∃ t, exec (.vfEnableWrite true) s = .next t ∧ t.cls = s.cls ∧ t.ctx = s.ctx
      ∧ t.pcie.vfe = (s.pcie.vfe || (s.pcie.ari && s.pcie.numVfs != 0)))
  ∧ (∀ s, s.cfgOpen = true → ∃ t, exec (.vfEnableWrite false) s = .next t ∧ t.pcie.vfe = false ∧ t.vfs = []
      ∧ (s.pcie.vfe = false → t = s))
  ∧ (∀ s (fn : Fn), s.cfgOpen = true → s.fnLive fn.val = true →
    ∃ t, exec (.powerStateChange fn .d3hot) s = .next t ∧ HostOnly s t ∧ amGet DState.d0 t.pcie.dstate fn.val = .d3hot
      ∧ t.mayMaster fn.val = false ∧ t.memOn fn.val = false)
  ∧ (∀ s (fn : Fn), s.cfgOpen = true → s.fnLive fn.val = true →
    ∃ t, exec (.powerStateChange fn .d0) s = .next t ∧ HostOnly s t ∧ amGet DState.d0 t.pcie.dstate fn.val = .d0)
  ∧ (∀ s fn, s.pw.on = true → ∃ t, exec (.powerStateChange fn .d3cold) s = .next t ∧ t.pw.on = false ∧ t.mem = {} ∧ t.stage = 0
      ∧ t.sec.lc = s.sec.lc ∧ t.mb = s.mb)
  ∧ (∀ s (fn : Fn), s.cfgOpen = true → s.fnLive fn.val = true →
    ∃ t, exec (.busMasterEnable fn) s = .next t ∧ HostOnly s t ∧ t.regs = s.regs ∧ bit t.pcie.bme fn.val = true
      ∧ (t.mayMaster fn.val = true → ∀ h ∈ t.pcie.held, h.fn ≠ fn.val)
      ∧ (∀ h ∈ s.pcie.held, h.fn ≠ fn.val → h ∈ t.pcie.held))
  ∧ (∀ s (fn : Fn) (v : Fin 64), s.fnLive fn.val = true →
    ∃ t, exec (.msixUnmask fn v) s = .next t ∧ HostOnly s t ∧ t.regs = s.regs ∧ bit (t.msixEnt fn.val v.val) 96 = false
      ∧ (∀ w < 64, w ≠ v.val → t.msixEnt fn.val w = s.msixEnt fn.val w)
      ∧ if s.pcie.pba.contains (64 * fn.val + v.val) ∧ bit s.pcie.msixEn fn.val = true ∧ bit s.pcie.fmask fn.val = false
            ∧ s.mayMaster fn.val = true then
          t.pcie.sent = s.pcie.sent ++ [(fn.val, v.val)] ∧ 64 * fn.val + v.val ∉ t.pcie.pba
        else t.pcie.sent = s.pcie.sent)

/-- R597, R600, R603 to R605, R607 to R610, R648, R649. -/
def Obligations.TheHostReaches : Prop :=
  (∀ s (fn : Fn), s.fnLive fn.val = true → s.stage ≠ 0 →
    ∃ t, exec (.pcieFlr fn) s = .next t ∧ t.cmds fn.val = [] ∧ bit t.pcie.bme fn.val = false
      ∧ (∀ p ∈ t.pages, p.1 / 2097152 ≠ fn.val) ∧ (∀ h ∈ t.wt.shards, h.ctx ≠ fn.val) ∧ fn.val ∈ t.boot.flrs
      ∧ (fn.val = 0 → t.pcie.vfe = false ∧ t.pcie.numVfs = 0) ∧ t.sec = s.sec)
  ∧ (∀ s (x : Ctx), x.val ∈ s.boot.flrs →
    ∃ t, exec (.flrZeroingComplete x) s = .next t ∧ x.val ∉ t.boot.flrs ∧ t.regs = s.regs ∧ t.pages = s.pages
      ∧ ∀ z ∈ s.mem.zeroing, z.ctx = x.val → z.held = true →
          (∀ y ∈ t.mem.zeroing, y.frame ≠ z.frame)
          ∧ ∀ a, z.frame * 2097152 ≤ a → a < (z.frame + 1) * 2097152 → amGet 0 t.mem.hbm a = 0)
  ∧ (∀ s i, (∃ fn off n w, (i = Instr.bar0Access fn off n w ∧ (s.memOn fn.val = false ∨ 2 ^ 26 < off + n))
        ∨ (∃ ide v, i = .bar2Access fn off n v ide ∧ (s.memOn fn.val = false ∨ 2 ^ 24 < off + n ∨ s.ideOk fn.val ide = false))
        ∨ (∃ ide v, i = .bar4Access fn off n v ide ∧ (s.memOn fn.val = false ∨ 2 ^ 36 < off + n ∨ s.ideOk fn.val ide = false))) →
    LinkServes s → exec i s = .next { s with pcie := { s.pcie with cpl := 1 } })
  ∧ (∀ s (fn : Fn) n, LinkServes s → s.memOn fn.val = true → 2 ≤ s.stage → n < 512 →
    exec (.bar0Access fn (8 * n) 8 none) s = .next { s with pcie := { s.pcie with cpl := 0 }
                                                            readData := word (s.devValue (cxReg MG_CX_CTRL fn.val + 8 * n)) })
  ∧ (∀ s (fn : Fn) ide off bs, LinkServes s → s.memOn fn.val = true → 2 ≤ s.stage → s.ideOk fn.val ide = true →
    off + bs.length ≤ 0x100000 →
    ∃ t, exec (.bar2Access fn (fn.val * 0x100000 + off) bs.length (some bs) ide) s = .next t ∧ HostOnly s t ∧ t.regs = s.regs
      ∧ t.pcie.cpl = 0
      ∧ ∀ a, amGet 0 (t.cx fn.val).window a =
          if off ≤ a ∧ a < off + bs.length then bs.getD (a - off) 0 else amGet 0 (s.cx fn.val).window a)
  ∧ (∀ s (fn : Fn) ide off n, LinkServes s → s.memOn fn.val = true → 2 ≤ s.stage → s.ideOk fn.val ide = true → off + n ≤ 0x100000 →
    exec (.bar2Access fn (fn.val * 0x100000 + off) n none ide) s = .next { s with pcie := { s.pcie with cpl := 0 }
                                                                                  busData := amGetMany 0 (s.cx fn.val).window off n })
  ∧ (∀ s (fn : Fn) ide off e a ro, LinkServes s → s.memOn fn.val = true → 2 ≤ s.stage → s.ideOk fn.val ide = true → off % 2097152 + 8 ≤ 2097152 →
    off + 8 ≤ 2 ^ 32 → (s.cx fn.val).bar4.find? (fun e => e.1 == off / 2097152) = some e →
    s.translate fn.val (e.2 * 2097152 + off % 2097152) = .at_ a ro →
    (∃ t, exec (.bar4Access fn off 8 none ide) s = .next t ∧ t.cls = s.cls ∧ t.mem.hbm = s.mem.hbm ∧ t.pcie.cpl = 0
      ∧ t.busData = amGetMany 0 s.mem.hbm a 8)
    ∧ ∀ bs : List Byte, bs.length = 8 →
      ∃ t, exec (.bar4Access fn off 8 (some bs) ide) s = .next t ∧ t.pcie.cpl = 0 ∧ ∀ b, amGet 0 t.mem.hbm b =
        if ro = false ∧ a ≤ b ∧ b < a + 8 then bs.getD (b - a) 0 else amGet 0 s.mem.hbm b)
  ∧ (∀ s (b : Fin 16) h, s.linkIsUp = true →
    ∃ t, exec (.pcieError none (.correctable b) h) s = .next t ∧ t.cls = s.cls ∧ t.mem = s.mem ∧ bit (t.cfgGet 0 0x110) b.val = true
      ∧ (s.frozen = false → t.dr PC_CNT_CORR = (s.dr PC_CNT_CORR + 1) % 2 ^ 48))
  ∧ (∀ s (fn : Fn) h, s.linkIsUp = true → s.fnLive fn.val = true → s.cfgGet fn.val 0x104 = 0 →
    ∃ t, exec (.pcieError (some fn) .internal h) s = .next t ∧ t.cls = s.cls ∧ t.mem = s.mem
      ∧ bit (t.cfgGet fn.val 0x104) 22 = true ∧ t.cfgGet fn.val 0x11C = h.toNat ∧ t.err.total = s.err.total + 1
      ∧ (s.frozen = false → t.dr PC_CNT_UNCORR = (s.dr PC_CNT_UNCORR + 1) % 2 ^ 48))
  ∧ (∀ s (fn : Fn) c dst a n sg am, bit (s.cfgGet fn.val 0x98) 4 = false → s.mayMaster fn.val = true → (s.cl c).owner = fn.val →
    (s.cl c).core.stall = .hostRead dst a n sg am →
    ∃ t, exec (.completionTimeout fn (.core c)) s = .next t ∧ bit (t.cfgGet fn.val 0x104) 14 = true
      ∧ (t.cl c).core.stall ≠ .hostRead dst a n sg am)
  ∧ (∀ s (fn : Fn), (amGet (0, 0) s.pcie.ide fn.val).1 = 1 →
    ∃ t, exec (.ideCheckFailure fn) s = .next t ∧ (amGet (0, 0) t.pcie.ide fn.val).1 = 2
      ∧ bit (t.dr (cxReg MG_CX_CTRL fn.val)) 0 = false ∧ t.cls = s.cls ∧ t.sec = s.sec)

namespace Sys2Proof.Claims

/-- The mailbox of a function is served, and its connection is at a point. -/
def MailAt (s : State) (fn : Fn) (n : Nat) : Prop := s.doeLive fn.val = true ∧ (s.mailbox fn.val).conn = n

/-- An object is placed in the mailbox of a function for the host to read, and nothing but the mailboxes, the random source's use
and the message of the mailbox changes. -/
def Placed (s t : State) (fn : Fn) (obj : List Byte) : Prop :=
  t.busData = obj ∧ (t.mailbox fn.val).resp = obj ∧ HostOnly s t ∧ t.ctx = s.ctx ∧ t.pcie.ide = s.pcie.ide
    ∧ (∀ g : Fn, g ≠ fn → t.mailbox g.val = s.mailbox g.val)

/-- A session of an identifier, whose HMAC has or has not been verified, in the mailbox of a function that is served. -/
def InSession (s : State) (fn : Fn) (id : BitVec 32) (done : Bool) (k : SpdmSess) : Prop :=
  s.doeLive fn.val = true ∧ (s.mailbox fn.val).sess.find? (fun k => k.id == id.toNat && k.done == done) = some k

end Sys2Proof.Claims

/-- R606, R607, R666, R679, R680. The formats of objects are log entry 53. -/
def Obligations.TheMailboxAnswers : Prop :=
  (∀ s fn i, s.doeLive (fn : Fn).val = true → (i : Byte).toNat ≤ 2 →
    ∃ t, exec (.doeDiscovery fn i) s = .next t
      ∧ Placed s t fn (leBytes 2 1 ++ leBytes 1 i.toNat ++ leBytes 1 (if i.toNat = 2 then 0 else i.toNat + 1)))
  ∧ (∀ s fn i, s.doeLive (fn : Fn).val = true → 2 < (i : Byte).toNat →
    ∃ t, exec (.doeDiscovery fn i) s = .next t ∧ Placed s t fn [0xFF, 0xFF, 0, 0])
  ∧ (∀ s fn, s.doeLive (fn : Fn).val = true →
    ∃ t, exec (.getVersion fn) s = .next t ∧ Placed s t fn [0x10, 0x04, 0, 0, 0, 1, 0, 0x13] ∧ (t.mailbox fn.val).conn = 1
      ∧ (t.mailbox fn.val).sess = [])
  ∧ (∀ s fn, MailAt s fn 1 → ∃ t obj, exec (.getCapabilities fn) s = .next t ∧ Placed s t fn obj ∧ obj.take 2 = [0x13, 0x61]
      ∧ (t.mailbox fn.val).conn = 2 ∧ (t.mailbox fn.val).log = (s.mailbox fn.val).log ++ obj)
  ∧ (∀ s fn, MailAt s fn 2 → ∃ t obj, exec (.negotiateAlgorithms fn) s = .next t ∧ Placed s t fn obj ∧ obj.take 2 = [0x13, 0x63]
      ∧ (t.mailbox fn.val).conn = 3 ∧ (t.mailbox fn.val).log = (s.mailbox fn.val).log ++ obj)
  ∧ (∀ s (fn : Fn) n nonce i session pub hb, MailAt s fn n → s.rngFail = false →
    ∀ j ∈ [(Instr.getCapabilities fn, 1), (.negotiateAlgorithms fn, 2), (.challenge fn nonce, 3), (.getMeasurements fn i nonce, 3),
        (.keyExchange fn session pub hb, 3)], j.2 ≠ n →
      ∃ t, exec j.1 s = .next t ∧ Placed s t fn [0x13, 0x7F, 4, 0] ∧ (t.mailbox fn.val).conn = n)
  ∧ (∀ s fn nonce, MailAt s fn 3 → s.rngFail = false → ∃ t obj, exec (.challenge fn nonce) s = .next t ∧ obj.take 4 = [0x13, 0x03, 15, 0]
      ∧ sliceB obj 4 32 = certKeyDigest (attCert s.sec.certs) ∧ t.rngCount = s.rngCount + 1
      ∧ Placed s t fn (obj ++ s.spdmSign ((s.mailbox fn.val).log ++ leBytes 32 nonce.toNat ++ obj))
      ∧ (s.frozen = false → t.dr SC_CNT_ATTEST = (s.dr SC_CNT_ATTEST + 1) % 2 ^ 48))
  ∧ (∀ s fn i nonce, MailAt s fn 3 → s.rngFail = false → ((i : Fin 256).val < 8 ∨ i.val = 255) →
    ∃ t obj, exec (.getMeasurements fn i nonce) s = .next t ∧ obj.take 4 = [0x13, 0x60, 0, 0] ∧ fieldB obj 4 1 = (if i.val = 255 then 8 else 1)
      ∧ Placed s t fn (obj ++ s.spdmSign ((s.mailbox fn.val).log ++ leBytes 32 nonce.toNat ++ obj)) ∧ t.rngCount = s.rngCount + 1
      ∧ (s.frozen = false → t.dr SC_CNT_ATTEST = (s.dr SC_CNT_ATTEST + 1) % 2 ^ 48))
  ∧ (∀ s fn i nonce, MailAt s fn 3 → s.rngFail = false → 8 ≤ (i : Fin 256).val → i.val ≠ 255 →
    ∃ t, exec (.getMeasurements fn i nonce) s = .next t ∧ Placed s t fn [0x13, 0x7F, 1, 0] ∧ t.rngCount = s.rngCount)
  ∧ (∀ s fn c, s.doeLive (fn : Fn).val = true → ∃ t, exec (.spdmUnsupportedRequest fn c) s = .next t ∧ Placed s t fn [0x13, 0x7F, 7, c])

/-- R607, R608, R666, R679, R680, R682. The formats of objects are log entry 53, the period of the heartbeat entry 54. -/
def Obligations.SessionsAreHeld : Prop :=
  (∀ s fn session pub hb, MailAt s fn 3 → s.rngFail = false → (s.mailbox fn.val).sess.length < 4 →
    ∃ t k, exec (.keyExchange fn session pub hb) s = .next t ∧ HostOnly s t ∧ (t.mailbox fn.val).sess = (s.mailbox fn.val).sess ++ [k]
      ∧ k.id = session.toNat + 65536 * (s.mailbox fn.val).next ∧ k.done = false ∧ k.hbeat = hb ∧ k.seen = s.timebase
      ∧ t.rngCount = s.rngCount + 2 ∧ (t.mailbox fn.val).resp = t.busData ∧ fieldB t.busData 1 1 = 0x64)
  ∧ (∀ s fn session pub hb, MailAt s fn 3 → s.rngFail = false → 4 ≤ (s.mailbox fn.val).sess.length →
    ∃ t, exec (.keyExchange fn session pub hb) s = .next t ∧ Placed s t fn [0x13, 0x7F, 0x0A, 0]
      ∧ (t.mailbox fn.val).sess = (s.mailbox fn.val).sess)
  ∧ (∀ s fn id mac k, InSession s fn id false k → ∃ t, exec (.finish fn id mac) s = .next t ∧
      if mac = k.finMac then Placed s t fn [0x13, 0x65, 0, 0]
        ∧ (∃ j ∈ (t.mailbox fn.val).sess, j.id = id.toNat ∧ j.done = true ∧ j.secret = k.secret)
      else Placed s t fn [0x13, 0x7F, 6, 0] ∧ ∀ j ∈ (t.mailbox fn.val).sess, j.id ≠ id.toNat)
  ∧ (∀ s fn id both k, InSession s fn id true k → ∃ t, exec (.keyUpdate fn id both) s = .next t
      ∧ Placed s t fn [0x13, 0x69, if both then 2 else 1, 0]
      ∧ ∃ j ∈ (t.mailbox fn.val).sess, j.id = id.toNat ∧ j.reqGen = k.reqGen + 1 ∧ j.rspGen = k.rspGen + b2n both ∧ j.seen = s.timebase)
  ∧ (∀ s fn id k, InSession s fn id true k → ∃ t, exec (.heartbeat fn id) s = .next t
      ∧ Placed s t fn (if k.hbeat then [0x13, 0x68, 0, 0] else [0x13, 0x7F, 4, 0])
      ∧ ∃ j ∈ (t.mailbox fn.val).sess, j = { k with seen := s.timebase })
  ∧ (∀ s fn id key k, InSession s fn id true k → ∃ t, exec (.vendorDefinedRequest fn id key) s = .next t ∧ HostOnly s t
      ∧ t.busData = [0x13, 0x7E, 0, 0] ∧ amGet (0, 0) t.pcie.ide fn.val = (1, key) ∧ t.ideOk fn.val true = true
      ∧ t.ideOk fn.val false = false)
  ∧ (∀ s fn id k, InSession s fn id true k → ∃ t, exec (.endSession fn id) s = .next t ∧ Placed s t fn [0x13, 0x6C, 0, 0]
      ∧ ∀ j ∈ (t.mailbox fn.val).sess, j.id ≠ id.toNat)
  ∧ (∀ s (fn : Fn) (id : BitVec 32) key both, s.doeLive fn.val = true → (∀ k ∈ (s.mailbox fn.val).sess, k.id ≠ id.toNat) →
    ∀ i ∈ [Instr.finish fn id key, .keyUpdate fn id both, .heartbeat fn id, .endSession fn id, .vendorDefinedRequest fn id key],
      ∃ t, exec i s = .next t ∧ Placed s t fn [0x13, 0x7F, 2, 0] ∧ (t.mailbox fn.val).sess = (s.mailbox fn.val).sess)
  ∧ (∀ s (fn : Fn) (id : BitVec 32) k, k ∈ (s.mailbox fn.val).sess → k.id = id.toNat → k.hbeat = true → k.done = true →
    ∃ t, exec (.spdmHeartbeatTimeout fn id) s = .next t ∧ (∀ j ∈ (t.mailbox fn.val).sess, j.id ≠ id.toNat) ∧ t.busData = s.busData
      ∧ HostOnly s t ∧ t.pcie = s.pcie ∧ t.regs = s.regs)

namespace Sys2Proof.Claims

/-! ### Start-up, power, clocks and resets (17, 21) -/

/-- The device is at the start of its stages: stage 0 with a cause, memory and commands empty, what the fuses hold kept. -/
def Fresh (s t : State) (cause : Nat) : Prop :=
  t.stage = 0 ∧ bits (t.dr MG_SU_STATUS) 10 8 = cause ∧ t.mem = {} ∧ t.pages = [] ∧ (∀ y < 16, t.cmds y = [])
    ∧ t.sec.lc = s.sec.lc ∧ t.sec.floor = s.sec.floor ∧ t.sec.rootRev = s.sec.rootRev ∧ t.sec.owner = s.sec.owner

/-- The stage that the end of stage 1 leads to: 2, or 3 in the standalone role. -/
def AfterStage1 (s t : State) : Prop := t.stage = if s.role = 0 then 3 else 2

end Sys2Proof.Claims

/-- R33, R633, R634, R640, R641, R643, R644, R646, R672, R696, R700, R758. -/
def Obligations.TheStagesOfStartUp : Prop :=
  (∀ s straps v, s.pw.on = false → s.pw.isOpen = false → s.pw.shut = false →
    ∃ t, exec (.powerGood straps v) s = .next t ∧ Fresh s t 0 ∧ t.pw.on = true ∧ t.timebase = 0 ∧ t.pll = false
      ∧ t.role = (if bit straps.toNat 0 = true ∧ bit straps.toNat 1 = false then 1 else 0)
      ∧ (v = none → t.boot.fwOk = false ∧ bits (t.dr MG_SU_STATUS) 6 5 = 1 ∧ 2 ∈ t.mb.alerts)
      ∧ (s.sec.pend = false → s.sec.active = 0 → v = some .slotA →
          t.boot.fwOk = true ∧ t.sec.fwMeas = Config.sha3 (s.sec.slotHeader 0) ∧ bits (t.dr MG_SU_STATUS) 6 5 = 0))
  ∧ (∀ s b, ∃ t, exec (.inputLoss b) s = .next t ∧ t.pw.on = false ∧ t.pw.vin = false ∧ t.mem = {} ∧ t.pages = [] ∧ t.stage = 0
      ∧ t.sec.lc = s.sec.lc ∧ (if b then t.regs = [] ∧ t.err = {} ∧ t.mb = {} ∧ t.jtag = {} else t.mb = s.mb ∧ t.err.log = s.err.log))
  ∧ (∀ s, s.pw.on = true → s.pll = false →
    ∃ t, exec .pllLock s = .next t ∧ t.pll = true ∧ t.timebase = 0 ∧ bit (t.dr PW_STATUS) 0 = true ∧ t.dr PW_CLK_STATUS = pllDomains
      ∧ s.sameRegs t [PW_STATUS, PW_CLK_STATUS])
  ∧ (∀ s, s.pw.on = true → s.pll = true → s.boot.fwOk = true → s.stage = 0 →
    ∃ t, exec .stage1Enter s = .next t ∧ t.stage = 1 ∧ bit (t.dr PC_LINK_STATUS) 9 = false ∧ t.boot.kick = s.pw.uptime ∧ t.mem = s.mem
      ∧ (s.lcState ≠ 4 → ∀ st < 8, bits (t.dr (stkReg HM_STK_STATUS st)) 1 0 = 1)
      ∧ t.sec = if s.boot.fromPend then { s.sec with active := 1 - s.sec.active, pend := false, tries := 0
                                                     floor := max s.sec.floor (imgFloor s.sec.header)
                                                     rootRev := Nat.lor s.sec.rootRev (imgRevoke s.sec.header) } else s.sec)
  ∧ (∀ s (st : Stk), bits (s.dr (stkReg HM_STK_STATUS st.val)) 1 0 = 1 →
    ∃ t, exec (.hbmTrainingComplete st true) s = .next t ∧ t.stackReady st.val = true ∧ s.sameRegs t [stkReg HM_STK_STATUS st.val]
      ∧ t.mem.wiping = (s.mem.wiping || (List.range 8).all t.stackReady))
  ∧ (∀ s (st : Stk), bits (s.dr (stkReg HM_STK_STATUS st.val)) 1 0 = 1 →
    ∃ t, exec (.hbmTrainingComplete st false) s = .next t ∧ amGet 0 t.boot.trainFails st.val = amGet 0 s.boot.trainFails st.val + 1
      ∧ (if amGet 0 s.boot.trainFails st.val < 2 then t.regs = s.regs
         else bits (t.dr (stkReg HM_STK_STATUS st.val)) 1 0 = 3 ∧ bits (t.dr MG_SU_STATUS) 6 5 = 2 ∧ t.stage = s.stage))
  ∧ (∀ s, s.mem.wiping = true →
    ∃ t, exec .hbmWipeComplete s = .next t ∧ t.mem.wiping = false ∧ t.mem.hbm = [] ∧ t.mem.bad = []
      ∧ (s.stage = 1 → (List.range 8).all s.stackReady = true → s.boot.mounted = true → 0 < s.lcState → s.lcState < 4 → AfterStage1 s t)
      ∧ (s.boot.mounted = false → t.stage = s.stage))
  ∧ (∀ s, s.stage ≠ 0 → s.boot.mounted = false → s.boot.mountFails < 3 →
    ∃ t, exec (.fliesMountComplete true) s = .next t ∧ t.boot.mounted = true ∧ t.mem = s.mem
      ∧ (s.stage = 1 → (List.range 8).all s.stackReady = true → s.mem.wiping = false → 0 < s.lcState → s.lcState < 4 → AfterStage1 s t))
  ∧ (∀ s, s.stage ≠ 0 → s.boot.mounted = false → s.boot.mountFails < 3 →
    ∃ t, exec (.fliesMountComplete false) s = .next t ∧ t.boot.mountFails = s.boot.mountFails + 1 ∧ t.boot.mounted = false
      ∧ t.stage = s.stage ∧ (s.boot.mountFails = 2 → bits (t.dr MG_SU_STATUS) 6 5 = 3))
  ∧ (∀ s (n : Fin 4), s.pw.on = true → s.stage < n.val → n.val ∉ s.boot.missed → s.boot.base + stageDeadline n.val ≤ s.pw.uptime →
    ∃ t, exec (.stageDeadlineExpiry n) s = .next t ∧ n.val ∈ t.boot.missed ∧ t.stage = s.stage ∧ t.cls = s.cls ∧ t.mem = s.mem
      ∧ bits (t.dr MG_SU_STATUS) 6 5 = bits (s.dr MG_SU_STATUS) 6 5
      ∧ (n.val = 3 → s.role = 1 → bits (s.dr LK_RV_STATUS) 2 2 = 0 → bit (t.dr MG_SU_STATUS) 3 = true))
  ∧ (∀ s, s.pw.on = true → s.stage ≠ 0 → bits (s.dr MG_SU_WDOG) 31 16 ≠ 0 →
    s.boot.kick + 2000000 * bits (s.dr MG_SU_WDOG) 31 16 ≤ s.pw.uptime → ∃ t, exec .watchdogExpiry s = .next t ∧ Fresh s t 3)
  ∧ (∀ s, s.pcie.perst = true → s.pw.on = true → s.pcie.perstAt + 1000000 ≤ s.pw.uptime → s.role = 0 →
    ∃ t, exec .perstFall s = .next t ∧ Fresh s t 6 ∧ t.pcie.perst = false)
  ∧ (∀ s, s.pcie.perst = true → s.pw.on = true → s.pcie.perstAt + 1000000 ≤ s.pw.uptime → s.role ≠ 0 → s.stage ≠ 0 →
    ∃ t, exec .perstFall s = .next t ∧ (∀ y < 16, t.cmds y = []) ∧ t.stage = s.stage ∧ t.pcie = { sent := t.pcie.sent } ∧ t.sec.mail = []
      ∧ t.sec.lc = s.sec.lc ∧ (∀ p ∈ t.pages, 33554432 ≤ p.1))
  ∧ (∀ s, s.pcie.perst = true → (s.pw.on = false ∨ s.pw.uptime < s.pcie.perstAt + 1000000) →
    exec .perstFall s = .next { s with pcie := { s.pcie with perst := false, perstAt := s.pw.uptime } })
  ∧ (∀ s, s.pcie.perst = false → exec .perstRise s = .next { s with pcie := { s.pcie with perst := true, perstAt := s.pw.uptime } })

/-- R28, R29, R707, R708, R711 to R713, R715, R720, R721. How the average is rounded and when LCAP clears is log entry 59. -/
def Obligations.TheGovernorHoldsTheCap : Prop :=
  (∀ s, s.pw.on = true → s.effCap ≠ s.pw.capNow →
    ∃ t, exec .capTakesEffect s = .next t ∧ t.pw = { s.pw with capNow := s.effCap } ∧ t.cls = s.cls ∧ t.mem = s.mem)
  ∧ (∀ s vin watts ma, s.pw.on = true →
    ∃ t, exec (.powerSample vin watts ma) s = .next t ∧ HostOnly { s with pw := t.pw } t
      ∧ t.pw.samples = (watts.toNat :: s.pw.samples).take 100 ∧ t.pw.capNow = s.pw.capNow
      ∧ bits (t.dr PW_STATUS) 15 8 = vin.toNat ∧ bits (t.dr PW_STATUS) 47 32 = ma.toNat
      ∧ bits (t.dr PW_STATUS) 31 16 = t.pw.sum / t.pw.samples.length % 65536
      ∧ bits (t.dr PW_STATUS) 7 0 = bits (s.dr PW_STATUS) 7 0
      ∧ t.pw.uj = (s.pw.uj + watts.toNat) % 1000
      ∧ (s.frozen = false → t.dr PW_CNT_ENERGY = (s.dr PW_CNT_ENERGY + (s.pw.uj + watts.toNat) / 1000) % 2 ^ 48)
      ∧ t.pw.clampAt = (if s.pw.clamp then (if ma.toNat < 32000 then some (s.pw.clampAt.getD s.pw.uptime) else none) else s.pw.clampAt))
  ∧ (∀ s g n v h, s.pw.on = true → s.pw.clamp = false → g = s.dr PW_GOV_STATUS → n = s.pw.samples.length → 0 < n →
    v = bits g 6 0 → h = bits g 20 16 →
    ∃ t, exec .governorTick s = .next t ∧ HostOnly { s with pw := t.pw } t ∧ t.pw.capNow = s.pw.capNow
      ∧ (∀ w, s.thermNext v = some w → bits (t.dr PW_GOV_STATUS) 6 0 ≤ w)
      ∧ (s.pw.capNow * n < s.pw.sum → bits (t.dr PW_GOV_STATUS) 6 0 ≤ v - 1 ∧ bit (t.dr PW_GOV_STATUS) 8 = true
          ∧ bits (t.dr PW_GOV_STATUS) 20 16 = if v = 0 then max 1 (h - 1) else h)
      ∧ (bit g 9 = false → 98 * s.pw.capNow * n ≤ s.pw.sum * 100 → s.pw.sum ≤ s.pw.capNow * n →
          t.dr PW_GOV_STATUS = g)
      ∧ (bit g 9 = false → s.pw.sum * 100 < 98 * s.pw.capNow * n → h < 16 →
          bits (t.dr PW_GOV_STATUS) 6 0 = v ∧ bits (t.dr PW_GOV_STATUS) 20 16 = h + 1)
      ∧ (bit g 9 = false → s.pw.sum * 100 < 98 * s.pw.capNow * n → h = 16 →
          bits (t.dr PW_GOV_STATUS) 6 0 = (if v < bits (s.dr PW_VCTRL) 6 0 then v + 1 else v)
          ∧ (bits (s.dr PW_VCTRL) 6 0 ≤ v → bit (t.dr PW_GOV_STATUS) 8 = false)))
  ∧ (∀ s, s.pw.on = true → s.pw.clamp = false →
    ∃ t, exec .overcurrentClamp s = .next t ∧ t.pw.clamp = true ∧ t.pw.clampFrom = s.pw.uptime ∧ bits (t.dr PW_GOV_STATUS) 6 0 = 0
      ∧ bit (t.dr PW_GOV_STATUS) 11 = true ∧ bits (t.dr PW_GOV_STATUS) 20 16 = 1 ∧ t.cls = s.cls ∧ t.mem = s.mem
      ∧ (s.frozen = false → t.dr PW_CNT_OCCLAMP = (s.dr PW_CNT_OCCLAMP + 1) % 2 ^ 48))
  ∧ (∀ s n, s.pw.clamp = true → s.pw.clampAt = some n → n + 1000000 ≤ s.pw.uptime →
    ∃ t, exec .clampRelease s = .next t ∧ t.pw.clamp = false ∧ bit (t.dr PW_GOV_STATUS) 11 = false
      ∧ bits (t.dr PW_GOV_STATUS) 6 0 = bits (s.dr PW_GOV_STATUS) 6 0 ∧ t.cls = s.cls ∧ t.mem = s.mem)
  ∧ (∀ s, s.pw.clamp = true → s.pw.clampAt = none → s.pw.clampFrom + 1000000 ≤ s.pw.uptime →
    ∃ t, exec .inputSwitchOpen s = .next t ∧ t.pw.on = false ∧ t.pw.isOpen = true ∧ t.pw.tripOc = true ∧ 2 ∈ t.mb.alerts
      ∧ t.pw.opened = (s.pw.uptime :: s.pw.opened).take 3 ∧ t.mem = {} ∧ t.sec.lc = s.sec.lc)
  ∧ (∀ s, s.pw.isOpen = true → s.pw.opened.headD 0 + 1000000000 ≤ s.pw.uptime →
    exec .inputSwitchClose s = .next (if s.pw.stuckOpen then s else { s with pw := { s.pw with isOpen := false } }))

/-- R631, R643, R666, R699, R703, R704, R714 to R716, R718, R720. -/
def Obligations.SensorsAndClocks : Prop :=
  (∀ s (j : Vector Int 64) k o, s.pw.on = true → (atLimit j.toList k.toList o.toList).any s.pw.above.contains = false →
    ∃ t, exec (.sensorReading j k o) s = .next t ∧ t.pw.on = true ∧ t.pw.above = atLimit j.toList k.toList o.toList
      ∧ t.cls = s.cls ∧ t.mem = s.mem
      ∧ (∀ n : Fin 64, bits (t.dr (PW_TSENS + 8 * n.val)) 7 0 = wrapInt 8 j[n])
      ∧ (∀ n : Fin 8, bits (t.dr (stkReg HM_STK_STATUS n.val)) 9 2 = wrapInt 8 k[n]
          ∧ bit (t.dr (stkReg HM_STK_STATUS n.val)) 11 =
              (if 95 < k[n] then true else if k[n] < 92 then false else bit (s.dr (stkReg HM_STK_STATUS n.val)) 11))
      ∧ ((∃ n : Fin 64, 105 ≤ j[n]) → bit (t.dr PW_GOV_STATUS) 9 = true)
      ∧ ((∀ n : Fin 64, j[n] < 102) → bit (t.dr PW_GOV_STATUS) 9 = false)
      ∧ ((∀ n : Fin 64, j[n] < 105) → (∃ n : Fin 64, 102 ≤ j[n]) → bit (t.dr PW_GOV_STATUS) 9 = bit (s.dr PW_GOV_STATUS) 9)
      ∧ ((∃ n : Fin 8, 95 < k[n]) → bit (t.dr PW_GOV_STATUS) 10 = true))
  ∧ (∀ s j k o, s.pw.on = true → (atLimit j.toList k.toList o.toList).any s.pw.above.contains = true →
    ∃ t, exec (.sensorReading j k o) s = .next t ∧ t.pw.on = false ∧ t.pw.shut = true ∧ t.pw.tripTherm = true ∧ 2 ∈ t.mb.alerts ∧ t.mem = {})
  ∧ (∀ s (j : Vector Int 64) (k o : Vector Int 8), s.pw.shut = true → (∀ n : Fin 64, j[n] ≤ 70) → (∀ n : Fin 8, k[n] ≤ 70 ∧ o[n] ≤ 70) →
    ∃ t, exec (.thermalRestart j k o) s = .next t ∧ t.pw.shut = false ∧
      if s.pw.vin = true ∧ s.pw.vstby = true then Fresh s t 4 ∧ t.pw.on = true ∧ bit (t.dr PW_STATUS) 3 = s.pw.tripTherm
        ∧ (s.frozen = false → t.dr PW_CNT_THERMSHUT = (s.dr PW_CNT_THERMSHUT + 1) % 2 ^ 48)
      else t = { s with pw := { s.pw with shut := false } })
  ∧ (∀ s, s.pw.on = true → bit (s.dr PW_STATUS) 0 = true →
    ∃ t, exec .referenceLoss s = .next t ∧ bits (t.dr PW_STATUS) 2 0 = 6 ∧ t.pll = s.pll ∧ t.pw = s.pw ∧ t.cls = s.cls ∧ t.mem = s.mem
      ∧ (s.frozen = false → t.dr PW_CNT_REFLOSS = (s.dr PW_CNT_REFLOSS + 1) % 2 ^ 48))
  ∧ (∀ s, s.pw.on = true → bit (s.dr PW_STATUS) 1 = true →
    ∃ t, exec .referenceReturn s = .next t ∧ bits (t.dr PW_STATUS) 1 0 = 1 ∧ bit (t.dr PW_STATUS) 2 = bit (s.dr PW_STATUS) 2
      ∧ s.sameRegs t [PW_STATUS] ∧ t.cls = s.cls ∧ t.mem = s.mem)
  ∧ (∀ s (d : Fin 60), s.pw.on = true → bit (s.dr PW_STATUS) 0 = true → synthesised d.val = true → bit (s.dr PW_CLK_STATUS) d.val = true →
    ∃ t, exec (.domainLockLoss d) s = .next t ∧ t.domStopped d.val = true ∧ (∀ n, n ≠ d.val → t.domStopped n = s.domStopped n)
      ∧ bit (t.dr PW_CLK_STATUS) d.val = false ∧ bit (t.dr PW_CLK_LOST) d.val = true ∧ t.cls = s.cls ∧ t.mem = s.mem
      ∧ (s.frozen = false → t.dr PW_CNT_RELOCK = (s.dr PW_CNT_RELOCK + 1) % 2 ^ 48))
  ∧ (∀ s (d : Fin 60), s.domStopped d.val = true → d.val ∉ s.pw.dead →
    ∃ t, exec (.domainRelock d) s = .next t ∧ t.domStopped d.val = false ∧ (∀ n, n ≠ d.val → t.domStopped n = s.domStopped n)
      ∧ bit (t.dr PW_CLK_STATUS) d.val = true ∧ s.sameRegs t [PW_CLK_STATUS] ∧ t.cls = s.cls ∧ t.mem = s.mem)
  ∧ (∀ s (d : Fin 60) n, (d.val, n) ∈ s.pw.lost → n + 10000000 ≤ s.pw.uptime → d.val ∉ s.pw.dead →
    ∃ t, exec (.relockTimeout d) s = .next t ∧ d.val ∈ t.pw.dead ∧ t.pw.lost = s.pw.lost ∧ t.err.total = s.err.total + 1
      ∧ t.cls = s.cls ∧ t.mem = s.mem)
  ∧ (∀ s, ∃ t, exec .rngHealthFail s = .next t ∧ t.rngFail = true ∧ s.sameRegs t [SC_STATUS, SC_CNT_RNGFAIL] ∧ t.cls = s.cls ∧ t.mem = s.mem
      ∧ (s.frozen = false → t.dr SC_CNT_RNGFAIL = (s.dr SC_CNT_RNGFAIL + 1) % 2 ^ 48))
  ∧ (∀ s, ∃ t, exec .rngHealthRecover s = .next t ∧ t.rngFail = false ∧ s.sameRegs t [SC_STATUS] ∧ t.cls = s.cls ∧ t.mem = s.mem)

namespace Sys2Proof.Claims

/-! ### Errors, debug access and the test access port (20, 21) -/

/-- Only the port's instruction ir, and what it captures, change. -/
def PortOnly (s t : State) (ir : Nat) : Prop :=
  t = { s with jtag := t.jtag, readData := t.readData, busData := t.busData } ∧ t.jtag.ir = ir ∧ t.jtag.acc = s.jtag.acc
    ∧ t.jtag.status = s.jtag.status ∧ t.jtag.data = s.jtag.data

end Sys2Proof.Claims

/-- R722, R725 to R727, R731, R733, R735 to R737, R761. -/
def Obligations.DebugAndErrors : Prop :=
  (∀ s i m, s.err.merges[i]? = some m → m.until_ ≤ s.timebase →
    ∃ t, exec (.errorMergeExpiry i) s = .next t ∧ t.err.merges = s.err.merges.eraseIdx i ∧ t.cls = s.cls ∧ t.mem = s.mem
      ∧ if m.count = 0 then t.err.total = s.err.total ∧ t.err.log = s.err.log ∧ t.regs = s.regs
        else t.err.total = s.err.total + 1
          ∧ amGet [] t.err.log (s.err.total % 1024) = eventBytes 1 (m.ctx.getD 0) m.status (s.err.total % 2 ^ 32) m.first 0
              (leBytes 1 m.source ++ leBytes 1 m.cls ++ leBytes 2 m.cause ++ leBytes 2 m.unit ++ leBytes 2 (min m.count 65535)
                ++ leBytes 8 m.info.toNat))
  ∧ (∀ s i, exec (.networkPacketReceive i .ok) s = .next s)
  ∧ (∀ s i (c : Cl) w a as, toCl i = some c → (s.cl c).waitA = a :: as → w < a.words.length →
    ∃ t b, exec (.networkPacketReceive i (.payload .arrival w)) s = .next t ∧ (t.cl c).waitA = b :: as ∧ w ∈ b.bad ∧ b.words = a.words
      ∧ (∀ v ∈ b.bad, v = w ∨ v ∈ a.bad) ∧ (t.cl c).sp = (s.cl c).sp ∧ s.sameOthers t c ∧ t.mem = s.mem
      ∧ (s.frozen = false → t.dr (MG_EL_CNT + 80) = (s.dr (MG_EL_CNT + 80) + 1) % 2 ^ 48))
  ∧ (∀ s i (c : Cl) a as, toCl i = some c → (s.cl c).waitA = a :: as →
    ∃ t, exec (.networkPacketReceive i (.header .arrival)) s = .next t ∧ (t.cl c).waitA = as ∧ t.err.dead = true ∧ t.err.fatal = true
      ∧ 2 ∈ t.mb.alerts ∧ (∀ d, (t.cl d).core.mode = .stopped) ∧ (∀ p : Port, t.portState p.val = 0))
  ∧ (∀ s b, s.sec.token = some b → s.rngFail = false → (s.mb.busy = false ∨ s.mb.obj ≠ 2) → s.domStopped 56 = false →
    ∃ t, exec .debugTokenVerified s = .next t ∧ t.sec.token = none ∧ t.sec.nonce = Config.random s.rngCount ∧ t.rngCount = s.rngCount + 1
      ∧ bits (t.dr MG_DBG_STATUS) 3 2 = (if s.sec.tokenOk b then 1 else 2) ∧ t.debugOpen = (s.debugOpen || s.sec.tokenOk b)
      ∧ t.cls = s.cls ∧ t.mem = s.mem ∧ t.sec.lc = s.sec.lc)
  ∧ (∀ s, ∃ t, exec .jtagTrst s = .next t ∧ PortOnly s t 2 ∧ t.jtag.drive = false ∧ t.jtag.bound = s.jtag.bound)
  ∧ (∀ s d, s.pw.on = true → ∃ t, exec (.extest d) s = .next t ∧ PortOnly s t 0 ∧
      if s.stage = 0 ∨ s.debugOpen = true then t.jtag.drive = true ∧ t.jtag.bound = d
      else t.jtag.drive = false ∧ t.jtag.bound = s.jtag.bound)
  ∧ (∀ s pins pre, s.pw.on = true → ∃ t, exec (.samplePreload pins pre) s = .next t ∧ PortOnly s t 1 ∧ t.readData = pins
      ∧ t.jtag.bound = pre ∧ t.jtag.drive = false)
  ∧ (∀ s, s.pw.on = true → ∃ t, exec .idcode s = .next t ∧ PortOnly s t 2 ∧ t.readData = 0x1400813D)
  ∧ (∀ s, s.pw.on = true → ∃ t, exec .dbgStat s = .next t ∧ PortOnly s t 0x10
      ∧ bits t.readData.toNat 6 4 = s.sec.lc % 8 ∧ bit t.readData.toNat 0 = s.debugOpen ∧ bit t.readData.toNat 1 = s.sec.token.isSome)
  ∧ (∀ s, s.pw.on = true → ∃ t, exec .dbgNonce s = .next t ∧ PortOnly s t 0x11 ∧ t.busData = leBytes 32 s.sec.nonce.toNat)
  ∧ (∀ s b, s.pw.on = true → b.length = 5440 → s.sec.token = none →
    ∃ t, exec (.dbgAuth b) s = .next t ∧ t.jtag.ir = 0x12 ∧ t.regs = s.regs ∧ t.cls = s.cls
      ∧ t.sec = if s.lcState = 4 then s.sec else { s.sec with token := some b })
  ∧ (∀ s dr, s.pw.on = true → s.jtag.acc = none → (s.stage ≠ 0 ∨ s.pll = true) →
    exec (.dbgReg dr) s = .next { s with jtag := { s.jtag with ir := 0x13, drive := false, acc := some dr, status := 1 }
                                         busData := leBytes 8 s.jtag.data.toNat ++ leBytes 4 (place 28 27 s.jtag.status) })
  ∧ (∀ s dr a, s.jtag.acc = some dr → a = bits dr.toNat 89 64 * 8 → bit dr.toNat 90 = false → clBlock a = none →
    a ≠ MG_DBG_CDATA → a ≠ MG_DBG_MDATA →
    exec .dbgRegAccessDone s = .next (if s.debugOpen = true ∨ closedRead a = true then
        { s with jtag := { s.jtag with acc := none, status := 0, data := word (s.devValue a) } }
      else { s with jtag := { s.jtag with acc := none, status := 2 } }))
  ∧ (∀ s dr a, s.jtag.acc = some dr → a = bits dr.toNat 89 64 * 8 → bit dr.toNat 90 = true →
    (s.debugOpen = false ∨ (0x0E000000 ≤ a ∧ a < 0x0F000000)) →
    ∃ t, exec .dbgRegAccessDone s = .next t ∧ t.jtag = { s.jtag with acc := none, status := 2 } ∧ t.cls = s.cls
      ∧ s.sameRegs t [MG_DBG_CNT_DENIED])
  ∧ (∀ s dr, s.jtag.acc = some dr → bits dr.toNat 89 64 * 8 = MG_TB_LOAD → bit dr.toNat 90 = true → s.debugOpen = true →
    ∃ t, exec .dbgRegAccessDone s = .next t ∧ t.jtag = { s.jtag with acc := none, status := 0 }
      ∧ t.dr MG_TB_LOAD = bits dr.toNat 63 0 ∧ s.sameRegs t [MG_TB_LOAD])
  ∧ (∀ s b, s.pw.on = true → ∃ t, exec (.bypass b) s = .next t ∧ PortOnly s t 0xFF ∧ t.readData = 0 ∧ t.jtag.bypass = b)

namespace Sys2Proof.Claims

/-! ### The management bus (23) -/

/-- A read of the bus changes nothing but the data that it answers. -/
def BusRead (s t : State) (bs : List Byte) : Prop := t = { s with busData := bs }

/-- STATUS of the bus is st, and nothing else changes. -/
def StatusOnly (s t : State) (st : Nat) : Prop := t = { s with mb := { s.mb with status := st } }

end Sys2Proof.Claims

/-- R645, R670, R673, R707, R733, R760, R763 to R765. -/
def Obligations.TheBusManages : Prop :=
  (∀ s, s.pw.vstby = true → ∃ t bs, exec .ident s = .next t ∧ BusRead s t bs ∧ bs.length = 48 ∧ bs.take 8 = leBytes 8 (Config.fuse 5).toNat
      ∧ sliceB bs 8 32 = certKeyDigest idCert ∧ bs.drop 40 = leBytes 1 s.lcState ++ leBytes 1 s.stage ++ (bs.drop 42).take 1 ++ leBytes 5 0)
  ∧ (∀ s, s.pw.vstby = true → ∃ t, exec .telem s = .next t ∧ t = { s with busData := t.busData, mb := { s.mb with alerts := [] } }
      ∧ t.busData.length = 48 ∧ fieldB t.busData 0 8 = (if s.pw.on then s.dr PW_STATUS else 0)
      ∧ fieldB t.busData 16 8 = (if s.pw.on then s.dr PW_THERM else 0)
      ∧ fieldB t.busData 32 8 = s.err.total % 2 ^ 32 + 2 ^ 32 * b2n s.err.fatal)
  ∧ (∀ s, s.pw.vstby = true → ∃ t, exec .status s = .next t
      ∧ BusRead s t (leBytes 2 s.mb.status ++ leBytes 1 (b2n s.mb.busy) ++ [0]))
  ∧ (∀ s, s.pw.vstby = true → ∃ t, exec .nonce s = .next t ∧
      if s.pw.on then BusRead s t (leBytes 32 s.sec.nonce.toNat) else StatusOnly s t NOT_READY)
  ∧ (∀ s a, s.pw.vstby = true → s.pw.on = true → 1 ≤ s.stage → closedRead ((a : BitVec 32).toNat * 8) = true →
    ∃ t, exec (.regrd a) s = .next t ∧ t.busData = leBytes 8 (s.devRead (a.toNat * 8)).1.toNat ∧ t.mb = { s.mb with status := OK }
      ∧ (a.toNat * 8 ≠ MG_DBG_CDATA → a.toNat * 8 ≠ MG_DBG_MDATA →
          t = { s with busData := leBytes 8 (s.devValue (a.toNat * 8)), mb := { s.mb with status := OK } }))
  ∧ (∀ s a, s.pw.vstby = true → s.pw.on = true → 1 ≤ s.stage → closedRead ((a : BitVec 32).toNat * 8) = false →
    ∃ t, exec (.regrd a) s = .next t ∧ t = { s with busData := List.replicate 8 0, mb := { s.mb with status := DENIED } })
  ∧ (∀ s w d b o l, ∀ i ∈ [Instr.rackcap w false, .ringdesc d false, .warmrst b false, .bulkbegin b l false, .bulkdata l o false,
      .bulkend b false], exec i s = .next s)
  ∧ (∀ s w, s.pw.vstby = true → s.pw.on = true → ∃ t, exec (.rackcap w true) s = .next t ∧
      if 400 ≤ w.toNat ∧ w.toNat ≤ 1200 then t.dr PW_RACKCAP = w.toNat ∧ t.mb.status = OK ∧ s.sameRegs t [PW_RACKCAP] ∧ t.cls = s.cls
      else StatusOnly s t MALFORMED)
  ∧ (∀ s (d : BitVec 256), s.pw.vstby = true → s.pw.on = true → 1 ≤ s.stage → ∃ t, exec (.ringdesc d true) s = .next t ∧
      if s.role = 0 then StatusOnly s t DENIED
      else if (badDesc (leBytes 32 d.toNat)).any (·.1) then StatusOnly s t MALFORMED
      else if bit (s.dr LK_RV_STATUS) 2 then StatusOnly s t DENIED
      else t.mb.status = OK ∧ bit (t.dr LK_RV_STATUS) 2 = true ∧ t.ringN = bits d.toNat 15 0 ∧ t.ringPos = bits d.toNat 31 16
        ∧ t.chip = bits d.toNat 47 32 ∧ t.mgrChip = bits d.toNat 63 48 ∧ t.role = if bits d.toNat 47 32 = bits d.toNat 63 48 then 3 else 2)
  ∧ (∀ s b, s.pw.vstby = true → s.pw.on = true → ∃ t, exec (.warmrst b true) s = .next t ∧
      if b = 0x5A then Fresh s t 2 ∧ t.mb.status = OK else StatusOnly s t MALFORMED)
  ∧ (∀ s o l, s.pw.vstby = true → s.pw.on = true → (o : Byte).toNat = 2 → s.lcState ≠ 4 → (l : BitVec 32).toNat = 5440 →
    ∃ t, exec (.bulkbegin o l true) s = .next t ∧ t.mb = { s.mb with status := OK, busy := false, obj := 2, len := 5440, bulk := [] }
      ∧ t.regs = s.regs ∧ t.cls = s.cls)
  ∧ (∀ s o l, s.pw.vstby = true → s.pw.on = true → (o : Byte).toNat = 1 → bits (s.dr MG_SU_STATUS) 6 5 = 1 →
    5504 ≤ (l : BitVec 32).toNat → l.toNat ≤ 16782656 →
    ∃ t, exec (.bulkbegin o l true) s = .next t ∧ t.mb = { s.mb with status := OK, busy := false, obj := 1, len := l.toNat, bulk := [] }
      ∧ t.regs = s.regs ∧ t.cls = s.cls)
  ∧ (∀ s off data, s.pw.vstby = true → s.pw.on = true → s.mb.obj ≠ 0 → s.mb.busy = false → (data : List Byte).length ≤ 240 →
    (off : BitVec 32).toNat + data.length ≤ s.mb.len →
    ∃ t, exec (.bulkdata off data true) s = .next t ∧ t = { s with mb := { s.mb with status := OK, bulk := t.mb.bulk } }
      ∧ ∀ a, amGet 0 t.mb.bulk a =
          if off.toNat ≤ a ∧ a < off.toNat + data.length then data.getD (a - off.toNat) 0 else amGet 0 s.mb.bulk a)
  ∧ (∀ s off data, s.pw.vstby = true → s.pw.on = true → ∃ t st, exec (.bulkdata off data true) s = .next t ∧
      ((s.mb.obj = 0 ∨ s.mb.busy = true) → st = NOT_READY ∧ StatusOnly s t st)
      ∧ (s.mb.obj ≠ 0 → s.mb.busy = false → 240 < (data : List Byte).length → st = MALFORMED ∧ StatusOnly s t st)
      ∧ (s.mb.obj ≠ 0 → s.mb.busy = false → data.length ≤ 240 → s.mb.len < (off : BitVec 32).toNat + data.length →
          st = EXTENT ∧ StatusOnly s t st))
  ∧ (∀ s, s.pw.vstby = true → s.pw.on = true → s.mb.obj ≠ 0 → s.mb.busy = false → s.sec.token = none →
    ∃ t, exec (.bulkend 0x5A true) s = .next t ∧ t.mb = { s.mb with busy := true } ∧ t.cls = s.cls ∧ t.regs = s.regs
      ∧ t.sec = if s.mb.obj = 2 then { s.sec with token := some s.mb.object } else s.sec)
  ∧ (∀ s, s.mb.busy = true → s.mb.obj = 1 → s.rngFail = false → s.domStopped 56 = false →
    ∃ t, exec .bulkCheckDone s = .next t ∧ t.mb.busy = false ∧ t.mb.obj = 0 ∧ 4 ∈ t.mb.alerts ∧ t.cls = s.cls ∧ t.mem = s.mem
      ∧ match s.sec.verifyImage s.mb.object with
        | none => t.mb.status = OK ∧ t.boot.fwOk = true ∧ t.sec.recovery = s.mb.object
            ∧ t.sec.fwMeas = Config.sha3 (s.mb.object.take 64) ∧ bits (t.dr MG_SU_STATUS) 6 5 = 0
        | some _ => t.mb.status = DENIED ∧ t.boot = s.boot ∧ t.sec = s.sec)
  ∧ (∀ s b, s.mb.busy = true → s.mb.obj = 2 → s.sec.token = some b → s.rngFail = false → s.domStopped 56 = false →
    ∃ t, exec .bulkCheckDone s = .next t ∧ t.mb.busy = false ∧ t.mb.obj = 0 ∧ 4 ∈ t.mb.alerts ∧ t.sec.token = none
      ∧ t.mb.status = (if s.sec.tokenOk b then OK else DENIED) ∧ t.debugOpen = (s.debugOpen || s.sec.tokenOk b))

/-- R762, R765. The order of bytes and the values of BCR and DCR are log entry 58. -/
def Obligations.TheBusIsI3c : Prop :=
  (∀ s a, s.pw.vstby = true → ∀ i ∈ [Instr.setdasa a, .entdaa a],
    exec i s = .next { s with mb := { s.mb with i3c := true, dyn := some (s.mb.dyn.getD a.toNat) } })
  ∧ (∀ s, s.pw.vstby = true →
    exec .setaasa s = .next { s with mb := { s.mb with i3c := true, dyn := some (s.mb.dyn.getD (0x48 + bits s.boot.straps 4 2)) } })
  ∧ (∀ s, s.pw.vstby = true → ∃ t, exec .getpid s = .next t ∧ t = { s with busData := t.busData, mb := { s.mb with i3c := true } }
      ∧ t.busData.length = 6 ∧ leNat t.busData.reverse = 0x1F9E * 2 ^ 33 + 0x4008 * 2 ^ 16 + bits s.boot.straps 4 2)
  ∧ (∀ s, s.pw.vstby = true → ∃ t, exec .getbcr s = .next t ∧ t = { s with busData := [0x06], mb := { s.mb with i3c := true } })
  ∧ (∀ s, s.pw.vstby = true → ∃ t, exec .getdcr s = .next t ∧ t = { s with busData := t.busData, mb := { s.mb with i3c := true } }
      ∧ t.busData.length = 1)
  ∧ (∀ s, s.pw.vstby = true → ∃ t, exec .getstatus s = .next t ∧ t = { s with busData := t.busData, mb := { s.mb with i3c := true } }
      ∧ (t.busData = [0, 0] ↔ s.mb.alerts = []))
  ∧ (∀ s, s.pw.vstby = true → exec .rstact s = .next { s with mb := { s.mb with i3c := false, dyn := none } })
  ∧ (∀ s n ns, s.pw.vstby = true → s.mb.alerts = n :: ns →
    exec .alertResponse s = .next { s with
      busData := [BitVec.ofNat 8 (if s.mb.i3c then s.mb.dyn.getD s.busAddr else s.busAddr), BitVec.ofNat 8 n]
      mb := { s.mb with alerts := [] } })

namespace Sys2Proof.Claims

/-! ### Numbers (02) -/

/-- The rational number that a finite value stands for. -/
def Val.rat : Val → Option ℚ
  | .fin s m e => some ((if s then -1 else 1) * (m : ℚ) * (2 : ℚ) ^ e)
  | _ => none

/-- The sign, exponent field and mantissa field of a code of a floating layout. -/
def signOf (f : FloatFmt) (w : Nat) : ℚ := if w / 2 ^ (f.mb + f.eb) % 2 = 1 then -1 else 1
def expOf (f : FloatFmt) (w : Nat) : Nat := w / 2 ^ f.mb % 2 ^ f.eb
def manOf (f : FloatFmt) (w : Nat) : Nat := w % 2 ^ f.mb

/-- R50: the codes that are NaN or an infinity. -/
def Special (f : FloatFmt) (w : Nat) : Prop :=
  expOf f w = 2 ^ f.eb - 1 ∧ (f.top = .ieee ∨ (f.top = .e4m3 ∧ manOf f w = 2 ^ f.mb - 1))

end Sys2Proof.Claims

/-- R51, R56. -/
def Obligations.EveryCodeHasItsValue : Prop :=
  (∀ f ff w, Fmt.kind f = .float ff → ¬ Special ff w →
    Val.rat (f.decode w) = some (if expOf ff w = 0 then signOf ff w * manOf ff w * (2 : ℚ) ^ ((1 : Int) - ff.bias - ff.mb)
      else signOf ff w * (2 ^ ff.mb + manOf ff w : Nat) * (2 : ℚ) ^ ((expOf ff w : Int) - ff.bias - ff.mb)))
  ∧ (∀ f ff w r, Fmt.kind f = .float ff → ¬ Special ff w → Val.rat (f.decode w) = some r → manOf ff w ≠ 0 → r ≠ 0)
  ∧ (∀ f n k w, Fmt.kind f = .int n k → w < 2 ^ n →
    Val.rat (f.decode w) = some (((if w < 2 ^ (n - 1) then (w : Int) else (w : Int) - 2 ^ n : Int) : ℚ) * (2 : ℚ) ^ (-(k : Int))))

namespace Sys2Proof.Claims

/-- The integer of a sign and a magnitude. -/
def signedInt (neg : Bool) (n : Nat) : Int := if neg then -(n : Int) else n

/-- The integer number of units of 2^q nearest to a rational, ties to even. -/
def nearestEven (r : ℚ) : Int :=
  if r - ⌊r⌋ < 1 / 2 then ⌊r⌋ else if r - ⌊r⌋ > 1 / 2 then ⌊r⌋ + 1 else if ⌊r⌋ % 2 = 0 then ⌊r⌋ else ⌊r⌋ + 1

end Sys2Proof.Claims

/-- R77, R78, R82. -/
def Obligations.RoundingFollowsItsMode : Prop :=
  (∀ (neg : Bool) m e q (v : ℚ), v = signedInt neg m * (2 : ℚ) ^ (e - q : Int) → signedInt neg (roundUnits .nearest neg m e q) = nearestEven v)
  ∧ (∀ (neg : Bool) m e q (w : BitVec 32) (v : ℚ), v = signedInt neg m * (2 : ℚ) ^ (e - q : Int) →
    signedInt neg (roundUnits (.stoch w) neg m e q)
      = if (2 : Int) ^ 32 ≤ ⌊(v - ⌊v⌋) * 2 ^ 32⌋ + w.toNat then ⌊v⌋ + 1 else ⌊v⌋)
  ∧ (∀ (neg : Bool) m e q (w : BitVec 32) (n : Int), (n : ℚ) = signedInt neg m * (2 : ℚ) ^ (e - q : Int) →
    signedInt neg (roundUnits (.stoch w) neg m e q) = n)

/-- R65, R66. -/
def Obligations.ProductsAndEntries : Prop :=
  (∀ (g : Gauge) p (r : ℚ) (pu lim : Int), g.mode = false → g.h ≤ 31 → Val.rat p = some r → pu = ⌊r * (2 : ℚ) ^ (64 - g.g : Int)⌋ →
    lim = 2 ^ (95 - g.h) - 1 →
    gaugeProduct g p = (if lim < pu then (lim, false, true) else if pu < -lim then (-lim, false, true) else (pu, false, false)))
  ∧ (∀ (g : Gauge) e ps (x : Int), g.mode = false → x = e.a + (ps.map (fun p => (gaugeProduct g p).1)).sum →
    (accStep g e ps).a = max (-(2 ^ 95 - 1)) (min (2 ^ 95 - 1) x)
    ∧ (accStep g e ps).sat = (e.sat || decide (2 ^ 95 - 1 < x) || decide (x < -(2 ^ 95 - 1)))
    ∧ (accStep g e ps).range = (e.range || ps.any (fun p => (gaugeProduct g p).2.2))
    ∧ (accStep g e ps).nan = (e.nan || ps.any (fun p => (gaugeProduct g p).2.1)))

namespace Sys2Proof.Claims

/-- How the products of one sum are added: steps into one entry, one after another, or a partial sum added into another. -/
inductive SumTree
  | steps (ss : List (List Val))
  | join (a b : SumTree)

/-- The entry that a way of adding gives from cleared entries, partial sums being added with their flags (R66, R70). -/
def SumTree.entry (g : Gauge) : SumTree → AccEnt
  | .steps ss => ss.foldl (accStep g) {}
  | .join a b => accAdd (a.entry g) (b.entry g).a (b.entry g).nan (b.entry g).range (b.entry g).sat

/-- Every product of the sum. -/
def SumTree.products : SumTree → List Val
  | .steps ss => ss.flatten
  | .join a b => a.products ++ b.products

end Sys2Proof.Claims

/-- R69. -/
def Obligations.GaugedSumsHaveNoOrder : Prop :=
  (∀ (g : Gauge) (t : SumTree), g.mode = false → g.h ≤ 31 → t.products.length ≤ 2 ^ g.h →
    t.entry g = ⟨(t.products.map (fun p => (gaugeProduct g p).1)).sum, t.products.any (fun p => (gaugeProduct g p).2.1),
      t.products.any (fun p => (gaugeProduct g p).2.2), false⟩)
  ∧ (∀ (g : Gauge) (t u : SumTree), g.mode = false → g.h ≤ 31 → t.products.length ≤ 2 ^ g.h → t.products.Perm u.products →
    t.entry g = u.entry g)
  ∧ (∃ (g : Gauge) (t : SumTree), g.mode = false ∧ g.h ≤ 31 ∧ 2 ^ g.h < t.products.length ∧ (t.entry g).sat = true)

namespace Sys2Proof.Claims

/-! ### Frames on the wire (12) -/

/-- R448: the bytes of a frame: type byte, flags, length, SEQ, ACK, a zero byte, the type fields and the payload. -/
def wire (f : Frame) : List Byte :=
  leBytes 1 (f.ty + 8 * f.vc + 32 * b2n f.cmp + 64 * b2n f.bfirst + 128 * b2n f.blast)
    ++ leBytes 1 (f.keyid + 2 * f.dir + 4 * b2n f.xend) ++ leBytes 2 f.data.length ++ leBytes 6 f.seq ++ leBytes 3 f.ack ++ leBytes 1 0
    ++ leBytes 14 f.tf ++ f.data

end Sys2Proof.Claims

/-- R448 to R451. -/
def Obligations.FramesAreReadWhole : Prop :=
  ∀ f : Frame, f.ty < 8 → f.vc < 4 → f.keyid < 2 → f.dir < 2 → f.seq < 2 ^ 48 → f.ack < 2 ^ 24 → f.tf < 2 ^ 112 → f.data.length ≤ 464 →
    f.stomp = false → frameOf (wire f) = f

namespace Sys2Proof.Claims

/-! ### The whole machine -/

end Sys2Proof.Claims

/-- R8, R439, R700. The step on an empty queue is log entry 1. -/
def Obligations.StepsTakeTheFront : Prop :=
  (∀ (s : State) c rest, s.pending = c :: rest → step s = exec c { s with pending := rest })
  ∧ (∀ s, s.pending = [] → ∃ t, step s = .next t ∧ t.pending = [] ∧ t.pw.uptime = s.pw.uptime + 1
      ∧ t.timebase = (if s.pw.on = true ∧ s.pll = true ∧ s.domStopped 54 = false then s.timebase + 1 else s.timebase)
      ∧ t.cls = s.cls ∧ t.mem = s.mem ∧ t.ctx = s.ctx ∧ t.sec = s.sec ∧ t.pcie = s.pcie ∧ t.ports = s.ports)

namespace Sys2Proof.Claims

/-- The fuses hold a legal life-cycle state, and an owner only from Owned on. -/
def FusesLegal (s : State) : Prop := s.lcLegal = true ∧ (s.sec.owner.isSome = true → 2 ≤ s.sec.lc)

end Sys2Proof.Claims

/-- R9, R15, R568, R637, R656. The fuses are log entry 14. -/
def Obligations.ResetIsLegal : Prop :=
  State.reset.pending = [] ∧ State.reset.pw.on = false ∧ State.reset.stage = 0 ∧ State.reset.timebase = 0
  ∧ (∀ a, State.reset.dr a = (word (devReset a)).toNat) ∧ (∀ c a, State.reset.cr c a = (word (clReset a)).toNat)
  ∧ (∀ x p, State.reset.page x p = 0) ∧ (∀ c, (State.reset.cl c).core.mode = .stopped ∧ (State.reset.cl c).sp = [])
  ∧ State.reset.mem = {} ∧ (∀ y < 16, State.reset.cmds y = []) ∧ Memory.wf State.reset = true ∧ FusesLegal State.reset

/-- R3, R263, R289, R354, R384. -/
def Obligations.MemoryStaysCanonical : Prop := ∀ s t, Memory.wf s = true → step s = .next t → Memory.wf t = true

/-- R656 to R658, R662, R672. -/
def Obligations.FusesOnlyBurn : Prop :=
  (∀ s t, FusesLegal s → step s = .next t →
    FusesLegal t ∧ s.sec.lc ≤ t.sec.lc ∧ s.sec.floor ≤ t.sec.floor
    ∧ (∀ n, bit s.sec.rootRev n = true → bit t.sec.rootRev n = true)
    ∧ (∀ d, s.sec.owner = some d → t.sec.owner = some d))
  ∧ (∀ c s t, exec c s = .next t → t.sec.lc ≠ s.sec.lc → ∃ x host, c = .lcChange x host)

/-- R25, R289, R616. -/
def Obligations.EveryCommandCompletes : Prop :=
  (∀ c s, (∃ t, exec c s = .next t ∧ t.pending = s.pending)
    ∨ ∃ sl req, c = .sharedCacheAccess sl req ∧ hbmBytes ≤ req.addr ∧ exec c s = .fault .noSuchAddress)
  ∧ (∀ s sl req, hbmBytes ≤ req.addr → exec (.sharedCacheAccess sl req) s = .fault .noSuchAddress)
end

