-- ==== Sys2Proof/Laws/Assoc.lean ====
section
/-! SUPPORT. Sys2Proof/Laws/Assoc.lean: the ordered association lists that hold every sparse store: what a read gives after
a write, and that every operation keeps the canonical form. -/

namespace Sys2Proof.Machine

variable {α : Type}

/-! ### What a read gives after a write -/

@[simp] theorem amGet_nil (d : α) (k : Nat) : amGet d [] k = d := rfl

theorem amGet_amDel (d : α) (m : List (Nat × α)) (j k : Nat) :
    amGet d (amDel m j) k = if k = j then d else amGet d m k := by
  induction m with
  | nil => simp [amDel, amGet]
  | cons p t ih => obtain ⟨i, u⟩ := p; simp only [amDel]; split <;> simp only [amGet] <;> grind

theorem amGet_amIns (d : α) (m : List (Nat × α)) (j : Nat) (v : α) (k : Nat) :
    amGet d (amIns m j v) k = if k = j then v else amGet d m k := by
  induction m with
  | nil => simp only [amIns, amGet]; grind
  | cons p t ih => obtain ⟨i, u⟩ := p; simp only [amIns]; split <;> simp only [amGet] <;> grind [amGet]

/-- A read after a write of one key: the value written at that key, and what was there before at any other. -/
theorem amGet_amSet [DecidableEq α] (d : α) (m : List (Nat × α)) (j : Nat) (v : α) (k : Nat) :
    amGet d (amSet d m j v) k = if k = j then v else amGet d m k := by
  unfold amSet; split <;> simp only [amGet_amDel, amGet_amIns]; split <;> simp_all

@[simp] theorem amGet_amSet_same [DecidableEq α] (d : α) (m : List (Nat × α)) (k : Nat) (v : α) :
    amGet d (amSet d m k v) k = v := by simp [amGet_amSet]

theorem amGet_amSet_other [DecidableEq α] (d : α) (m : List (Nat × α)) (j k : Nat) (v : α) (h : k ≠ j) :
    amGet d (amSet d m j v) k = amGet d m k := by simp [amGet_amSet, h]

/-- Where the value that unlisted keys read as differs from key to key, as with registers' reset values: a write at j
leaves key k alone, whichever default the write was made under. -/
theorem amGet_default_other [DecidableEq α] (d e : α) (m : List (Nat × α)) (j k : Nat) (v : α) (h : k ≠ j) :
    amGet e (amSet d m j v) k = amGet e m k := by
  unfold amSet; split
  · induction m with
    | nil => rfl
    | cons p t ih => obtain ⟨i, u⟩ := p; simp only [amDel]; split <;> simp only [amGet] <;> grind
  · simp [amGet_amIns, h]

/-- A read after a write of several consecutive keys. -/
theorem amGet_amSetMany [DecidableEq α] (d : α) (vs : List α) (m : List (Nat × α)) (a k : Nat) :
    amGet d (amSetMany d m a vs) k = if a ≤ k then (vs[k - a]?).getD (amGet d m k) else amGet d m k := by
  induction vs generalizing m a with
  | nil => simp [amSetMany]
  | cons v t ih =>
    rw [amSetMany, ih, amGet_amSet]
    rcases Nat.lt_trichotomy k a with h | rfl | h
    · simp [show ¬ a + 1 ≤ k by omega, show ¬ a ≤ k by omega, show k ≠ a by omega]
    · simp
    · have hk : k - a = (k - (a + 1)) + 1 := by omega
      simp [show a + 1 ≤ k by omega, show a ≤ k by omega, show k ≠ a by omega, hk]

/-- A write of several keys leaves every key outside them alone. -/
theorem amGet_amSetMany_outside [DecidableEq α] (d : α) (vs : List α) (m : List (Nat × α)) (a k : Nat)
    (h : k < a ∨ a + vs.length ≤ k) : amGet d (amSetMany d m a vs) k = amGet d m k := by
  rw [amGet_amSetMany]
  split
  · rw [List.getElem?_eq_none (by omega)]; rfl
  · rfl

/-- Reading back what was written. -/
theorem amGetMany_amSetMany [DecidableEq α] (d : α) (vs : List α) (m : List (Nat × α)) (a : Nat) :
    amGetMany d (amSetMany d m a vs) a vs.length = vs := by
  have key : ∀ (l : List α) (pre : List α) (b : Nat), vs = pre ++ l → b = a + pre.length →
      (upFrom b l.length).map (amGet d (amSetMany d m a vs)) = l := by
    intro l
    induction l with
    | nil => intros; rfl
    | cons v t ih =>
      intro pre b hv hb
      rw [List.length_cons, upFrom, List.map_cons, ih (pre ++ [v]) (b + 1) (by simp [hv]) (by simp [hb]; omega),
        amGet_amSetMany, if_pos (by omega), show b - a = pre.length by omega]
      simp [hv]
  exact key vs [] a rfl rfl

/-! ### The canonical form -/

/-- Every key of m is above k. -/
def amAbove (k : Nat) (m : List (Nat × α)) : Prop := ∀ p ∈ m, k < p.1

theorem amSorted_cons (p : Nat × α) (m : List (Nat × α)) :
    amSorted (p :: m) = true ↔ amAbove p.1 m ∧ amSorted m = true := by
  induction m generalizing p with
  | nil => simp [amSorted, amAbove]
  | cons q t ih =>
    obtain ⟨i, u⟩ := p; obtain ⟨j, v⟩ := q
    simp only [amSorted, Bool.and_eq_true, decide_eq_true_eq]
    constructor
    · rintro ⟨h, hs⟩
      refine ⟨?_, hs⟩
      intro r hr
      rcases List.mem_cons.mp hr with rfl | hr
      · exact h
      · exact Nat.lt_trans h ((ih (j, v)).mp hs |>.1 r hr)
    · rintro ⟨h, hs⟩; exact ⟨h (j, v) (by simp), hs⟩

theorem mem_amDel (m : List (Nat × α)) (k : Nat) (p : Nat × α) (h : p ∈ amDel m k) : p ∈ m := by
  induction m with
  | nil => simp [amDel] at h
  | cons q t ih => obtain ⟨i, u⟩ := q; simp only [amDel] at h; split at h <;> grind

theorem mem_amIns (m : List (Nat × α)) (k : Nat) (v : α) (p : Nat × α) (h : p ∈ amIns m k v) : p = (k, v) ∨ p ∈ m := by
  induction m with
  | nil => simp [amIns] at h; exact .inl h
  | cons q t ih => obtain ⟨i, u⟩ := q; simp only [amIns] at h; split at h <;> grind

theorem amSorted_amDel (m : List (Nat × α)) (k : Nat) (h : amSorted m = true) : amSorted (amDel m k) = true := by
  induction m with
  | nil => rfl
  | cons q t ih =>
    obtain ⟨i, u⟩ := q
    have ⟨ha, hs⟩ := (amSorted_cons _ _).mp h
    simp only [amDel]; split
    · exact ih hs
    · exact (amSorted_cons _ _).mpr ⟨fun p hp => ha p (mem_amDel t k p hp), ih hs⟩

theorem amSorted_amIns (m : List (Nat × α)) (k : Nat) (v : α) (h : amSorted m = true) : amSorted (amIns m k v) = true := by
  induction m with
  | nil => rfl
  | cons q t ih =>
    obtain ⟨i, u⟩ := q
    have ⟨ha, hs⟩ := (amSorted_cons _ _).mp h
    simp only [amIns]; split
    · rename_i hk
      refine (amSorted_cons _ _).mpr ⟨?_, h⟩
      intro p hp
      rcases List.mem_cons.mp hp with rfl | hp
      · exact hk
      · exact Nat.lt_trans hk (ha p hp)
    · split
      · rename_i hk; subst hk; exact (amSorted_cons _ _).mpr ⟨ha, hs⟩
      · refine (amSorted_cons _ _).mpr ⟨?_, ih hs⟩
        intro p hp
        rcases mem_amIns t k v p hp with rfl | hp
        · show i < k; omega
        · exact ha p hp

theorem amWf_iff [DecidableEq α] (d : α) (m : List (Nat × α)) :
    amWf d m = true ↔ amSorted m = true ∧ ∀ p ∈ m, p.2 ≠ d := by
  simp [amWf, List.all_eq_true]

@[simp] theorem amWf_nil [DecidableEq α] (d : α) : amWf d [] = true := rfl

/-- A write keeps the canonical form. -/
theorem amWf_amSet [DecidableEq α] (d : α) (m : List (Nat × α)) (k : Nat) (v : α) (h : amWf d m = true) :
    amWf d (amSet d m k v) = true := by
  obtain ⟨hs, hd⟩ := (amWf_iff d m).mp h
  unfold amSet; split
  · exact (amWf_iff _ _).mpr ⟨amSorted_amDel m k hs, fun p hp => hd p (mem_amDel m k p hp)⟩
  · rename_i hv
    refine (amWf_iff _ _).mpr ⟨amSorted_amIns m k v hs, fun p hp => ?_⟩
    rcases mem_amIns m k v p hp with rfl | hp
    · exact hv
    · exact hd p hp

/-- A write of several keys keeps the canonical form. -/
theorem amWf_amSetMany [DecidableEq α] (d : α) (vs : List α) (m : List (Nat × α)) (a : Nat) (h : amWf d m = true) :
    amWf d (amSetMany d m a vs) = true := by
  induction vs generalizing m a with
  | nil => exact h
  | cons v t ih => exact ih _ _ (amWf_amSet d m a v h)

theorem amSorted_filter (m : List (Nat × α)) (p : Nat × α → Bool) (h : amSorted m = true) :
    amSorted (m.filter p) = true := by
  induction m with
  | nil => rfl
  | cons q t ih =>
    have ⟨ha, hs⟩ := (amSorted_cons _ _).mp h
    rw [List.filter_cons]; split
    · exact (amSorted_cons _ _).mpr ⟨fun r hr => ha r (List.mem_filter.mp hr).1, ih hs⟩
    · exact ih hs

/-- Removing a range of keys keeps the canonical form. -/
theorem amWf_amErase [DecidableEq α] (d : α) (m : List (Nat × α)) (lo hi : Nat) (h : amWf d m = true) :
    amWf d (amErase m lo hi) = true := by
  obtain ⟨hs, hd⟩ := (amWf_iff d m).mp h
  exact (amWf_iff _ _).mpr ⟨amSorted_filter m _ hs, fun p hp => hd p (List.mem_filter.mp hp).1⟩

/-- Equal reads mean equal stores in canonical form. -/
theorem amWf_ext [DecidableEq α] (d : α) (m n : List (Nat × α)) (hm : amWf d m = true) (hn : amWf d n = true)
    (h : ∀ k, amGet d m k = amGet d n k) : m = n := by
  have above : ∀ (l : List (Nat × α)) (k : Nat), amAbove k l → amGet d l k = d := by
    intro l k hl
    induction l with
    | nil => rfl
    | cons q t ih =>
      obtain ⟨i, u⟩ := q
      have := hl (i, u) (by simp)
      rw [amGet, if_neg (by simp at this; omega), ih (fun p hp => hl p (by simp [hp]))]
  induction m generalizing n with
  | nil =>
    cases n with
    | nil => rfl
    | cons q t =>
      have := h q.1
      obtain ⟨_, hd⟩ := (amWf_iff d _).mp hn
      simp [amGet] at this
      exact absurd this.symm (hd q (by simp))
  | cons p t ih =>
    obtain ⟨hs, hd⟩ := (amWf_iff d _).mp hm
    obtain ⟨ha, hs'⟩ := (amSorted_cons _ _).mp hs
    cases n with
    | nil =>
      have := h p.1
      simp [amGet] at this
      exact absurd this (hd p (by simp))
    | cons q u =>
      obtain ⟨ht, he⟩ := (amWf_iff d _).mp hn
      obtain ⟨hb, ht'⟩ := (amSorted_cons _ _).mp ht
      obtain ⟨i, v⟩ := p; obtain ⟨j, w⟩ := q
      have hij : i = j := by
        rcases Nat.lt_trichotomy i j with hlt | he' | hgt
        · have := h i
          rw [amGet, if_pos rfl, amGet, if_neg (by omega), above u i (fun r hr => Nat.lt_trans hlt (hb r hr))] at this
          exact absurd this (hd (i, v) (by simp))
        · exact he'
        · have := h j
          rw [amGet, if_neg (by omega), above t j (fun r hr => Nat.lt_trans hgt (ha r hr)), amGet, if_pos rfl] at this
          exact absurd this.symm (he (j, w) (by simp))
      subst hij
      have hv : v = w := by have := h i; simpa [amGet] using this
      subst hv
      congr 1
      refine ih u ((amWf_iff _ _).mpr ⟨hs', fun r hr => hd r (by simp [hr])⟩)
        ((amWf_iff _ _).mpr ⟨ht', fun r hr => he r (by simp [hr])⟩) (fun k => ?_)
      by_cases hk : i = k
      · subst hk; rw [above t i ha, above u i hb]
      · have := h k; simpa [amGet, hk] using this

end Sys2Proof.Machine
end

