-- ==== Sys2Proof/Laws/State.lean ====
section
/-! SUPPORT. Sys2Proof/Laws/State.lean: what each basic update of the state leaves alone, one lemma a field, and what it
makes of the part it changes. -/

namespace Sys2Proof.Machine

/-! A change of one cluster leaves every other part alone. -/

@[simp] theorem State.mod_pending (s : State) (c : Cl) (f : Cluster → Cluster) : (s.mod c f).pending = s.pending := rfl
@[simp] theorem State.mod_sy (s : State) (c : Cl) (f : Cluster → Cluster) : (s.mod c f).sy = s.sy := rfl
@[simp] theorem State.mod_mem (s : State) (c : Cl) (f : Cluster → Cluster) : (s.mod c f).mem = s.mem := rfl
@[simp] theorem State.mod_pages (s : State) (c : Cl) (f : Cluster → Cluster) : (s.mod c f).pages = s.pages := rfl
@[simp] theorem State.mod_ctx (s : State) (c : Cl) (f : Cluster → Cluster) : (s.mod c f).ctx = s.ctx := rfl
@[simp] theorem State.mod_err (s : State) (c : Cl) (f : Cluster → Cluster) : (s.mod c f).err = s.err := rfl
@[simp] theorem State.mod_pcie (s : State) (c : Cl) (f : Cluster → Cluster) : (s.mod c f).pcie = s.pcie := rfl
@[simp] theorem State.mod_ports (s : State) (c : Cl) (f : Cluster → Cluster) : (s.mod c f).ports = s.ports := rfl
@[simp] theorem State.mod_links (s : State) (c : Cl) (f : Cluster → Cluster) : (s.mod c f).links = s.links := rfl
@[simp] theorem State.mod_rv (s : State) (c : Cl) (f : Cluster → Cluster) : (s.mod c f).rv = s.rv := rfl
@[simp] theorem State.mod_us (s : State) (c : Cl) (f : Cluster → Cluster) : (s.mod c f).us = s.us := rfl
@[simp] theorem State.mod_wt (s : State) (c : Cl) (f : Cluster → Cluster) : (s.mod c f).wt = s.wt := rfl
@[simp] theorem State.mod_sec (s : State) (c : Cl) (f : Cluster → Cluster) : (s.mod c f).sec = s.sec := rfl
@[simp] theorem State.mod_pw (s : State) (c : Cl) (f : Cluster → Cluster) : (s.mod c f).pw = s.pw := rfl
@[simp] theorem State.mod_boot (s : State) (c : Cl) (f : Cluster → Cluster) : (s.mod c f).boot = s.boot := rfl
@[simp] theorem State.mod_jtag (s : State) (c : Cl) (f : Cluster → Cluster) : (s.mod c f).jtag = s.jtag := rfl
@[simp] theorem State.mod_mb (s : State) (c : Cl) (f : Cluster → Cluster) : (s.mod c f).mb = s.mb := rfl
@[simp] theorem State.mod_regs (s : State) (c : Cl) (f : Cluster → Cluster) : (s.mod c f).regs = s.regs := rfl
@[simp] theorem State.mod_timebase (s : State) (c : Cl) (f : Cluster → Cluster) : (s.mod c f).timebase = s.timebase := rfl
@[simp] theorem State.mod_pll (s : State) (c : Cl) (f : Cluster → Cluster) : (s.mod c f).pll = s.pll := rfl
@[simp] theorem State.mod_readData (s : State) (c : Cl) (f : Cluster → Cluster) : (s.mod c f).readData = s.readData := rfl
@[simp] theorem State.mod_busData (s : State) (c : Cl) (f : Cluster → Cluster) : (s.mod c f).busData = s.busData := rfl
@[simp] theorem State.mod_freeCount (s : State) (c : Cl) (f : Cluster → Cluster) : (s.mod c f).freeCount = s.freeCount := rfl
@[simp] theorem State.mod_rngCount (s : State) (c : Cl) (f : Cluster → Cluster) : (s.mod c f).rngCount = s.rngCount := rfl
@[simp] theorem State.mod_hostMem (s : State) (c : Cl) (f : Cluster → Cluster) : (s.mod c f).hostMem = s.hostMem := rfl

/-! A device register's write leaves every other part alone. -/

@[simp] theorem State.dw_pending (s : State) (a v : Nat) : (s.dw a v).pending = s.pending := rfl
@[simp] theorem State.dw_cls (s : State) (a v : Nat) : (s.dw a v).cls = s.cls := rfl
@[simp] theorem State.dw_sy (s : State) (a v : Nat) : (s.dw a v).sy = s.sy := rfl
@[simp] theorem State.dw_mem (s : State) (a v : Nat) : (s.dw a v).mem = s.mem := rfl
@[simp] theorem State.dw_pages (s : State) (a v : Nat) : (s.dw a v).pages = s.pages := rfl
@[simp] theorem State.dw_ctx (s : State) (a v : Nat) : (s.dw a v).ctx = s.ctx := rfl
@[simp] theorem State.dw_err (s : State) (a v : Nat) : (s.dw a v).err = s.err := rfl
@[simp] theorem State.dw_pcie (s : State) (a v : Nat) : (s.dw a v).pcie = s.pcie := rfl
@[simp] theorem State.dw_ports (s : State) (a v : Nat) : (s.dw a v).ports = s.ports := rfl
@[simp] theorem State.dw_links (s : State) (a v : Nat) : (s.dw a v).links = s.links := rfl
@[simp] theorem State.dw_rv (s : State) (a v : Nat) : (s.dw a v).rv = s.rv := rfl
@[simp] theorem State.dw_us (s : State) (a v : Nat) : (s.dw a v).us = s.us := rfl
@[simp] theorem State.dw_wt (s : State) (a v : Nat) : (s.dw a v).wt = s.wt := rfl
@[simp] theorem State.dw_sec (s : State) (a v : Nat) : (s.dw a v).sec = s.sec := rfl
@[simp] theorem State.dw_pw (s : State) (a v : Nat) : (s.dw a v).pw = s.pw := rfl
@[simp] theorem State.dw_boot (s : State) (a v : Nat) : (s.dw a v).boot = s.boot := rfl
@[simp] theorem State.dw_jtag (s : State) (a v : Nat) : (s.dw a v).jtag = s.jtag := rfl
@[simp] theorem State.dw_mb (s : State) (a v : Nat) : (s.dw a v).mb = s.mb := rfl
@[simp] theorem State.dw_timebase (s : State) (a v : Nat) : (s.dw a v).timebase = s.timebase := rfl
@[simp] theorem State.dw_pll (s : State) (a v : Nat) : (s.dw a v).pll = s.pll := rfl
@[simp] theorem State.dw_readData (s : State) (a v : Nat) : (s.dw a v).readData = s.readData := rfl
@[simp] theorem State.dw_busData (s : State) (a v : Nat) : (s.dw a v).busData = s.busData := rfl
@[simp] theorem State.dw_freeCount (s : State) (a v : Nat) : (s.dw a v).freeCount = s.freeCount := rfl
@[simp] theorem State.dw_rngCount (s : State) (a v : Nat) : (s.dw a v).rngCount = s.rngCount := rfl
@[simp] theorem State.dw_hostMem (s : State) (a v : Nat) : (s.dw a v).hostMem = s.hostMem := rfl

/-! A page-map entry's write leaves every other part alone. -/

@[simp] theorem State.setPage_pending (s : State) (x p v : Nat) : (s.setPage x p v).pending = s.pending := rfl
@[simp] theorem State.setPage_cls (s : State) (x p v : Nat) : (s.setPage x p v).cls = s.cls := rfl
@[simp] theorem State.setPage_sy (s : State) (x p v : Nat) : (s.setPage x p v).sy = s.sy := rfl
@[simp] theorem State.setPage_mem (s : State) (x p v : Nat) : (s.setPage x p v).mem = s.mem := rfl
@[simp] theorem State.setPage_ctx (s : State) (x p v : Nat) : (s.setPage x p v).ctx = s.ctx := rfl
@[simp] theorem State.setPage_err (s : State) (x p v : Nat) : (s.setPage x p v).err = s.err := rfl
@[simp] theorem State.setPage_pcie (s : State) (x p v : Nat) : (s.setPage x p v).pcie = s.pcie := rfl
@[simp] theorem State.setPage_ports (s : State) (x p v : Nat) : (s.setPage x p v).ports = s.ports := rfl
@[simp] theorem State.setPage_links (s : State) (x p v : Nat) : (s.setPage x p v).links = s.links := rfl
@[simp] theorem State.setPage_rv (s : State) (x p v : Nat) : (s.setPage x p v).rv = s.rv := rfl
@[simp] theorem State.setPage_us (s : State) (x p v : Nat) : (s.setPage x p v).us = s.us := rfl
@[simp] theorem State.setPage_wt (s : State) (x p v : Nat) : (s.setPage x p v).wt = s.wt := rfl
@[simp] theorem State.setPage_sec (s : State) (x p v : Nat) : (s.setPage x p v).sec = s.sec := rfl
@[simp] theorem State.setPage_pw (s : State) (x p v : Nat) : (s.setPage x p v).pw = s.pw := rfl
@[simp] theorem State.setPage_boot (s : State) (x p v : Nat) : (s.setPage x p v).boot = s.boot := rfl
@[simp] theorem State.setPage_jtag (s : State) (x p v : Nat) : (s.setPage x p v).jtag = s.jtag := rfl
@[simp] theorem State.setPage_mb (s : State) (x p v : Nat) : (s.setPage x p v).mb = s.mb := rfl
@[simp] theorem State.setPage_regs (s : State) (x p v : Nat) : (s.setPage x p v).regs = s.regs := rfl
@[simp] theorem State.setPage_timebase (s : State) (x p v : Nat) : (s.setPage x p v).timebase = s.timebase := rfl
@[simp] theorem State.setPage_pll (s : State) (x p v : Nat) : (s.setPage x p v).pll = s.pll := rfl
@[simp] theorem State.setPage_readData (s : State) (x p v : Nat) : (s.setPage x p v).readData = s.readData := rfl
@[simp] theorem State.setPage_busData (s : State) (x p v : Nat) : (s.setPage x p v).busData = s.busData := rfl
@[simp] theorem State.setPage_freeCount (s : State) (x p v : Nat) : (s.setPage x p v).freeCount = s.freeCount := rfl
@[simp] theorem State.setPage_rngCount (s : State) (x p v : Nat) : (s.setPage x p v).rngCount = s.rngCount := rfl
@[simp] theorem State.setPage_hostMem (s : State) (x p v : Nat) : (s.setPage x p v).hostMem = s.hostMem := rfl

/-! A change of one context leaves every other part alone. -/

@[simp] theorem State.modCx_pending (s : State) (x : Nat) (f : CtxSt → CtxSt) : (s.modCx x f).pending = s.pending := by
  unfold State.modCx; split <;> rfl
@[simp] theorem State.modCx_cls (s : State) (x : Nat) (f : CtxSt → CtxSt) : (s.modCx x f).cls = s.cls := by
  unfold State.modCx; split <;> rfl
@[simp] theorem State.modCx_sy (s : State) (x : Nat) (f : CtxSt → CtxSt) : (s.modCx x f).sy = s.sy := by
  unfold State.modCx; split <;> rfl
@[simp] theorem State.modCx_mem (s : State) (x : Nat) (f : CtxSt → CtxSt) : (s.modCx x f).mem = s.mem := by
  unfold State.modCx; split <;> rfl
@[simp] theorem State.modCx_pages (s : State) (x : Nat) (f : CtxSt → CtxSt) : (s.modCx x f).pages = s.pages := by
  unfold State.modCx; split <;> rfl
@[simp] theorem State.modCx_err (s : State) (x : Nat) (f : CtxSt → CtxSt) : (s.modCx x f).err = s.err := by
  unfold State.modCx; split <;> rfl
@[simp] theorem State.modCx_pcie (s : State) (x : Nat) (f : CtxSt → CtxSt) : (s.modCx x f).pcie = s.pcie := by
  unfold State.modCx; split <;> rfl
@[simp] theorem State.modCx_ports (s : State) (x : Nat) (f : CtxSt → CtxSt) : (s.modCx x f).ports = s.ports := by
  unfold State.modCx; split <;> rfl
@[simp] theorem State.modCx_links (s : State) (x : Nat) (f : CtxSt → CtxSt) : (s.modCx x f).links = s.links := by
  unfold State.modCx; split <;> rfl
@[simp] theorem State.modCx_rv (s : State) (x : Nat) (f : CtxSt → CtxSt) : (s.modCx x f).rv = s.rv := by
  unfold State.modCx; split <;> rfl
@[simp] theorem State.modCx_us (s : State) (x : Nat) (f : CtxSt → CtxSt) : (s.modCx x f).us = s.us := by
  unfold State.modCx; split <;> rfl
@[simp] theorem State.modCx_wt (s : State) (x : Nat) (f : CtxSt → CtxSt) : (s.modCx x f).wt = s.wt := by
  unfold State.modCx; split <;> rfl
@[simp] theorem State.modCx_sec (s : State) (x : Nat) (f : CtxSt → CtxSt) : (s.modCx x f).sec = s.sec := by
  unfold State.modCx; split <;> rfl
@[simp] theorem State.modCx_pw (s : State) (x : Nat) (f : CtxSt → CtxSt) : (s.modCx x f).pw = s.pw := by
  unfold State.modCx; split <;> rfl
@[simp] theorem State.modCx_boot (s : State) (x : Nat) (f : CtxSt → CtxSt) : (s.modCx x f).boot = s.boot := by
  unfold State.modCx; split <;> rfl
@[simp] theorem State.modCx_jtag (s : State) (x : Nat) (f : CtxSt → CtxSt) : (s.modCx x f).jtag = s.jtag := by
  unfold State.modCx; split <;> rfl
@[simp] theorem State.modCx_mb (s : State) (x : Nat) (f : CtxSt → CtxSt) : (s.modCx x f).mb = s.mb := by
  unfold State.modCx; split <;> rfl
@[simp] theorem State.modCx_regs (s : State) (x : Nat) (f : CtxSt → CtxSt) : (s.modCx x f).regs = s.regs := by
  unfold State.modCx; split <;> rfl
@[simp] theorem State.modCx_timebase (s : State) (x : Nat) (f : CtxSt → CtxSt) : (s.modCx x f).timebase = s.timebase := by
  unfold State.modCx; split <;> rfl
@[simp] theorem State.modCx_pll (s : State) (x : Nat) (f : CtxSt → CtxSt) : (s.modCx x f).pll = s.pll := by
  unfold State.modCx; split <;> rfl
@[simp] theorem State.modCx_readData (s : State) (x : Nat) (f : CtxSt → CtxSt) : (s.modCx x f).readData = s.readData := by
  unfold State.modCx; split <;> rfl
@[simp] theorem State.modCx_busData (s : State) (x : Nat) (f : CtxSt → CtxSt) : (s.modCx x f).busData = s.busData := by
  unfold State.modCx; split <;> rfl
@[simp] theorem State.modCx_freeCount (s : State) (x : Nat) (f : CtxSt → CtxSt) : (s.modCx x f).freeCount = s.freeCount := by
  unfold State.modCx; split <;> rfl
@[simp] theorem State.modCx_rngCount (s : State) (x : Nat) (f : CtxSt → CtxSt) : (s.modCx x f).rngCount = s.rngCount := by
  unfold State.modCx; split <;> rfl
@[simp] theorem State.modCx_hostMem (s : State) (x : Nat) (f : CtxSt → CtxSt) : (s.modCx x f).hostMem = s.hostMem := by
  unfold State.modCx; split <;> rfl

/-! A change of one port leaves every other part alone. -/

@[simp] theorem State.modPort_pending (s : State) (p : Nat) (f : PortSt → PortSt) : (s.modPort p f).pending = s.pending := by
  unfold State.modPort; split <;> rfl
@[simp] theorem State.modPort_cls (s : State) (p : Nat) (f : PortSt → PortSt) : (s.modPort p f).cls = s.cls := by
  unfold State.modPort; split <;> rfl
@[simp] theorem State.modPort_sy (s : State) (p : Nat) (f : PortSt → PortSt) : (s.modPort p f).sy = s.sy := by
  unfold State.modPort; split <;> rfl
@[simp] theorem State.modPort_mem (s : State) (p : Nat) (f : PortSt → PortSt) : (s.modPort p f).mem = s.mem := by
  unfold State.modPort; split <;> rfl
@[simp] theorem State.modPort_pages (s : State) (p : Nat) (f : PortSt → PortSt) : (s.modPort p f).pages = s.pages := by
  unfold State.modPort; split <;> rfl
@[simp] theorem State.modPort_ctx (s : State) (p : Nat) (f : PortSt → PortSt) : (s.modPort p f).ctx = s.ctx := by
  unfold State.modPort; split <;> rfl
@[simp] theorem State.modPort_err (s : State) (p : Nat) (f : PortSt → PortSt) : (s.modPort p f).err = s.err := by
  unfold State.modPort; split <;> rfl
@[simp] theorem State.modPort_pcie (s : State) (p : Nat) (f : PortSt → PortSt) : (s.modPort p f).pcie = s.pcie := by
  unfold State.modPort; split <;> rfl
@[simp] theorem State.modPort_links (s : State) (p : Nat) (f : PortSt → PortSt) : (s.modPort p f).links = s.links := by
  unfold State.modPort; split <;> rfl
@[simp] theorem State.modPort_rv (s : State) (p : Nat) (f : PortSt → PortSt) : (s.modPort p f).rv = s.rv := by
  unfold State.modPort; split <;> rfl
@[simp] theorem State.modPort_us (s : State) (p : Nat) (f : PortSt → PortSt) : (s.modPort p f).us = s.us := by
  unfold State.modPort; split <;> rfl
@[simp] theorem State.modPort_wt (s : State) (p : Nat) (f : PortSt → PortSt) : (s.modPort p f).wt = s.wt := by
  unfold State.modPort; split <;> rfl
@[simp] theorem State.modPort_sec (s : State) (p : Nat) (f : PortSt → PortSt) : (s.modPort p f).sec = s.sec := by
  unfold State.modPort; split <;> rfl
@[simp] theorem State.modPort_pw (s : State) (p : Nat) (f : PortSt → PortSt) : (s.modPort p f).pw = s.pw := by
  unfold State.modPort; split <;> rfl
@[simp] theorem State.modPort_boot (s : State) (p : Nat) (f : PortSt → PortSt) : (s.modPort p f).boot = s.boot := by
  unfold State.modPort; split <;> rfl
@[simp] theorem State.modPort_jtag (s : State) (p : Nat) (f : PortSt → PortSt) : (s.modPort p f).jtag = s.jtag := by
  unfold State.modPort; split <;> rfl
@[simp] theorem State.modPort_mb (s : State) (p : Nat) (f : PortSt → PortSt) : (s.modPort p f).mb = s.mb := by
  unfold State.modPort; split <;> rfl
@[simp] theorem State.modPort_regs (s : State) (p : Nat) (f : PortSt → PortSt) : (s.modPort p f).regs = s.regs := by
  unfold State.modPort; split <;> rfl
@[simp] theorem State.modPort_timebase (s : State) (p : Nat) (f : PortSt → PortSt) : (s.modPort p f).timebase = s.timebase := by
  unfold State.modPort; split <;> rfl
@[simp] theorem State.modPort_pll (s : State) (p : Nat) (f : PortSt → PortSt) : (s.modPort p f).pll = s.pll := by
  unfold State.modPort; split <;> rfl
@[simp] theorem State.modPort_readData (s : State) (p : Nat) (f : PortSt → PortSt) : (s.modPort p f).readData = s.readData := by
  unfold State.modPort; split <;> rfl
@[simp] theorem State.modPort_busData (s : State) (p : Nat) (f : PortSt → PortSt) : (s.modPort p f).busData = s.busData := by
  unfold State.modPort; split <;> rfl
@[simp] theorem State.modPort_freeCount (s : State) (p : Nat) (f : PortSt → PortSt) : (s.modPort p f).freeCount = s.freeCount := by
  unfold State.modPort; split <;> rfl
@[simp] theorem State.modPort_rngCount (s : State) (p : Nat) (f : PortSt → PortSt) : (s.modPort p f).rngCount = s.rngCount := by
  unfold State.modPort; split <;> rfl
@[simp] theorem State.modPort_hostMem (s : State) (p : Nat) (f : PortSt → PortSt) : (s.modPort p f).hostMem = s.hostMem := by
  unfold State.modPort; split <;> rfl

/-! A change of one link leaves every other part alone. -/

@[simp] theorem State.modLink_pending (s : State) (k : Nat) (f : LinkSt → LinkSt) : (s.modLink k f).pending = s.pending := by
  unfold State.modLink; split <;> rfl
@[simp] theorem State.modLink_cls (s : State) (k : Nat) (f : LinkSt → LinkSt) : (s.modLink k f).cls = s.cls := by
  unfold State.modLink; split <;> rfl
@[simp] theorem State.modLink_sy (s : State) (k : Nat) (f : LinkSt → LinkSt) : (s.modLink k f).sy = s.sy := by
  unfold State.modLink; split <;> rfl
@[simp] theorem State.modLink_mem (s : State) (k : Nat) (f : LinkSt → LinkSt) : (s.modLink k f).mem = s.mem := by
  unfold State.modLink; split <;> rfl
@[simp] theorem State.modLink_pages (s : State) (k : Nat) (f : LinkSt → LinkSt) : (s.modLink k f).pages = s.pages := by
  unfold State.modLink; split <;> rfl
@[simp] theorem State.modLink_ctx (s : State) (k : Nat) (f : LinkSt → LinkSt) : (s.modLink k f).ctx = s.ctx := by
  unfold State.modLink; split <;> rfl
@[simp] theorem State.modLink_err (s : State) (k : Nat) (f : LinkSt → LinkSt) : (s.modLink k f).err = s.err := by
  unfold State.modLink; split <;> rfl
@[simp] theorem State.modLink_pcie (s : State) (k : Nat) (f : LinkSt → LinkSt) : (s.modLink k f).pcie = s.pcie := by
  unfold State.modLink; split <;> rfl
@[simp] theorem State.modLink_ports (s : State) (k : Nat) (f : LinkSt → LinkSt) : (s.modLink k f).ports = s.ports := by
  unfold State.modLink; split <;> rfl
@[simp] theorem State.modLink_rv (s : State) (k : Nat) (f : LinkSt → LinkSt) : (s.modLink k f).rv = s.rv := by
  unfold State.modLink; split <;> rfl
@[simp] theorem State.modLink_us (s : State) (k : Nat) (f : LinkSt → LinkSt) : (s.modLink k f).us = s.us := by
  unfold State.modLink; split <;> rfl
@[simp] theorem State.modLink_wt (s : State) (k : Nat) (f : LinkSt → LinkSt) : (s.modLink k f).wt = s.wt := by
  unfold State.modLink; split <;> rfl
@[simp] theorem State.modLink_sec (s : State) (k : Nat) (f : LinkSt → LinkSt) : (s.modLink k f).sec = s.sec := by
  unfold State.modLink; split <;> rfl
@[simp] theorem State.modLink_pw (s : State) (k : Nat) (f : LinkSt → LinkSt) : (s.modLink k f).pw = s.pw := by
  unfold State.modLink; split <;> rfl
@[simp] theorem State.modLink_boot (s : State) (k : Nat) (f : LinkSt → LinkSt) : (s.modLink k f).boot = s.boot := by
  unfold State.modLink; split <;> rfl
@[simp] theorem State.modLink_jtag (s : State) (k : Nat) (f : LinkSt → LinkSt) : (s.modLink k f).jtag = s.jtag := by
  unfold State.modLink; split <;> rfl
@[simp] theorem State.modLink_mb (s : State) (k : Nat) (f : LinkSt → LinkSt) : (s.modLink k f).mb = s.mb := by
  unfold State.modLink; split <;> rfl
@[simp] theorem State.modLink_regs (s : State) (k : Nat) (f : LinkSt → LinkSt) : (s.modLink k f).regs = s.regs := by
  unfold State.modLink; split <;> rfl
@[simp] theorem State.modLink_timebase (s : State) (k : Nat) (f : LinkSt → LinkSt) : (s.modLink k f).timebase = s.timebase := by
  unfold State.modLink; split <;> rfl
@[simp] theorem State.modLink_pll (s : State) (k : Nat) (f : LinkSt → LinkSt) : (s.modLink k f).pll = s.pll := by
  unfold State.modLink; split <;> rfl
@[simp] theorem State.modLink_readData (s : State) (k : Nat) (f : LinkSt → LinkSt) : (s.modLink k f).readData = s.readData := by
  unfold State.modLink; split <;> rfl
@[simp] theorem State.modLink_busData (s : State) (k : Nat) (f : LinkSt → LinkSt) : (s.modLink k f).busData = s.busData := by
  unfold State.modLink; split <;> rfl
@[simp] theorem State.modLink_freeCount (s : State) (k : Nat) (f : LinkSt → LinkSt) : (s.modLink k f).freeCount = s.freeCount := by
  unfold State.modLink; split <;> rfl
@[simp] theorem State.modLink_rngCount (s : State) (k : Nat) (f : LinkSt → LinkSt) : (s.modLink k f).rngCount = s.rngCount := by
  unfold State.modLink; split <;> rfl
@[simp] theorem State.modLink_hostMem (s : State) (k : Nat) (f : LinkSt → LinkSt) : (s.modLink k f).hostMem = s.hostMem := by
  unfold State.modLink; split <;> rfl

/-! Counting in a device register leaves every other part alone. -/

@[simp] theorem State.dinc_pending (s : State) (a n : Nat) : (s.dinc a n).pending = s.pending := by
  unfold State.dinc; split <;> rfl
@[simp] theorem State.dinc_cls (s : State) (a n : Nat) : (s.dinc a n).cls = s.cls := by
  unfold State.dinc; split <;> rfl
@[simp] theorem State.dinc_sy (s : State) (a n : Nat) : (s.dinc a n).sy = s.sy := by
  unfold State.dinc; split <;> rfl
@[simp] theorem State.dinc_mem (s : State) (a n : Nat) : (s.dinc a n).mem = s.mem := by
  unfold State.dinc; split <;> rfl
@[simp] theorem State.dinc_pages (s : State) (a n : Nat) : (s.dinc a n).pages = s.pages := by
  unfold State.dinc; split <;> rfl
@[simp] theorem State.dinc_ctx (s : State) (a n : Nat) : (s.dinc a n).ctx = s.ctx := by
  unfold State.dinc; split <;> rfl
@[simp] theorem State.dinc_err (s : State) (a n : Nat) : (s.dinc a n).err = s.err := by
  unfold State.dinc; split <;> rfl
@[simp] theorem State.dinc_pcie (s : State) (a n : Nat) : (s.dinc a n).pcie = s.pcie := by
  unfold State.dinc; split <;> rfl
@[simp] theorem State.dinc_ports (s : State) (a n : Nat) : (s.dinc a n).ports = s.ports := by
  unfold State.dinc; split <;> rfl
@[simp] theorem State.dinc_links (s : State) (a n : Nat) : (s.dinc a n).links = s.links := by
  unfold State.dinc; split <;> rfl
@[simp] theorem State.dinc_rv (s : State) (a n : Nat) : (s.dinc a n).rv = s.rv := by
  unfold State.dinc; split <;> rfl
@[simp] theorem State.dinc_us (s : State) (a n : Nat) : (s.dinc a n).us = s.us := by
  unfold State.dinc; split <;> rfl
@[simp] theorem State.dinc_wt (s : State) (a n : Nat) : (s.dinc a n).wt = s.wt := by
  unfold State.dinc; split <;> rfl
@[simp] theorem State.dinc_sec (s : State) (a n : Nat) : (s.dinc a n).sec = s.sec := by
  unfold State.dinc; split <;> rfl
@[simp] theorem State.dinc_pw (s : State) (a n : Nat) : (s.dinc a n).pw = s.pw := by
  unfold State.dinc; split <;> rfl
@[simp] theorem State.dinc_boot (s : State) (a n : Nat) : (s.dinc a n).boot = s.boot := by
  unfold State.dinc; split <;> rfl
@[simp] theorem State.dinc_jtag (s : State) (a n : Nat) : (s.dinc a n).jtag = s.jtag := by
  unfold State.dinc; split <;> rfl
@[simp] theorem State.dinc_mb (s : State) (a n : Nat) : (s.dinc a n).mb = s.mb := by
  unfold State.dinc; split <;> rfl
@[simp] theorem State.dinc_timebase (s : State) (a n : Nat) : (s.dinc a n).timebase = s.timebase := by
  unfold State.dinc; split <;> rfl
@[simp] theorem State.dinc_pll (s : State) (a n : Nat) : (s.dinc a n).pll = s.pll := by
  unfold State.dinc; split <;> rfl
@[simp] theorem State.dinc_readData (s : State) (a n : Nat) : (s.dinc a n).readData = s.readData := by
  unfold State.dinc; split <;> rfl
@[simp] theorem State.dinc_busData (s : State) (a n : Nat) : (s.dinc a n).busData = s.busData := by
  unfold State.dinc; split <;> rfl
@[simp] theorem State.dinc_freeCount (s : State) (a n : Nat) : (s.dinc a n).freeCount = s.freeCount := by
  unfold State.dinc; split <;> rfl
@[simp] theorem State.dinc_rngCount (s : State) (a n : Nat) : (s.dinc a n).rngCount = s.rngCount := by
  unfold State.dinc; split <;> rfl
@[simp] theorem State.dinc_hostMem (s : State) (a n : Nat) : (s.dinc a n).hostMem = s.hostMem := by
  unfold State.dinc; split <;> rfl

/-! Counting in a cluster register leaves every other part alone. -/

@[simp] theorem State.cinc_pending (s : State) (c : Cl) (a n : Nat) : (s.cinc c a n).pending = s.pending := by
  unfold State.cinc; split <;> rfl
@[simp] theorem State.cinc_sy (s : State) (c : Cl) (a n : Nat) : (s.cinc c a n).sy = s.sy := by
  unfold State.cinc; split <;> rfl
@[simp] theorem State.cinc_mem (s : State) (c : Cl) (a n : Nat) : (s.cinc c a n).mem = s.mem := by
  unfold State.cinc; split <;> rfl
@[simp] theorem State.cinc_pages (s : State) (c : Cl) (a n : Nat) : (s.cinc c a n).pages = s.pages := by
  unfold State.cinc; split <;> rfl
@[simp] theorem State.cinc_ctx (s : State) (c : Cl) (a n : Nat) : (s.cinc c a n).ctx = s.ctx := by
  unfold State.cinc; split <;> rfl
@[simp] theorem State.cinc_err (s : State) (c : Cl) (a n : Nat) : (s.cinc c a n).err = s.err := by
  unfold State.cinc; split <;> rfl
@[simp] theorem State.cinc_pcie (s : State) (c : Cl) (a n : Nat) : (s.cinc c a n).pcie = s.pcie := by
  unfold State.cinc; split <;> rfl
@[simp] theorem State.cinc_ports (s : State) (c : Cl) (a n : Nat) : (s.cinc c a n).ports = s.ports := by
  unfold State.cinc; split <;> rfl
@[simp] theorem State.cinc_links (s : State) (c : Cl) (a n : Nat) : (s.cinc c a n).links = s.links := by
  unfold State.cinc; split <;> rfl
@[simp] theorem State.cinc_rv (s : State) (c : Cl) (a n : Nat) : (s.cinc c a n).rv = s.rv := by
  unfold State.cinc; split <;> rfl
@[simp] theorem State.cinc_us (s : State) (c : Cl) (a n : Nat) : (s.cinc c a n).us = s.us := by
  unfold State.cinc; split <;> rfl
@[simp] theorem State.cinc_wt (s : State) (c : Cl) (a n : Nat) : (s.cinc c a n).wt = s.wt := by
  unfold State.cinc; split <;> rfl
@[simp] theorem State.cinc_sec (s : State) (c : Cl) (a n : Nat) : (s.cinc c a n).sec = s.sec := by
  unfold State.cinc; split <;> rfl
@[simp] theorem State.cinc_pw (s : State) (c : Cl) (a n : Nat) : (s.cinc c a n).pw = s.pw := by
  unfold State.cinc; split <;> rfl
@[simp] theorem State.cinc_boot (s : State) (c : Cl) (a n : Nat) : (s.cinc c a n).boot = s.boot := by
  unfold State.cinc; split <;> rfl
@[simp] theorem State.cinc_jtag (s : State) (c : Cl) (a n : Nat) : (s.cinc c a n).jtag = s.jtag := by
  unfold State.cinc; split <;> rfl
@[simp] theorem State.cinc_mb (s : State) (c : Cl) (a n : Nat) : (s.cinc c a n).mb = s.mb := by
  unfold State.cinc; split <;> rfl
@[simp] theorem State.cinc_regs (s : State) (c : Cl) (a n : Nat) : (s.cinc c a n).regs = s.regs := by
  unfold State.cinc; split <;> rfl
@[simp] theorem State.cinc_timebase (s : State) (c : Cl) (a n : Nat) : (s.cinc c a n).timebase = s.timebase := by
  unfold State.cinc; split <;> rfl
@[simp] theorem State.cinc_pll (s : State) (c : Cl) (a n : Nat) : (s.cinc c a n).pll = s.pll := by
  unfold State.cinc; split <;> rfl
@[simp] theorem State.cinc_readData (s : State) (c : Cl) (a n : Nat) : (s.cinc c a n).readData = s.readData := by
  unfold State.cinc; split <;> rfl
@[simp] theorem State.cinc_busData (s : State) (c : Cl) (a n : Nat) : (s.cinc c a n).busData = s.busData := by
  unfold State.cinc; split <;> rfl
@[simp] theorem State.cinc_freeCount (s : State) (c : Cl) (a n : Nat) : (s.cinc c a n).freeCount = s.freeCount := by
  unfold State.cinc; split <;> rfl
@[simp] theorem State.cinc_rngCount (s : State) (c : Cl) (a n : Nat) : (s.cinc c a n).rngCount = s.rngCount := by
  unfold State.cinc; split <;> rfl
@[simp] theorem State.cinc_hostMem (s : State) (c : Cl) (a n : Nat) : (s.cinc c a n).hostMem = s.hostMem := by
  unfold State.cinc; split <;> rfl

/-! A write of HBM changes memory, and may end reservations in the clusters. -/

@[simp] theorem State.hbmWrite_pending (s : State) (a : Nat) (bs : List Byte) : (s.hbmWrite a bs).pending = s.pending := rfl
@[simp] theorem State.hbmWrite_sy (s : State) (a : Nat) (bs : List Byte) : (s.hbmWrite a bs).sy = s.sy := rfl
@[simp] theorem State.hbmWrite_pages (s : State) (a : Nat) (bs : List Byte) : (s.hbmWrite a bs).pages = s.pages := rfl
@[simp] theorem State.hbmWrite_ctx (s : State) (a : Nat) (bs : List Byte) : (s.hbmWrite a bs).ctx = s.ctx := rfl
@[simp] theorem State.hbmWrite_err (s : State) (a : Nat) (bs : List Byte) : (s.hbmWrite a bs).err = s.err := rfl
@[simp] theorem State.hbmWrite_pcie (s : State) (a : Nat) (bs : List Byte) : (s.hbmWrite a bs).pcie = s.pcie := rfl
@[simp] theorem State.hbmWrite_ports (s : State) (a : Nat) (bs : List Byte) : (s.hbmWrite a bs).ports = s.ports := rfl
@[simp] theorem State.hbmWrite_links (s : State) (a : Nat) (bs : List Byte) : (s.hbmWrite a bs).links = s.links := rfl
@[simp] theorem State.hbmWrite_rv (s : State) (a : Nat) (bs : List Byte) : (s.hbmWrite a bs).rv = s.rv := rfl
@[simp] theorem State.hbmWrite_us (s : State) (a : Nat) (bs : List Byte) : (s.hbmWrite a bs).us = s.us := rfl
@[simp] theorem State.hbmWrite_wt (s : State) (a : Nat) (bs : List Byte) : (s.hbmWrite a bs).wt = s.wt := rfl
@[simp] theorem State.hbmWrite_sec (s : State) (a : Nat) (bs : List Byte) : (s.hbmWrite a bs).sec = s.sec := rfl
@[simp] theorem State.hbmWrite_pw (s : State) (a : Nat) (bs : List Byte) : (s.hbmWrite a bs).pw = s.pw := rfl
@[simp] theorem State.hbmWrite_boot (s : State) (a : Nat) (bs : List Byte) : (s.hbmWrite a bs).boot = s.boot := rfl
@[simp] theorem State.hbmWrite_jtag (s : State) (a : Nat) (bs : List Byte) : (s.hbmWrite a bs).jtag = s.jtag := rfl
@[simp] theorem State.hbmWrite_mb (s : State) (a : Nat) (bs : List Byte) : (s.hbmWrite a bs).mb = s.mb := rfl
@[simp] theorem State.hbmWrite_regs (s : State) (a : Nat) (bs : List Byte) : (s.hbmWrite a bs).regs = s.regs := rfl
@[simp] theorem State.hbmWrite_timebase (s : State) (a : Nat) (bs : List Byte) : (s.hbmWrite a bs).timebase = s.timebase := rfl
@[simp] theorem State.hbmWrite_pll (s : State) (a : Nat) (bs : List Byte) : (s.hbmWrite a bs).pll = s.pll := rfl
@[simp] theorem State.hbmWrite_readData (s : State) (a : Nat) (bs : List Byte) : (s.hbmWrite a bs).readData = s.readData := rfl
@[simp] theorem State.hbmWrite_busData (s : State) (a : Nat) (bs : List Byte) : (s.hbmWrite a bs).busData = s.busData := rfl
@[simp] theorem State.hbmWrite_freeCount (s : State) (a : Nat) (bs : List Byte) : (s.hbmWrite a bs).freeCount = s.freeCount := rfl
@[simp] theorem State.hbmWrite_rngCount (s : State) (a : Nat) (bs : List Byte) : (s.hbmWrite a bs).rngCount = s.rngCount := rfl
@[simp] theorem State.hbmWrite_hostMem (s : State) (a : Nat) (bs : List Byte) : (s.hbmWrite a bs).hostMem = s.hostMem := rfl

/-! A cue sent changes the synchronisation unit. -/

@[simp] theorem State.sendCue_pending (s : State) (d : CueDest) (w : Word) : (s.sendCue d w).pending = s.pending := rfl
@[simp] theorem State.sendCue_cls (s : State) (d : CueDest) (w : Word) : (s.sendCue d w).cls = s.cls := rfl
@[simp] theorem State.sendCue_mem (s : State) (d : CueDest) (w : Word) : (s.sendCue d w).mem = s.mem := rfl
@[simp] theorem State.sendCue_pages (s : State) (d : CueDest) (w : Word) : (s.sendCue d w).pages = s.pages := rfl
@[simp] theorem State.sendCue_ctx (s : State) (d : CueDest) (w : Word) : (s.sendCue d w).ctx = s.ctx := rfl
@[simp] theorem State.sendCue_err (s : State) (d : CueDest) (w : Word) : (s.sendCue d w).err = s.err := rfl
@[simp] theorem State.sendCue_pcie (s : State) (d : CueDest) (w : Word) : (s.sendCue d w).pcie = s.pcie := rfl
@[simp] theorem State.sendCue_ports (s : State) (d : CueDest) (w : Word) : (s.sendCue d w).ports = s.ports := rfl
@[simp] theorem State.sendCue_links (s : State) (d : CueDest) (w : Word) : (s.sendCue d w).links = s.links := rfl
@[simp] theorem State.sendCue_rv (s : State) (d : CueDest) (w : Word) : (s.sendCue d w).rv = s.rv := rfl
@[simp] theorem State.sendCue_us (s : State) (d : CueDest) (w : Word) : (s.sendCue d w).us = s.us := rfl
@[simp] theorem State.sendCue_wt (s : State) (d : CueDest) (w : Word) : (s.sendCue d w).wt = s.wt := rfl
@[simp] theorem State.sendCue_sec (s : State) (d : CueDest) (w : Word) : (s.sendCue d w).sec = s.sec := rfl
@[simp] theorem State.sendCue_pw (s : State) (d : CueDest) (w : Word) : (s.sendCue d w).pw = s.pw := rfl
@[simp] theorem State.sendCue_boot (s : State) (d : CueDest) (w : Word) : (s.sendCue d w).boot = s.boot := rfl
@[simp] theorem State.sendCue_jtag (s : State) (d : CueDest) (w : Word) : (s.sendCue d w).jtag = s.jtag := rfl
@[simp] theorem State.sendCue_mb (s : State) (d : CueDest) (w : Word) : (s.sendCue d w).mb = s.mb := rfl
@[simp] theorem State.sendCue_regs (s : State) (d : CueDest) (w : Word) : (s.sendCue d w).regs = s.regs := rfl
@[simp] theorem State.sendCue_timebase (s : State) (d : CueDest) (w : Word) : (s.sendCue d w).timebase = s.timebase := rfl
@[simp] theorem State.sendCue_pll (s : State) (d : CueDest) (w : Word) : (s.sendCue d w).pll = s.pll := rfl
@[simp] theorem State.sendCue_readData (s : State) (d : CueDest) (w : Word) : (s.sendCue d w).readData = s.readData := rfl
@[simp] theorem State.sendCue_busData (s : State) (d : CueDest) (w : Word) : (s.sendCue d w).busData = s.busData := rfl
@[simp] theorem State.sendCue_freeCount (s : State) (d : CueDest) (w : Word) : (s.sendCue d w).freeCount = s.freeCount := rfl
@[simp] theorem State.sendCue_rngCount (s : State) (d : CueDest) (w : Word) : (s.sendCue d w).rngCount = s.rngCount := rfl
@[simp] theorem State.sendCue_hostMem (s : State) (d : CueDest) (w : Word) : (s.sendCue d w).hostMem = s.hostMem := rfl

/-! ### What the changed part becomes -/

@[simp] theorem State.cl_mod_same (s : State) (c : Cl) (f : Cluster → Cluster) : (s.mod c f).cl c = f (s.cl c) := by
  simp [State.cl, State.mod]

theorem State.cl_mod_other (s : State) (c d : Cl) (f : Cluster → Cluster) (h : d ≠ c) : (s.mod c f).cl d = s.cl d := by
  have : c.val ≠ d.val := fun e => h (Fin.ext e.symm)
  simp [State.cl, State.mod, this]

@[simp] theorem State.cx_modCx_same (s : State) (x : Nat) (f : CtxSt → CtxSt) (h : x < 16) : (s.modCx x f).cx x = f (s.cx x) := by
  simp [State.cx, State.modCx, h]

theorem State.cx_modCx_other (s : State) (x y : Nat) (f : CtxSt → CtxSt) (h : y ≠ x) : (s.modCx x f).cx y = s.cx y := by
  unfold State.cx State.modCx
  by_cases hx : x < 16 <;> by_cases hy : y < 16 <;> simp [hx, hy, Ne.symm h]

/-- A read of a device register after a write of it: the value, cut to 64 bits. -/
@[simp] theorem State.dr_dw_same (s : State) (a v : Nat) : (s.dw a v).dr a = v % 2 ^ 64 := by
  simp [State.dr, State.dw, word, amGet_amSet_same, BitVec.toNat_ofNat]

theorem State.dr_dw_other (s : State) (a b v : Nat) (h : b ≠ a) : (s.dw a v).dr b = s.dr b := by
  simp only [State.dr, State.dw]; rw [amGet_default_other _ _ _ _ _ _ h]

/-- R288, R289: n bytes of HBM read after they are written. -/
theorem State.hbmRead_hbmWrite (s : State) (a : Nat) (bs : List Byte) : (s.hbmWrite a bs).hbmRead a bs.length = bs :=
  amGetMany_amSetMany 0 bs s.mem.hbm a

end Sys2Proof.Machine
end

