-- ==== Sys2Proof/Laws/Memory.lean ====
section
/-! SUPPORT. Sys2Proof/Laws/Memory.lean: the canonical form of the byte stores holds at reset and every operation over
them keeps it; what a read of one byte gives after a write. -/

namespace Sys2Proof.Machine

theorem Memory.wf_iff (s : State) : Memory.wf s = true ↔
    amWf 0 s.mem.hbm = true ∧ amWf 0 s.hostMem = true ∧ (∀ c : Cl, amWf 0 (s.cl c).sp = true)
      ∧ ∀ y ∈ s.ctx.toList, ∀ p ∈ y.saved, amWf 0 p.2.sp = true := by
  simp only [Memory.wf, Bool.and_eq_true, List.all_eq_true, Vector.mem_toList_iff, State.cl]
  constructor
  · rintro ⟨⟨⟨a, b⟩, h⟩, g⟩; exact ⟨a, b, fun c => h _ (Vector.getElem_mem c.isLt), g⟩
  · rintro ⟨a, b, h, g⟩
    refine ⟨⟨⟨a, b⟩, fun k hk => ?_⟩, g⟩
    obtain ⟨i, hi, rfl⟩ := Vector.getElem_of_mem hk
    exact h ⟨i, hi⟩

theorem Memory.wf_reset : Memory.wf State.reset = true := by decide

/-- A change of one cluster keeps the form if it keeps the form of the scratchpad. -/
theorem State.mod_wf (s : State) (c : Cl) (f : Cluster → Cluster) (h : Memory.wf s = true)
    (hf : ∀ k, amWf 0 k.sp = true → amWf 0 (f k).sp = true) : Memory.wf (s.mod c f) = true := by
  rw [Memory.wf_iff] at *
  refine ⟨h.1, h.2.1, fun d => ?_, h.2.2.2⟩
  by_cases hd : d = c
  · subst hd; rw [State.cl_mod_same]; exact hf _ (h.2.2.1 d)
  · rw [State.cl_mod_other _ _ _ _ hd]; exact h.2.2.1 d

@[simp] theorem Cluster.spWrite_sp (k : Cluster) (a : Nat) (bs : List Byte) : (k.spWrite a bs).sp = amSetMany 0 k.sp a bs := rfl

/-- R263: a scratchpad write keeps the form. -/
theorem Cluster.spWrite_wf (k : Cluster) (a : Nat) (bs : List Byte) (h : amWf 0 k.sp = true) :
    amWf 0 (k.spWrite a bs).sp = true := amWf_amSetMany 0 bs k.sp a h

@[simp] theorem State.breakResv_sp (s : State) (a n : Nat) (c : Cl) : ((s.breakResv a n).cl c).sp = (s.cl c).sp := by
  simp only [State.cl, State.breakResv, Vector.getElem_map]
  split <;> (try split) <;> rfl

/-- R289: an HBM write keeps the form. -/
theorem State.hbmWrite_wf (s : State) (a : Nat) (bs : List Byte) (h : Memory.wf s = true) :
    Memory.wf (s.hbmWrite a bs) = true := by
  rw [Memory.wf_iff] at *
  refine ⟨amWf_amSetMany 0 bs _ a h.1, h.2.1, fun c => ?_, h.2.2.2⟩
  show amWf 0 ((s.breakResv a bs.length).cl c).sp = true
  rw [State.breakResv_sp]; exact h.2.2.1 c

/-- R354, R605: a write to host memory keeps the form, whether it goes out or is held. -/
theorem State.hostWrite_wf (s : State) (fn a : Nat) (bs : List Byte) (h : Memory.wf s = true) :
    Memory.wf (s.hostWrite fn a bs) = true := by
  rw [Memory.wf_iff] at *
  unfold State.hostWrite; split
  · exact ⟨h.1, amWf_amSetMany 0 bs _ a h.2.1, h.2.2⟩
  · exact h

/-- R289: a byte of HBM after a write: the byte written inside it, what was there before outside. -/
theorem State.hbmWrite_byte (s : State) (a : Nat) (bs : List Byte) (k : Nat) :
    amGet 0 (s.hbmWrite a bs).mem.hbm k = if a ≤ k then (bs[k - a]?).getD (amGet 0 s.mem.hbm k) else amGet 0 s.mem.hbm k :=
  amGet_amSetMany 0 bs s.mem.hbm a k

/-- R263: a byte of the scratchpad after a write. -/
theorem Cluster.spWrite_byte (k : Cluster) (a : Nat) (bs : List Byte) (j : Nat) :
    amGet 0 (k.spWrite a bs).sp j = if a ≤ j then (bs[j - a]?).getD (amGet 0 k.sp j) else amGet 0 k.sp j :=
  amGet_amSetMany 0 bs k.sp a j

end Sys2Proof.Machine
end

