-- ==== Sys2Proof/Laws/Cluster.lean ====
section
/-! SUPPORT. Sys2Proof/Laws/Cluster.lean: operations that change one cluster alone, and what each makes of it. -/

namespace Sys2Proof.Machine

/-! ### Nothing but one cluster differs -/

@[simp] theorem State.mod_mod (s : State) (c : Cl) (f g : Cluster → Cluster) :
    (s.mod c f).mod c g = s.mod c (fun k => g (f k)) := by
  simp [State.mod]

@[simp] theorem State.mod_self (s : State) (c : Cl) : s.mod c (fun k => k) = s := by
  simp [State.mod]

theorem State.mod_const (s : State) (c : Cl) (f : Cluster → Cluster) : s.mod c f = s.mod c (fun _ => f (s.cl c)) := rfl

theorem State.within_mod (s : State) (c : Cl) (f : Cluster → Cluster) : s.within (s.mod c f) c := by
  rw [State.within, State.cl_mod_same]; rfl

theorem State.within_refl (s : State) (c : Cl) : s.within s c := by
  have := State.within_mod s c (fun k => k)
  rwa [State.mod_self] at this

theorem State.within.trans {s t u : State} {c : Cl} (h : s.within t c) (k : t.within u c) : s.within u c := by
  rw [State.within] at *
  rw [k, h]; simp

/-- A state that differs in cluster c alone is the old one with that cluster changed. -/
theorem State.within_iff (s t : State) (c : Cl) : s.within t c ↔ ∃ f, t = s.mod c f :=
  ⟨fun h => ⟨_, h⟩, fun ⟨f, h⟩ => h ▸ State.within_mod s c f⟩

theorem State.within.others {s t : State} {c : Cl} (h : s.within t c) : s.sameOthers t c := by
  intro d hd; rw [h, State.cl_mod_other _ _ _ _ hd]

theorem State.within.keeps {α : Type} {s t : State} {c : Cl} (h : s.within t c) (g : State → α)
    (hg : ∀ f, g (s.mod c f) = g s) : g t = g s := by rw [h]; exact hg _

/-! ### The operations that stay within a cluster -/

@[simp] theorem State.core_eq (s : State) (c : Cl) (f : CoreSt → CoreSt) :
    s.core c f = s.mod c (fun k => { k with core := f k.core }) := rfl

@[simp] theorem State.cwf_eq (s : State) (c : Cl) (off hi lo v : Nat) : s.cwf c off hi lo v = s.mod c (fun k => k.wf off hi lo v) := rfl

@[simp] theorem State.progressed_eq (s : State) (c : Cl) :
    s.progressed c = s.mod c (fun k => { k with hangAt := s.timebase, hung := false }) := rfl

@[simp] theorem State.frozen_mod (s : State) (c : Cl) (f : Cluster → Cluster) : (s.mod c f).frozen = s.frozen := rfl

/-- R135, R730: counting in a cluster is a change of its register, or nothing while the counters are frozen. -/
theorem State.cinc_eq (s : State) (c : Cl) (a n : Nat) :
    s.cinc c a n = s.mod c (fun k => if s.frozen then k else k.w a ((k.r a + n) % 2 ^ 48)) := by
  unfold State.cinc; split <;> simp_all

theorem State.within_cinc (s : State) (c : Cl) (a n : Nat) : s.within (s.cinc c a n) c := by
  rw [State.cinc_eq]; exact State.within_mod _ _ _

/-- An instruction retires: the pc and the count of instructions move on, and a counter may. -/
theorem State.retire_eq (s : State) (c : Cl) (pc : Word) :
    s.retire c pc = s.mod c (fun k =>
      let k := { k with core := { k.core with pc := pc, instret := k.core.instret + 1, step := false } }
      let k := if s.frozen then k else k.w CL_CORE_CNT_INSTR ((k.r CL_CORE_CNT_INSTR + 1) % 2 ^ 48)
      { k with hangAt := s.timebase, hung := false }) := by
  simp only [State.retire, State.core_eq, State.cinc_eq, State.progressed_eq, State.mod_mod, State.frozen_mod]
  rfl

theorem State.within_retire (s : State) (c : Cl) (pc : Word) : s.within (s.retire c pc) c := by
  rw [State.retire_eq]; exact State.within_mod _ _ _

/-! ### What a register write leaves of a cluster -/

@[simp] theorem Cluster.w_core (k : Cluster) (o v : Nat) : (k.w o v).core = k.core := rfl
@[simp] theorem Cluster.w_tk (k : Cluster) (o v : Nat) : (k.w o v).tk = k.tk := rfl
@[simp] theorem Cluster.w_uq (k : Cluster) (o v : Nat) : (k.w o v).uq = k.uq := rfl
@[simp] theorem Cluster.w_hq (k : Cluster) (o v : Nat) : (k.w o v).hq = k.hq := rfl
@[simp] theorem Cluster.w_resq (k : Cluster) (o v : Nat) : (k.w o v).resq = k.resq := rfl
@[simp] theorem Cluster.w_tiles (k : Cluster) (o v : Nat) : (k.w o v).tiles = k.tiles := rfl
@[simp] theorem Cluster.w_lds (k : Cluster) (o v : Nat) : (k.w o v).lds = k.lds := rfl
@[simp] theorem Cluster.w_arr (k : Cluster) (o v : Nat) : (k.w o v).arr = k.arr := rfl
@[simp] theorem Cluster.w_vx (k : Cluster) (o v : Nat) : (k.w o v).vx = k.vx := rfl
@[simp] theorem Cluster.w_st (k : Cluster) (o v : Nat) : (k.w o v).st = k.st := rfl
@[simp] theorem Cluster.w_sp (k : Cluster) (o v : Nat) : (k.w o v).sp = k.sp := rfl
@[simp] theorem Cluster.w_bad (k : Cluster) (o v : Nat) : (k.w o v).bad = k.bad := rfl
@[simp] theorem Cluster.w_lctr (k : Cluster) (o v : Nat) : (k.w o v).lctr = k.lctr := rfl
@[simp] theorem Cluster.w_ws (k : Cluster) (o v : Nat) : (k.w o v).ws = k.ws := rfl
@[simp] theorem Cluster.w_wait (k : Cluster) (o v : Nat) : (k.w o v).wait = k.wait := rfl
@[simp] theorem Cluster.w_owner (k : Cluster) (o v : Nat) : (k.w o v).owner = k.owner := rfl
@[simp] theorem Cluster.w_wiping (k : Cluster) (o v : Nat) : (k.w o v).wiping = k.wiping := rfl
@[simp] theorem Cluster.w_launch (k : Cluster) (o v : Nat) : (k.w o v).launch = k.launch := rfl
@[simp] theorem Cluster.w_misses (k : Cluster) (o v : Nat) : (k.w o v).misses = k.misses := rfl
@[simp] theorem Cluster.w_cc (k : Cluster) (o v : Nat) : (k.w o v).cc = k.cc := rfl

@[simp] theorem Cluster.r_w_same (k : Cluster) (o v : Nat) : (k.w o v).r o = v % 2 ^ 64 := by
  simp [Cluster.r, Cluster.w, word, amGet_amSet_same, BitVec.toNat_ofNat]

theorem Cluster.r_w_other (k : Cluster) (o p v : Nat) (h : p ≠ o) : (k.w o v).r p = k.r p := by
  simp only [Cluster.r, Cluster.w]; rw [amGet_default_other _ _ _ _ _ _ h]

/-! ### The core's registers (R213) -/

theorem CoreSt.get_set (k : CoreSt) (r i : Nat) (v : Word) (hi : i < 32) :
    (k.set r v).get i = if i = r ∧ i ≠ 0 then v else k.get i := by
  by_cases hr : r < 32 <;> by_cases h0 : r = 0 <;> by_cases hi0 : i = 0 <;> by_cases h : r = i <;>
    simp_all [CoreSt.get, CoreSt.set] <;> grind

theorem CoreSt.get_high (k : CoreSt) (i : Nat) (hi : ¬ i < 32) : k.get i = 0 := by simp [CoreSt.get, hi]

/-! ### Lines missed by a fetch (R219) -/

/-- R219: filling the instruction cache stays within the cluster and leaves everything but that cache and a counter. -/
theorem State.fillI_spec (s : State) (c : Cl) (ms : List Nat) :
    ∃ f : Cluster → Cluster, s.fillI c ms = s.mod c f ∧
      ∀ k, ∃ ic rg, f k = { k with core := { k.core with icache := ic }, regs := rg } := by
  induction ms generalizing s with
  | nil => exact ⟨fun k => k, by simp [State.fillI], fun k => ⟨_, _, rfl⟩⟩
  | cons l t ih =>
    simp only [State.fillI, List.foldl_cons] at ih ⊢
    split
    · rename_i p ro hp
      obtain ⟨f, hf, hk⟩ := ih ((s.cinc c CL_CORE_CNT_ICMISS 1).core c (fun k =>
        { k with icache := (if k.icache.length < 512 then k.icache else k.icache.tail) ++ [(l, s.hbmRead p 64)] }))
      refine ⟨_, by rw [hf, State.core_eq, State.cinc_eq, State.mod_mod, State.mod_mod], fun k => ?_⟩
      obtain ⟨ic, rg, h⟩ := hk { (if s.frozen then k else k.w CL_CORE_CNT_ICMISS ((k.r CL_CORE_CNT_ICMISS + 1) % 2 ^ 48)) with
        core := { (if s.frozen then k else k.w CL_CORE_CNT_ICMISS ((k.r CL_CORE_CNT_ICMISS + 1) % 2 ^ 48)).core with
          icache := (if (if s.frozen then k else k.w CL_CORE_CNT_ICMISS ((k.r CL_CORE_CNT_ICMISS + 1) % 2 ^ 48)).core.icache.length < 512
            then (if s.frozen then k else k.w CL_CORE_CNT_ICMISS ((k.r CL_CORE_CNT_ICMISS + 1) % 2 ^ 48)).core.icache
            else (if s.frozen then k else k.w CL_CORE_CNT_ICMISS ((k.r CL_CORE_CNT_ICMISS + 1) % 2 ^ 48)).core.icache.tail) ++ [(l, s.hbmRead p 64)] } }
      refine ⟨ic, rg, ?_⟩
      rw [h]
      split <;> rfl
    · exact ih s

theorem State.within_fillI (s : State) (c : Cl) (ms : List Nat) : s.within (s.fillI c ms) c := by
  obtain ⟨f, hf, _⟩ := State.fillI_spec s c ms
  rw [hf]; exact State.within_mod _ _ _

end Sys2Proof.Machine
end

