-- ==== Sys2Proof/Tests/Slice0.lean ====
section
/-! SUPPORT. Sys2Proof/Tests/Slice0.lean: for every statement with hypotheses a state and operands that meet them; a few
results worked out by hand from the spec; and ill-formed commands that the checks refuse. -/

set_option Elab.async false

namespace Sys2Proof.Tests

open Sys2Proof Sys2Proof.Machine Sys2Proof.Claims

/-! ### Small states -/

/-- Reset, with cluster 0 changed. -/
def tCl (f : Cluster → Cluster) : State := State.reset.mod 0 f

/-- A running core at the start of page 0 of context 0, which is mapped to frame 0 and holds the words. -/
def tCore (ws : List Nat) (f : Cluster → Cluster) : State :=
  ((State.reset.setPage 0 0 3).hbmWrite 0 (ws.flatMap (leBytes 4))).mod 0 (fun k =>
    f { (k.wf CL_CORE_CTRL 0 0 1) with core := { k.core with mode := .running, user := true, pc := word (2 ^ 60) } })

/-- Register r of a core set to v. -/
def tSet (r v : Nat) (k : Cluster) : Cluster := { k with core := k.core.set r (word v) }


/-! ### The control core -/

/-- custom-0 to custom-3 words, fields from R129 and R223: x5 in rd, x6 and x7 as operands. -/
def engWord (op f3 rd rs1 rs2 : Nat) : Nat := encR 0 rs2 rs1 f3 rd op

/-- Whether the core is at engine instruction e with word w and room in its queue. -/
def atEng (e : EngOp) (w : Nat) (f : Cluster → Cluster) : Bool :=
  (tCore [w] f).engAt 0 e == some (w, [2 ^ 60 / 64])

theorem witness_EngineIssue :
    atEng .tileCfg (engWord 0x0B 0 5 6 0) id ∧ atEng .tileLd (engWord 0x0B 1 3 6 7) id ∧ atEng .tileRel (engWord 0x0B 2 0 6 0) id
    ∧ atEng .mxLoad (engWord 0x2B 0 0 0 1) id ∧ atEng .mxRun (engWord 0x2B 1 5 6 7) id ∧ atEng .mxGauge (engWord 0x2B 2 5 6 0) id
    ∧ atEng .vxChain (engWord 0x5B 0 5 6 7) id ∧ atEng .stPost (engWord 0x5B 1 5 6 0) id ∧ atEng .stResume (engWord 0x5B 2 5 6 0) id
    ∧ atEng .sySig (engWord 0x7B 0 0 6 7) id ∧ atEng .syWait (engWord 0x7B 1 5 6 7) id ∧ atEng .syWatch (engWord 0x7B 2 5 6 7) id
    ∧ atEng .syWaitinv (engWord 0x7B 3 5 6 7) id := by decide +kernel

/-- A full array queue. -/
theorem witness_EngineIssue_full : atEng .mxRun (engWord 0x2B 1 5 6 7) (fun k =>
    k.setUnit .array ⟨List.replicate 16 ⟨0, 0, 0, 0, 0⟩, 16⟩) := by decide +kernel

theorem witness_Fences :
    atEng .fenceEng (engWord 0x7B 4 0 6 0) (tSet 6 63) ∧ atEng .fenceEng (engWord 0x7B 4 0 6 0) (tSet 6 0)
    ∧ atEng .fenceKern (engWord 0x7B 5 0 0 0) id ∧ atEng .cacheInv (engWord 0x7B 6 0 6 7) (tSet 7 64)
    ∧ atEng .cacheInv (engWord 0x7B 6 0 6 7) (tSet 7 0) := by decide +kernel

/-- A running core with a stall. -/
def tStall (st : Stall) : State := tCore [0x13] (fun k => { k with core := { k.core with stall := st } })

theorem witness_FencesComplete :
    ((tStall (.fenceEng 63 1)).unitsQuiet 0 63 1 = true ∧ ((tStall (.fenceEng 63 1)).cl 0).run = true)
    ∧ ((tStall (.fenceEng 2 1)).mod 0 (fun k => k.setUnit .array ⟨[⟨0, 0, 0, 0, 0⟩], 1⟩)).unitsQuiet 0 2 1 = false
    ∧ ((tStall (.fenceKern 1)).kernQuiet 0 1 = true ∧ (((tStall (.fenceKern 1)).ccFlush 0).cl 0).run = true)
    ∧ (((tStall (.cacheInv 0 64)).ccInv 0 (lineIn 0 64)).cl 0).run = true := by decide +kernel

/-- A core at an ecall with call number n. -/
def tCall (n : Nat) (f : Cluster → Cluster) : State := tCore [0x73] (fun k => f (tSet 17 n k))

/-- In a handler whose area is the scratchpad at 0. -/
def tHand (k : Cluster) : Cluster := { k with core := { k.core with inHand := true, area := 0 } }

theorem witness_EnvironmentCalls :
    (tCall 0 id).ecallAt 0 (· == 0) = some [2 ^ 60 / 64] ∧ (tCall 1 id).ecallAt 0 (· == 1) = some [2 ^ 60 / 64]
    ∧ (tCall 9 id).ecallAt 0 (fun n => decide (4 ≤ n)) = some [2 ^ 60 / 64] ∧ (tCall 3 id).ecallAt 0 (· == 3) = some [2 ^ 60 / 64]
    ∧ ((tCall 2 id).ecallAt 0 (· == 2) = some [2 ^ 60 / 64] ∧ ((tCall 2 id).cl 0).core.inHand = false)
    ∧ ((tCall 2 tHand).ecallAt 0 (· == 2) = some [2 ^ 60 / 64] ∧ ((tCall 2 tHand).cl 0).core.inHand = true) := by decide +kernel

/-- The handler's area can be read, and no PEND bit of its entry is still set. -/
theorem witness_EnvironmentCalls_hret :
    (match ((tCall 2 tHand).fillI 0 [2 ^ 60 / 64]).loadWords 0 (((tCall 2 tHand).fillI 0 [2 ^ 60 / 64]).cl 0).core.area.toNat 32 with
     | .ok _ u => Nat.land (u.cl 0).core.handPend (u.cl 0).pendBits == 0
     | _ => false) = true := by decide +kernel

/-- A running core with cause 17 pending, a handler at h that takes the causes of a mask. -/
def tIrq (n h fwd : Nat) : State := tCore [0x13] (fun k => tSet 2 4096 { k with
  core := { k.core with irqs := [n], handler := word h, fwd := fwd } })

theorem witness_Interrupts :
    ((tIrq 17 0 0).cl 0).coreStopped = false ∧ ((tIrq 17 0 0).cl 0).coreHalted = false ∧ ((tIrq 17 0 0).cl 0).wiping = false
    ∧ ((tIrq 17 0 0).cl 0).core.inHand = false ∧ ((tIrq 17 0 0).cl 0).irqPending 17 = true
    ∧ (((tIrq 17 0 0).mod 0 (fun k => k.wf CL_FLT_INFO 5 5 1)).cl 0).irqPending 16 = true := by decide +kernel

theorem witness_Interrupts_handler :
    ((tIrq 17 (2 ^ 60) 31).cl 0).irqPending 17 = true ∧ ((tIrq 17 (2 ^ 60) 31).cl 0).core.handler ≠ 0
    ∧ bit ((tIrq 17 (2 ^ 60) 31).cl 0).core.fwd 1 = true ∧ ((tIrq 17 (2 ^ 60) 31).cl 0).core.awaiting = []
    ∧ ((((tIrq 17 (2 ^ 60) 31).cl 0).core.get 2).toNat + 2 ^ 64 - 256) % 2 ^ 64 % 8 = 0
    ∧ ((tCall 2 tHand).cl 0).core.inHand = true := by decide +kernel

theorem witness_Interrupts_save :
    (match (tIrq 17 (2 ^ 60) 31).saveWords 0 3840
        (((tIrq 17 (2 ^ 60) 31).cl 0).core.pc :: (upFrom 1 31).map ((tIrq 17 (2 ^ 60) 31).cl 0).core.get) with
     | .ok _ _ => true
     | _ => false) = true := by decide +kernel

/-- A core may carry out the word at its pc. -/
def coreAtB (w : Nat) (f : Cluster → Cluster) : Bool :=
  ((tCore [w] f).cl 0).coreReady && !((tCore [w] f).atBreak 0) && !(ownRow w) && !(((tCore [w] f).cl 0).core.awaits w)
    && decide ((tCore [w] f).fetch 0 = .ok w 4 [2 ^ 60 / 64]) && decide (baseWord w 4 = some w)

theorem coreAt_of (w : Nat) (f : Cluster → Cluster) (h : coreAtB w f = true) : CoreAt (tCore [w] f) 0 w 4 [2 ^ 60 / 64] := by
  simp [coreAtB] at h
  exact ⟨h.1.1.1.1.1, h.1.1.1.1.2, h.1.1.1.2, h.1.1.2, w, h.1.2, h.2⟩

/-- ADD, ADDW, ADDI, SRAIW, LUI and AUIPC. -/
theorem witness_Arithmetic :
    (coreAtB (encR 0 7 6 0 5 0x33) id ∧ (opValue (encR 0 7 6 0 5 0x33) 3 4).isSome)
    ∧ (coreAtB (encR 0 7 6 0 5 0x3B) id ∧ (opValue (encR 0 7 6 0 5 0x3B) 3 4).isSome)
    ∧ (coreAtB (encI 0x7FF 6 0 5 0x13) id ∧ (opImmValue (encI 0x7FF 6 0 5 0x13) 1).isSome)
    ∧ (coreAtB (encI 0x41F 6 5 5 0x1B) id ∧ (opImmValue (encI 0x41F 6 5 5 0x1B) 1).isSome)
    ∧ coreAtB (encU 0xFFFFF 5 0x37) id ∧ coreAtB (encU 0xFFFFF 5 0x17) id := by decide +kernel

/-- JAL, JALR, BEQ taken and BNE not taken. -/
theorem witness_Jumps :
    coreAtB (encJ 2048 1) id ∧ coreAtB (encI 8 6 0 1 0x67) id ∧ coreAtB (encB 8 6 0) id ∧ coreAtB (encB 8 6 1) id
    ∧ branchTaken 0 0 0 = some true ∧ branchTaken 1 0 0 = some false := by decide +kernel

/-- LD at the last doubleword, SB at the last byte, SD, and SW over a good word of the scratchpad. -/
theorem witness_ScratchpadLoads :
    coreAtB (encI 0 6 3 5 0x03) (tSet 6 524280) ∧ wrapInt 64 (((524280 : Nat) : Int) + immI (encI 0 6 3 5 0x03)) = 524280
    ∧ coreAtB (encS 0 7 6 0 0x23) (tSet 6 524287) ∧ coreAtB (encS 0 7 6 3 0x23) (tSet 6 0)
    ∧ wrapInt 64 (((524287 : Nat) : Int) + immS (encS 0 7 6 0 0x23)) = 524287 := by decide +kernel

theorem witness_Exceptions :
    ((tCore [0] id).fetch 0 = .ok 0 2 [2 ^ 60 / 64] ∧ baseWord 0 2 = none)
    ∧ ((tCore [0] (fun k => { k with core := { k.core with pc := 0 } })).fetch 0 = .fault 0)
    ∧ (coreAtB (encI 1 0 3 5 0x03) id ∧ misaligned 1 8 = true) ∧ (coreAtB (encS 1 0 0 3 0x23) id)
    ∧ (coreAtB (encI 0 6 3 5 0x03) (tSet 6 524288)
        ∧ ((tCore [encI 0 6 3 5 0x03] (tSet 6 524288)).fillI 0 [2 ^ 60 / 64]).space 0 524288 8 = .none)
    ∧ coreAtB 0x00100073 id
    ∧ bit (((tCore [0x00100073] id).dw MG_DBG_ATTACH 1).dr MG_DBG_ATTACH) 0 = true := by decide +kernel

/-- Page 1 absent from the page map of context 0, page 0 resident; a miss of a load, and a prefetch. -/
def tMiss (us : List MissUse) : State := tCore [0x13] (fun k => { k with misses := [⟨2 ^ 60 / 64, us, us.isEmpty⟩] })

theorem witness_CoreAccesses :
    ((tStall (.page 0 1 0)).translate 0 0 = .at_ 0 false ∧ ((tStall (.page 0 1 0)).cl 0).run = true)
    ∧ (((tMiss []).cl 0).misses.find? (fun m => m.line == 2 ^ 60 / 64)).isSome
    ∧ (tMiss []).translate 0 (gOff (2 ^ 60 / 64 * 64)) = .at_ 0 false
    ∧ (((tMiss [.load 5 8 true (2 ^ 60) 0]).cl 0).misses.find? (fun m => m.line == 2 ^ 60 / 64)).isSome
    ∧ (let s := tStall (.hostRead 5 8 true 0 4); ({ s with pcie := { s.pcie with bme := 1 } } : State).mayMaster 0 = true) := by
  decide +kernel

/-- A queue with one entry, a full one, one result; and a busy array. -/
def tQueue (n : Nat) : State := tCl (fun k => { k with
  hq := k.hq.set 0 (List.replicate n ⟨7, none⟩), resq := [0x105] })

theorem witness_HandleQueues :
    (((tQueue 15).cl 0).queue 0).length < 16 ∧ 16 ≤ (((tQueue 16).cl 0).queue 0).length
    ∧ bit ((tQueue 15).cr 0 CL_Q_SIG) 6 = false ∧ ((tQueue 1).cl 0).queue 0 = [⟨7, none⟩] ∧ ((tQueue 1).cl 0).queue 1 = []
    ∧ ((tQueue 0).cl 0).resq = [0x105] ∧ ((tCl id).cl 0).resq = []
    ∧ ((tCl id).cl 0).arrayIdle = true ∧ ((tCl id).cl 0).vectorIdle = true
    ∧ ((tCl (fun k => k.setUnit .array ⟨[⟨0, 0, 0, 0, 0⟩], 1⟩)).cl 0).arrayIdle = false
    ∧ bits (word 3).toNat 2 0 ≠ ((tCl id).cl 0).port 0 := by decide +kernel

theorem witness_Launch :
    ((tCl id).cl 0).run = false ∧ ((tCore [0x13] id).cl 0).run = true ∧ ((tCore [0x13] id).cl 0).core.stall = .none
    ∧ (let s : State := { tCl (fun k => { k with rateOk := true, rateN := 6144 }) with timebase := 4096 }
       (s.cl 0).rateWin < s.timebase / 4096 ∧ (s.cl 0).rateOk = true) := by decide +kernel

/-- Debug access open, over a running core whose HALT is h. -/
def tDebug (h : Nat) : State := (tCore [0x13] (fun k => k.wf CL_CORE_CTRL 1 1 h)).dw MG_DBG_STATUS 1

theorem witness_DebugControl :
    ((tDebug 0).debugOpen = true ∧ ((tDebug 0).cl 0).haltBit = false ∧ ((tDebug 0).cl 0).coreReady = true ∧ (tDebug 0).blocked 0 = false)
    ∧ ((tCore [0x13] id).debugOpen = false ∧ ((tCore [0x13] id).cl 0).haltBit = false)
    ∧ (((tDebug 1).cl 0).haltBit = true ∧ ((tDebug 1).cl 0).coreHalted = true)
    ∧ (toCl (bits ((tDebug 1).dr MG_DBG_CSEL) 5 0) = some 0 ∧ ((tDebug 1).cl 0).coreState = 2
        ∧ ((tDebug 1).cl 0).core.dbgReg 36 = some 0 ∧ (tDebug 1).dr MG_DBG_MADDR % 8 = 0)
    ∧ (let s : State := { (tCore [0x13] id).dw MG_DBG_HANG 1 with timebase := 1000000 }
       0 < bits (s.dr MG_DBG_HANG) 15 0 ∧ (s.cl 0).hung = false ∧ (s.cl 0).coreState ≠ 0
        ∧ (s.cl 0).hangAt + 1000000 * bits (s.dr MG_DBG_HANG) 15 0 ≤ s.timebase)
    ∧ bit (word (2 ^ 8)).toNat (4 + unitNo .sync) = true := by decide +kernel

theorem witness_DebugControl_load :
    (match (tDebug 1).memLoad 0 ((tDebug 1).dr MG_DBG_MADDR) 8 .clean true with
     | .ok _ _ => true
     | _ => false) = true := by decide +kernel

/-! ### Tile unit, array and vector engine -/

/-- Cluster 0 with q at the head of unit u. -/
def tHead (u : EngUnit) (q : QInsn) (f : Cluster → Cluster) : State := tCl (fun k => f (k.setUnit u ⟨[q], 1⟩))

/-- An engine instruction with operand values a and b. -/
def tInsn (op f3 a b : Nat) : QInsn := ⟨BitVec.ofNat 32 (engWord op f3 5 6 7), word a, word b, 0, 0⟩

/-- tile.cfg of register 0 as a stationary FP8 E4M3 tile; of no shape. -/
def qCfg (a : Nat) : QInsn := ⟨BitVec.ofNat 32 (engWord 0x0B 0 5 6 0), word a, 0, 0, 0⟩
def aCfg : Nat := 1 * 8 + Fmt.code .e4m3 * 64

/-- tile.ld of 2 rows into register 3, its word's t field. -/
def qLd : QInsn := ⟨BitVec.ofNat 32 (encR 0 7 6 1 3 0x0B), word (2 ^ 60), word (2 * 1024), 0, 0⟩

/-- Register 3 shaped for stream rows of FP8 E4M3. -/
def tShaped (k : Cluster) : Cluster := k.setTile 3 { k.tile 3 with shape := 3, fmt := .e4m3, rows := 4, valid := [0, 1, 2, 3] }

/-- Register 0 holding a stationary tile of two rows, both valid. -/
def tFull (k : Cluster) : Cluster :=
  k.setTile 0 { k.tile 0 with shape := 1, fmt := .e4m3, rows := 2, valid := [0, 1] }

/-- A store that holds a tile, so that rows may run from register 3. -/
def tHeld (k : Cluster) : Cluster := tShaped { k with arr := { k.arr with st0 := { held := true, fmt := .e4m3 } } }

/-- mx.run of 4 rows with CLR from register 3 (kind 1), or from the queue (kind 0). -/
def qRun (kind : Nat) : QInsn :=
  ⟨BitVec.ofNat 32 (engWord 0x2B 1 5 6 7), word (4 + 2 ^ 18 + Fmt.code .e4m3 * 2 ^ 26), word (kind + 6 * kind), 0, 0⟩
def qLoad : QInsn := ⟨BitVec.ofNat 32 (engWord 0x2B 0 0 0 0), 0, 0, 0, 0⟩

theorem witness_TileAccept :
    ((tHead .tile (qCfg aCfg) id).cl 0).ready .tile 0 = some (qCfg aCfg)
    ∧ tileCfgCheck ((tHead .tile (qCfg aCfg) id).cl 0) (qCfg aCfg) = .pass ∧ Fmt.ofCode (bits (word aCfg).toNat 9 6) = some .e4m3
    ∧ ((tHead .tile (tInsn 0x0B 2 0 0) id).cl 0).ready .tile 2 = some (tInsn 0x0B 2 0 0)
    ∧ ((tHead .tile qLd tShaped).cl 0).ready .tile 1 = some qLd ∧ tileLdCheck ((tHead .tile qLd tShaped).cl 0) qLd = .pass := by
  decide +kernel

theorem witness_ArrayAccept :
    ((tHead .array qLoad tFull).cl 0).ready .array 0 = some qLoad ∧ mxLoadOk ((tHead .array qLoad tFull).cl 0) qLoad = true
    ∧ ((tHead .array (tInsn 0x2B 2 0 0) id).cl 0).ready .array 2 = some (tInsn 0x2B 2 0 0)
    ∧ ((tHead .array (qRun 1) tHeld).cl 0).ready .array 1 = some (qRun 1)
    ∧ mxRunCheck1 ((tHead .array (qRun 1) tHeld).cl 0) (runDesc (qRun 1)) = .pass
    ∧ mxRunCheck2 ((tHead .array (qRun 1) tHeld).cl 0)
        (mkRun ((tHead .array (qRun 1) tHeld).cl 0) (qRun 1) (runDesc (qRun 1)) .e4m3 none ⟨0, 0⟩) = .pass := by decide +kernel

/-- Queue Q0 with one handle, of a buffer of 4 KiB. -/
def tQ0 (k : Cluster) : Cluster :=
  tHeld { (k.w CL_PROP (place 26 13 64 + 2 ^ 27)) with hq := k.hq.set 0 [⟨0, none⟩] }

theorem witness_ArrayAccept_queue :
    ((tHead .array (qRun 0) tQ0).cl 0).ready .array 1 = some (qRun 0) ∧ (runDesc (qRun 0)).kind = false
    ∧ mxRunCheck1 ((tHead .array (qRun 0) tQ0).cl 0) (runDesc (qRun 0)) = .pass
    ∧ (((tHead .array (qRun 0) tQ0).cl 0).queue (((tHead .array (qRun 0) tQ0).cl 0).port 0)).head? = some ⟨0, none⟩
    ∧ mxRunCheck2 ((tHead .array (qRun 0) tQ0).cl 0) (mkRun ((tHead .array (qRun 0) tQ0).cl 0) (qRun 0) (runDesc (qRun 0)) .e4m3
        (some ⟨0, none⟩) (((tHead .array (qRun 0) tQ0).cl 0).prop 0)) = .pass := by decide +kernel

theorem witness_Discard :
    ((tHead .array (qRun 1) (fun k => k.wf CL_FLT_INFO 5 5 1)).cl 0).pend .array = true
    ∧ ((tHead .array (qRun 1) (fun k => k.wf CL_FLT_INFO 5 5 1)).cl 0).head .array = some (qRun 1) := by decide +kernel

/-- The example of 06_cluster_control.md: instruction 3 of the array, with the results it gives. -/
def qExample : QInsn := ⟨0x00C5952B, 0x08060080, 5, 3, 9⟩
def tExample : State := tHead .array qExample (fun k => (k.setTile 2
  { k.tile 2 with shape := 3, fmt := .e4m3, rows := 128 }).wf CL_MX_CTRL 0 0 0)
def tExampleHeld : State := tExample.mod 0 (fun k => { k with arr := { k.arr with st0 := { held := true, fmt := .e4m3 } } })

theorem witness_EngineFaults :
    tileCfgCheck ((tHead .tile (qCfg 0) id).cl 0) (qCfg 0) = .fault SHAPE
    ∧ tileLdCheck ((tHead .tile qLd id).cl 0) qLd = .fault SHAPE ∧ bits (word 8).toNat 63 3 ≠ 0
    ∧ mxLoadOk ((tHead .array qLoad id).cl 0) qLoad = false ∧ bits (word 65536).toNat 63 16 ≠ 0
    ∧ mxRunCheck1 (tExampleHeld.cl 0) (runDesc qExample) = .fault EXTENT
    ∧ (tExampleHeld.cl 0).ready .array 1 = some qExample := by decide +kernel

/-- The capture that the example of 06_cluster_control.md gives. -/
theorem test_example_fault : (match exec (.mxRunAccept 0 false) tExampleHeld with
    | .next t => decide (bits (t.cr 0 CL_FLT_INFO) 2 0 = 1 ∧ bits (t.cr 0 CL_FLT_INFO) 31 16 = EXTENT
        ∧ bits (t.cr 0 CL_FLT_INFO) 47 32 = 3 ∧ t.cr 0 CL_FLT_INSN = 0x00C5952B ∧ t.cr 0 CL_FLT_RS1 = 0x08060080
        ∧ t.cr 0 CL_FLT_RS2 = 5 ∧ (t.cl 0).core.get 10 = allOnes)
    | _ => false) = true := by decide +kernel

/-- A running tile.ld of one row, its page resident. -/
def tLd : State := tCore [0x13] (fun k => (tShaped k).setTile 3 { (tShaped k).tile 3 with valid := [] })
def lLd : TileLd := { tk := 0, t := 3, addr := 2 ^ 60, first := 0, count := 1, stride := 0, scoff := 0 }

theorem witness_ArrayPipeline_load :
    (ldsOpen ((tLd.mod 0 (fun k => { k with lds := [lLd] })).cl 0).lds).find?
        (fun l => decide (l.first ≤ 0) && l.issuedRow (0 - l.first)) = some lLd
    ∧ ((tLd.mod 0 (fun k => { k with lds := [lLd] })).ldRead 0 lLd 0).1.cause = 0 := by decide +kernel

/-- A load, and a run of one row from register 3, accepted. -/
def lMx : MxLoad := { tk := 1, t := 0, pack := 0, rep := false, fmt := .e4m3 }
def rMx : MxRun :=
  { tk := 2, num := 7, count := 1, base := 0, clr := true, swap := false, axis := false, cb := 0, fmt := .e4m3, gauge := {},
    pack := 0, treg := some 3, handle := none, buf := ⟨0, 0⟩, accepted := 0 }

theorem witness_ArrayPipeline :
    ((tCl (fun k => tFull { k with arr := { k.arr with loads := [lMx] } })).cl 0).arr.startable = some lMx
    ∧ loadKib lMx.fmt + 4 ≤ 36
    ∧ ((tCl (fun k => tHeld { k with steps := 4, arr := { k.arr with runs := [rMx], idle := 0 } })).cl 0).admissible = some rMx
    ∧ (let k := (tCl (fun k => tHeld { k with steps := 4, arr := { k.arr with runs := [rMx], idle := 0 } })).cl 0
       k.stepReady = true ∧ k.starved = true)
    ∧ (let k := (tCl (fun k => { k with resq := List.replicate 8 0, arr := { k.arr with pushes := [.result 1] } })).cl 0
       k.stepReady = true ∧ k.backpressure = true)
    ∧ (let k := (tCl (fun k => { k with arr := { k.arr with pushes := [.handle ⟨1, none⟩] } })).cl 0
       k.room (k.port 1) = true ∧ bit (k.r CL_Q_SIG) (8 * k.port 1 + 6) = false)
    ∧ ((tCl (fun k => { k with arr := { k.arr with runs := [{ rMx with verdicts := 1 }] } })).cl 0).arr.completable
        = some { rMx with verdicts := 1 } := by decide +kernel

/-- A chain of one beat of one element over an immediate source; and a gauged one that reduces one accumulator entry. -/
def dChain (b0 b1 t0 : Byte) : List Byte :=
  [b0, b1, 0, 0, 1, 0, 1, 0, 1, 0, 1, 0] ++ List.replicate 180 0 ++ [t0] ++ List.replicate 127 0
def qChain : QInsn := ⟨BitVec.ofNat 32 (engWord 0x5B 0 5 6 7), 0, 0, 0, 0⟩
def tChain : State := tHead .vector qChain (fun k => { k with sp := amSetMany 0 [] 0 (dChain 0 0 0xC5) })
def xChain : Chain := { num := 3, tk := 0, desc := dChain 0 0 0xC5, sig := none, loaded := true }
def xGauged : Chain := { num := 3, tk := 0, desc := dChain 0x10 5 0xC4, sig := none, loaded := true }
def tVx (x : Chain) : State := tCl (fun k => { k with
  vx := { k.vx with chains := [x] }
  arr := { k.arr with blocks := [(0, 65536 + Gauge.code { mode := true })] } })

theorem witness_VectorChains :
    ((tChain.cl 0).ready .vector 0 = some qChain ∧ tChain.usWaits 0 = false
      ∧ (tChain.cl 0).queuesReady ((tChain.cl 0).spRead 0 320) = true
      ∧ (tChain.cl 0).chainCheck qChain ((tChain.cl 0).spRead 0 320) = .pass)
    ∧ (((tVx xGauged).cl 0).vx.current = some xGauged ∧ ((tVx xGauged).cl 0).vx.hold = 0
      ∧ ((tVx xGauged).cl 0).beatRefused xGauged 0 ((chainD xGauged.desc).lanes 0)
          ((((tVx xGauged).cl 0).rawValues xGauged ((chainD xGauged.desc).lanes 0) []).map (·.1)) = true)
    ∧ (((tVx xChain).cl 0).vx.current = some xChain ∧ (chainD xChain.desc).kind = false)
    ∧ (({ xChain with beat := 1 } : Chain).busy = false
      ∧ ((tVx { xChain with beat := 1 }).cl 0).roomFor (((tVx { xChain with beat := 1 }).cl 0).chainPushes { xChain with beat := 1 }) = true)
    ∧ (tChain.cl 0).chainCheck { qChain with rs1 := 1 } ((tChain.cl 0).spRead 0 320) = .fault SHAPE := by decide +kernel

/-! ### Scratchpad, shared cache, HBM, registers -/

/-- Cluster 0 with its scrubber on. -/
def tScrub (k : Cluster) : Cluster := k.wf CL_SP_CTRL 0 0 1
def opFill : SpOp := ⟨false, 64, 16, 5, [], [], 0, false, 0⟩
def aIn : Arrival := { chip := 5, off := 128, words := [7], from_ := .host }
/-- Window 0 over the first 4 KiB, for any chip, with counter 3. -/
def tWin (k : Cluster) : Cluster := k.w CL_SP_WIN (place 26 13 64 + place 32 27 3 + 2 ^ 34 + 2 ^ 47)

theorem witness_ScratchpadUnit :
    (bit ((tCl tScrub).cr 0 CL_SP_CTRL) 0 = true ∧ ((tCl tScrub).cl 0).wiping = false
      ∧ ((tCl tScrub).cl 0).bad.contains (bits ((tCl tScrub).cr 0 CL_SP_SCRUB) 15 0) = false
      ∧ bits ((tCl (fun k => (tScrub k).w CL_SP_SCRUB 65535)).cr 0 CL_SP_SCRUB) 15 0 = 65535)
    ∧ ((tCl (fun k => { k with fix := [3] })).cl 0).fix = [3]
    ∧ bit (word (2 ^ 28)).toNat 28 = true
    ∧ (((tCl (fun k => { k with op := some opFill })).cl 0).op = some opFill ∧ opFill.copy = false ∧ opFill.bad = []
      ∧ opFill.sig = false ∧ opFill.len % 8 = 0)
    ∧ (((tCl (fun k => { tWin k with waitA := [aIn] })).cl 0).waitA = [aIn] ∧ aIn.chip < 4096
      ∧ ((tCl (fun k => { tWin k with waitA := [aIn] })).cl 0).admits aIn.chip aIn.off (8 * aIn.words.length) = some 0
      ∧ ((tCl (fun k => { k with waitA := [aIn] })).cl 0).admits aIn.chip aIn.off (8 * aIn.words.length) = none)
    ∧ (((tCl (fun k => { k with admA := [⟨aIn, 3, true⟩] })).cl 0).ctr 3 + arrivalInc ⟨aIn, 3, true⟩ < 2 ^ 48
      ∧ ((tCl (fun k => { k with admA := [⟨aIn, 3, true⟩] })).cl 0).pairBroken 3 1 = false
      ∧ ((tCl (fun k => { k with admA := [⟨{ aIn with amo := some 0 }, 3, true⟩] })).cl 0).bad.contains (aIn.off / 8) = false)
    ∧ (((State.reset.modCx 2 (fun x => { x with overQ := true })).mod 0 (fun k => { k with owner := 2 })).cx 2).overQ = true
    ∧ (((State.reset.modCx 2 (fun x => { x with overQ := true })).mod 0 (fun k => { k with owner := 2 })).kernelRuns 2) = false := by
  decide +kernel

/-- A line of slice 1 in the shared cache. -/
def tgShc : Tag := { addr := 4, dirty := false, cls := 0, hint := 1, ctx := 0, pf := true, age := 3 }
def tShc : State := { State.reset with mem := { State.reset.mem with tags := [(shcKey 1 256 2, tgShc)] } }
def rqShc : ShcReq := ⟨256, true, false, 0, 2, 0, false⟩
def mShc : ShcMiss := ⟨1, 4, false, 0, 1, 0, false⟩
def tShcMiss : State := { State.reset with mem := { State.reset.mem with misses := [mShc] } }
/-- Stack 1 serving requests, one waiting at slice 1 and one held. -/
def rqTr : Track := { slice := 1, block := 1, write := false, held := true, sent := true }
def tTrack : State :=
  ({ State.reset with mem := { State.reset.mem with wiping := false, track := [{ slice := 1, block := 3, write := false }, rqTr] } }).dw
    (stkReg HM_STK_STATUS 1) 2

theorem witness_SharedCacheAndMemory :
    hbmBytes ≤ hbmBytes
    ∧ (rqShc.addr < hbmBytes ∧ shcSlice rqShc.addr = 1 ∧ tShc.shcWay 1 rqShc.addr = some 2
      ∧ tShc.mem.tags.find? (fun p => p.1 == shcKey 1 rqShc.addr 2) = some (shcKey 1 rqShc.addr 2, tgShc))
    ∧ (State.reset.shcWay 1 rqShc.addr = none
      ∧ State.reset.mem.misses.find? (fun m => m.slice == 1 && m.line == rqShc.addr / 64) = none
      ∧ (rqShc.write && rqShc.whole) = false ∧ ((⟨256, true, true, 0, 2, 0, false⟩ : ShcReq).write) = true)
    ∧ (tShcMiss.mem.misses.find? (fun m => m.slice == 1 && m.line == 4) = some mShc
      ∧ tShcMiss.mem.track.any (fun t => t.slice == 1 && t.block == 1 && !t.write) = false)
    ∧ bit (1 : Word).toNat 0 = true
    ∧ (tTrack.mem.track.any (fun t => t.slice == 1 && !t.held && !(tTrack.domStopped (phyDomain t.block))) = true
      ∧ (tTrack.mem.track.filter (fun t => t.slice == 1 && t.held)).length < 8192 ∧ tTrack.stackReady (1 % 8) = true
      ∧ tTrack.mem.wiping = false)
    ∧ ((tTrack.mem.track.filter (fun t => t.held && t.slice % 8 == 1))[0]? = some rqTr
      ∧ tTrack.domStopped (phyDomain rqTr.block) = false ∧ rqTr.write = false
      ∧ (tTrack.mem.bad.filter (fun y => stackOf (y * 8) == stackOf (blockWord rqTr.block 0 * 8))).length < 8192)
    ∧ (bits (tTrack.dr HM_CTRL) 7 0 ≠ 0 ∧ bits (tTrack.dr (stkReg HM_STK_SCRUB 1)) 31 0 < 72 * 2 ^ 24) := by decide +kernel

theorem witness_RegisterWrites :
    (State.reset.dwf MG_DBG_STATUS 0 0 1).debugOpen = true ∧ State.reset.debugOpen = false
    ∧ bit (State.reset.dr (cxReg MG_CX_CTRL 3)) 0 = false := by decide +kernel

/-! ### Streams -/

/-- A descriptor of one run of l0 words: EQ 1, FQ 2. -/
def tDesc (dir loc addr l0 bufb : Nat) : List Byte :=
  leBytes 4 (dir + 65536 * loc) ++ leBytes 4 (if loc = 0 then 0x21 else 0) ++ leBytes 8 addr ++ leBytes 4 l0 ++ leBytes 2 1
    ++ leBytes 2 1 ++ leBytes 2 1 ++ leBytes 2 0 ++ leBytes 2 bufb ++ leBytes 2 8 ++ List.replicate 32 0

/-- A fetch of 8 bytes of page 0 into the buffer of handle 0; and into fills of 64 bytes. -/
def dBuf : List Byte := tDesc 0 1 (2 ^ 60) 1 0
def dFill : List Byte := tDesc 0 0 (2 ^ 60) 1 1
def dStore : List Byte := tDesc 1 1 (2 ^ 60) 1 0

def qPost (f3 a : Nat) : QInsn := tInsn 0x5B f3 a 0

/-- Page 0 of context 0 mapped; cluster 0 of context 0, buffer 0 of 4 KiB at 1 KiB, and bytes at 0 of the scratchpad. -/
def tStr (bs : List Byte) (f : Cluster → Cluster) : State := tCore [0x13] (fun k =>
  f { (k.w CL_PROP (16 + place 26 13 64 + 2 ^ 27)) with owner := 0, sp := amSetMany 0 [] 0 bs })

/-- A token and state block of a failed stream, position 0. -/
def bTok : List Byte :=
  let b := dBuf ++ List.replicate 24 0
  b ++ leBytes 4 (crc32c b).toNat ++ List.replicate 4 0 ++ leBytes 2 3 ++ List.replicate 30 0

def tAtSt (f3 : Nat) (bs : List Byte) : State := tStr bs (fun k => k.setUnit .stream ⟨[qPost f3 0], 1⟩)

theorem witness_StreamAcceptance :
    (let s := tAtSt 1 dBuf
     (s.cl 0).ready .stream 1 = some (qPost 1 0) ∧ (s.cl 0).freeStrm (streamD (blockAt (s.cl 0) (qPost 1 0) 64)).dir = some 0
      ∧ s.streamCheck 0 (qPost 1 0) (streamD (blockAt (s.cl 0) (qPost 1 0) 64)) = .pass)
    ∧ (let s := tAtSt 1 (tDesc 0 1 0 0 0)
       s.streamCheck 0 (qPost 1 0) (streamD (blockAt (s.cl 0) (qPost 1 0) 64)) = .noEffect
        ∧ (streamD (blockAt (s.cl 0) (qPost 1 0) 64)).sigen = false)
    ∧ (let s := tAtSt 2 bTok
       (s.cl 0).ready .stream 2 = some (qPost 2 0)
        ∧ fieldB (blockAt (s.cl 0) (qPost 2 0) 128) 88 4 = (crc32c (sliceB (blockAt (s.cl 0) (qPost 2 0) 128) 0 88)).toNat
        ∧ fieldB (blockAt (s.cl 0) (qPost 2 0) 128) 96 1 = 3
        ∧ s.streamCheck 0 (qPost 2 0) (streamD (sliceB (blockAt (s.cl 0) (qPost 2 0) 128) 0 64)) = .pass) := by decide +kernel

theorem witness_StreamFaults :
    (let s := tAtSt 1 (tDesc 0 1 (2 ^ 60 + 2 ^ 30) 1 0)
     s.streamCheck 0 (qPost 1 0) (streamD (blockAt (s.cl 0) (qPost 1 0) 64)) = .fault EXTENT)
    ∧ (let s := tAtSt 2 dBuf
       fieldB (blockAt (s.cl 0) (qPost 2 0) 128) 88 4 ≠ (crc32c (sliceB (blockAt (s.cl 0) (qPost 2 0) 128) 0 88)).toNat) := by
  decide +kernel

/-- A stream in slot 0 (fetch) or 4 (store). -/
def xBuf : Strm := { num := 5, tk := 0, desc := dBuf, hbuf := ⟨1024, 4096⟩ }
def xFill : Strm := { num := 5, tk := 0, desc := dFill }
def xStore : Strm := { num := 6, tk := 0, desc := dStore, hbuf := ⟨1024, 4096⟩ }
def tWith (sl : Nat) (x : Strm) (f : Cluster → Cluster) : State :=
  tStr [] (fun k => f { k with st := { k.st with slots := [(sl, x)] } })
def yBuf : Xfer := { slot := 0, num := 5, pos := 0, len := 8, addr := 2 ^ 60, phys := 0 }
def yStore : Xfer := { slot := 4, num := 6, pos := 0, len := 8, addr := 2 ^ 60, phys := 0, data := leBytes 8 9 }
def fFill : Fill := { f := 0, handles := [(0, ⟨0, none⟩, ⟨1024, 4096⟩)], len := 8, got := 8 }

theorem witness_StreamsRun_fills :
    (let s := tWith 0 xFill (fun k => k.setQueue 1 [⟨0, none⟩])
     (s.cl 0).strm 0 = some xFill ∧ (streamD xFill.desc).mcast = false ∧ (s.cl 0).wantsFill 0 xFill = true
      ∧ s.lagging 0 0 xFill = [] ∧ (streamD xFill.desc).feed = false ∧ (s.cl 0).queue (streamD xFill.desc).popQ = [⟨0, none⟩])
    ∧ (let x := { xFill with fills := [fFill], issued := 8, begun := 1 }
       x.dueFill = some fFill ∧ ((tWith 0 x id).cl 0).room (streamD x.desc).pushQ = true ∧ (streamD x.desc).pushQ < 8
        ∧ bit ((tWith 0 x id).cr 0 CL_Q_SIG) (8 * (streamD x.desc).pushQ + 6) = false) := by decide +kernel

theorem witness_StreamsRun_transfers :
    ((tWith 0 xBuf id).nextXfer 0 (streamD xBuf.desc) xBuf = .go (2 ^ 60) 0 8 ∧ ((tWith 0 xBuf id).cl 0).outstanding 0 < 8
      ∧ (streamD xBuf.desc).feed = false ∧ xBuf.issued < (streamD xBuf.desc).total ∧ (streamD xBuf.desc).loc = 1
      ∧ (streamD xBuf.desc).inject = false ∧ (streamD xBuf.desc).idx = false ∧ (streamD xBuf.desc).cc = false)
    ∧ ((tWith 0 xBuf id).setPage 0 0 1).nextXfer 0 (streamD xBuf.desc) xBuf = .halt 0
    ∧ ((tWith 0 xBuf id).setPage 0 0 0).nextXfer 0 (streamD xBuf.desc) xBuf = .stop { state := 3, status := EXTENT, faddr := 2 ^ 60 }
    ∧ (let s := tWith 0 xBuf (fun k => { k with st := { k.st with xfers := [yBuf] } })
       (s.cl 0).st.xfers.find? (fun y => y.slot == 0 && s.canEnd 0 y) = some yBuf ∧ s.hbmBad yBuf.phys yBuf.len = [])
    ∧ (let s := tWith 4 xStore (fun k => { k with st := { k.st with xfers := [yStore] } })
       (s.cl 0).st.xfers.find? (fun y => y.slot == 4 && s.canEnd 0 y) = some yStore ∧ (streamD xStore.desc).dir = 1) := by decide +kernel

theorem witness_StreamsRun_ends :
    ((tWith 0 { xBuf with halted := some 0 } id).translate 0 0 = .at_ 0 false)
    ∧ (let x := { xBuf with issued := 8, doneR := [(0, 8)] }
       ((tWith 0 x id).cl 0).strmOver 0 x = true ∧ (streamD x.desc).sigen = false)
    ∧ (let s := tWith 0 { xBuf with wait := 1024 } (fun k => k.wf ST_CTRL 15 0 1)
       bits (s.cr 0 ST_CTRL) 15 0 = 1)
    ∧ (let y := { yStore with addr := 2 * 2 ^ 60 + 2 ^ 48, sent := some 0 }
       let s : State := { tWith 4 xStore (fun k => { (k.wf ST_CTRL 31 16 1) with st := { k.st with xfers := [y], slots := [(4, xStore)] } }) with
         timebase := 1000 }
       (s.cl 0).st.xfers.find? (fun y => decide (4 ≤ y.slot) && y.xslot == 0 && !y.ready) = some y
        ∧ 0 + 1000 * bits (s.cr 0 ST_CTRL) 31 16 ≤ s.timebase ∧ (s.cl 0).strm y.slot = some xStore)
    ∧ bit (word (2 ^ 16 + 5)).toNat 16 = true := by decide +kernel

/-! ### Counters, watches and cues -/

/-- sy.sig of 2 to local counter 3; sy.wait and sy.watch on device counter 7 of the context, mapped to 9, and on local 3. -/
def qSig (inc : Nat) : QInsn := tInsn 0x7B 0 3 inc
def qSyn (f3 a v : Nat) : QInsn := tInsn 0x7B f3 a v
def tSync (q : QInsn) : State :=
  (tHead .sync q (fun k => { k with owner := 0 })).dw (SY_VMAP + 8 * 7) (9 + 2 ^ 16)
def chLoc (n : Nat) : Change := { ctr := .loc 0 3, amt := n, scope := 0, src := .host }
def chDev (n : Nat) (r : Bool) : Change := { ctr := .dev 9, amt := n, raise := r, scope := 0, src := .host }
def tChg (ch : Change) : State :=
  let s := tSync (qSig 2)
  { s with sy := { s.sy with changes := [ch] } }

theorem witness_SignalsAndChanges :
    ((tSync (qSig 2)).cl 0).ready .sync 0 = some (qSig 2) ∧ sigHeld (tSync (qSig 2)) 0 (qSig 2) = false
    ∧ sigCheck (tSync (qSig 2)) 0 (qSig 2) = .pass ∧ (ctrD (qSig 2).rs1).space = 0
    ∧ sigCheck (tSync (qSig 0)) 0 (qSig 0) = .noEffect
    ∧ sigCheck (tSync (tInsn 0x7B 0 64 1)) 0 (tInsn 0x7B 0 64 1) = .fault SHAPE
    ∧ ((tChg (chLoc 5)).changeReady 0 = some (chLoc 5) ∧ ((tChg (chLoc 5)).cl 0).pairBroken 3 5 = false)
    ∧ 2 ^ 48 ≤ ((tChg (chLoc (2 ^ 48))).cl 0).ctr 3 + 2 ^ 48
    ∧ ((tChg (chDev 5 false)).changeReady 0 = some (chDev 5 false) ∧ ((tChg (chDev 5 false)).ctrOwner 9).isSome
      ∧ (tChg (chDev 5 false)).devPairBroken 9 5 = false)
    ∧ ((tChg (chDev 5 true)).changeReady 0 = some (chDev 5 true) ∧ ((tChg (chDev 5 true)).ctrOwner 9).isSome)
    ∧ (let s := (tChg (chDev 5 true)).dw (SY_VMAP + 8 * 7) 0
       s.ctrOwner 9 = none ∧ s.layerCtr 9 = false) := by decide +kernel

/-- A state in which the synchronisation unit holds a watch and a cue. -/
def wDev : DevWatch := { ctr := 9, value := 4, scope := 0, timeout := 0, dest := .wait 0, ctx := 0 }
def tTab (w : DevWatch) (q : Cue) (f : Cluster → Cluster) : State :=
  let s := tCl f
  { s with timebase := 5000, sy := { s.sy with watches := [w], cues := [q] } }
def wLoc : Watch := { ctr := .loc 3, value := 4, scope := 0, timeout := 1, deadline := some 1024, registered := true }
def tSlot (x : WSlot) (k : Cluster) : Cluster := { k with ws := k.ws.set 0 x }

theorem witness_WatchesAndCues_accept :
    (∀ f3 ∈ [1, 3], ∀ a ∈ [3, 7 + 2 * 4096],
      ((tSync (qSyn f3 a 0)).cl 0).ready .sync f3 = some (qSyn f3 a 0) ∧ watchCheck (tSync (qSyn f3 a 0)) 0 (qSyn f3 a 0) false = .pass)
    ∧ ((tSync (qSyn 2 (7 + 2 * 4096) 0)).cl 0).ready .sync 2 = some (qSyn 2 (7 + 2 * 4096) 0)
    ∧ watchCheck (tSync (qSyn 2 (7 + 2 * 4096) 0)) 0 (qSyn 2 (7 + 2 * 4096) 0) true = .pass
    ∧ ((tSync (qSyn 2 (7 + 2 * 4096) 0)).cl 0).freeSlot = some 0
    ∧ (mkWatch (tSync (qSyn 2 (7 + 2 * 4096) 0)) 0 (qSyn 2 (7 + 2 * 4096) 0)).ctr = .dev 9
    ∧ (mkWatch (tSync (qSyn 1 3 0)) 0 (qSyn 1 3 0)).ctr = .loc 3
    ∧ watchCheck (tSync (qSyn 1 64 0)) 0 (qSyn 1 64 0) false = .fault SHAPE
    ∧ watchCheck (tSync (qSyn 2 64 0)) 0 (qSyn 2 64 0) true = .fault SHAPE := by decide +kernel

theorem witness_WatchesAndCues :
    (let s := tTab wDev ⟨.host 0 1, 5⟩ id
     s.sy.watches[0]? = some wDev ∧ s.dctr 9 < wDev.value ∧ ({ wDev with value := 0 } : DevWatch).value ≤ s.dctr 9
      ∧ s.sy.cues[0]? = some ⟨.host 0 1, 5⟩ ∧ (s.cx 0).state ≠ 2)
    ∧ (let w : DevWatch := { wDev with registered := true, deadline := some 1024 }
       (tTab w ⟨.host 0 1, 5⟩ id).sy.watches[0]? = some w ∧ 1024 ≤ (tTab w ⟨.host 0 1, 5⟩ id).timebase)
    ∧ (let k := tSlot (.armed wLoc 0) { State.reset.cl 0 with wait := some ⟨5, false, wLoc⟩ }
       localWatch k 0 = some wLoc ∧ localWatch k 16 = some wLoc ∧ k.ws[0] = .armed wLoc 0 ∧ wLoc.done = false)
    ∧ (bit (word 16).toNat 4 = true ∧ bits (word 16).toNat 3 0 = 0) := by decide +kernel

theorem witness_SyncRegisters :
    bit (word (2 ^ 48 + 7)).toNat 48 = true ∧ (State.reset.dwf MG_DBG_STATUS 0 0 1).debugOpen = true ∧ State.reset.debugOpen = false
    ∧ bit (word (2 ^ 54)).toNat 54 = true ∧ bits (word (2 ^ 54)).toNat 47 32 = 0
    ∧ bits (word (2 ^ 54 + 2 ^ 32)).toNat 47 32 ≠ 0 ∧ bit (State.reset.dr (curReg SY_CUR_CFG 3)) 54 = false := by decide +kernel

/-! ### The ring -/

/-- A member of a ring of n with its description accepted: role, position 1, chip 5 (6 for the manager), slice 2, READY or not. -/
def tRing (role n : Nat) (ready : Bool) : State :=
  ((State.reset.dw LK_RV_STATUS (role + 4 + 8 * b2n ready)).dw LK_RV_DESC
    (n + place 31 16 1 + place 43 32 (if role = 3 then 6 else 5) + place 59 48 6)).dw (LK_RV_DESC + 8) (place 15 8 2)

def tFormed (role : Nat) : State :=
  let s := (((tRing role 2 false).dwf MG_SU_STATUS 2 0 2).dw (linkReg 0) 2).dw (linkReg 1) 2
  { s with rv := { s.rv with formed := true, joins := [5] } }

/-- A frame in port 0's receive buffer. -/
def tRx (s : State) (f : Frame) : State := s.modPort 0 (fun q => { q with rx := [{ f := f }] })
def fOp (op off : Nat) (d : List Byte) : Frame := { ty := 1, vc := opVc op, tf := routedTf 9 5 2 63 op off 2 0 0, data := d }
def fBc (bop : Nat) (d : List Byte) : Frame := { ty := 4, vc := 2, tf := bcastTf 6 2 1 bop, data := d }
def seDone : Session := { chip := 9, hs := {}, done := true, same := true }

theorem witness_RevolvePasses_form :
    (bit ((tRing 2 2 false).dr LK_RV_STATUS) 2 = true ∧ (tFormed 2).stage = 2 ∧ (tRing 2 2 false).rv.formed = false
      ∧ (tRing 2 2 false).portState 3 = 0 ∧ (tRing 2 2 false).role ≠ 0 ∧ ((tRing 2 2 false).port 3).offAt = none)
    ∧ ((tFormed 3).neighboursUp = true ∧ (tFormed 3).role = 3 ∧ (tFormed 3).rv.joins.contains (tFormed 3).chip = false
      ∧ (tFormed 3).rv.joins.length + 1 = (tFormed 3).ringN)
    ∧ ((tFormed 2).neighboursUp = true ∧ (tFormed 2).role = 2 ∧ (tFormed 2).session (tFormed 2).mgrChip = none
      ∧ (tFormed 2).rngFail = false)
    ∧ (let s : State := { tRx (tRing 3 2 false) (fOp 5 0 []) with rv := { (tRing 3 2 false).rv with sessions := [seDone] } }
       s.rxFind 0 (fun g => g.ty == 1 && g.op == 5) = some (fOp 5 0 []) ∧ s.session (fOp 5 0 []).src = some seDone ∧ s.role = 3)
    ∧ (tRx (tFormed 2) (fBc 0 [])).rxFind 0 (fun g => g.ty == 4 && g.bop == 0) = some (fBc 0 [])
    ∧ bit ((tRx (tFormed 2) (fBc 0 [])).dr LK_RV_STATUS) 3 = false := by decide +kernel

/-- A piece of 64 bytes for feed 0, piece number 0 of pass 0, with its CHECK. -/
def rcPiece : List Byte :=
  let h := leBytes 8 0 ++ leBytes 4 64 ++ List.replicate 48 0
  h ++ leBytes 4 (crc32c h).toNat
def tInj (bs : List Byte) (ended : Bool) : State :=
  let s := tRing 2 4 true
  { s with rv := { s.rv with inj := bs, injEnd := ended } }

theorem witness_RevolvePasses_inject :
    bit ((tInj [] true).dr LK_RV_STATUS) 3 = true ∧ (tInj [] true).rv.injDone = false ∧ (tInj [] true).rv.injBad = false
    ∧ (let s := tInj (rcPiece ++ List.replicate 64 7) false
       recCheck (s.rv.inj.take 64) = true ∧ recReserved (s.rv.inj.take 64) = true ∧ recLen (s.rv.inj.take 64) = 64
        ∧ recLayer (s.rv.inj.take 64) = s.rv.pass % 65536 ∧ 64 + 64 ≤ s.rv.inj.length)
    ∧ recCheck ((tInj (List.replicate 64 7) false).rv.inj.take 64) = false := by decide +kernel

/-- A ring-feed stream for feed 0 in slot 0 with one fill of 64 bytes begun, and a piece with a fill in hand. -/
def xFeed : Strm := { num := 1, tk := 0, desc := tDesc 0 0 (4 * 2 ^ 60) 8 1, begun := 1
                      fills := [{ f := 0, handles := [(0, ⟨0, none⟩, ⟨1024, 4096⟩)] }] }
def pcFull : Piece := { src := 3, num := 0, recd := rcPiece, got := 64, open_ := List.replicate 64 7 }
def tFeed : State :=
  let s := tWith 0 xFeed id
  { s with rv := { s.rv with pieces := [pcFull] } }

theorem witness_RevolvePasses_feed :
    tFeed.feedStream 0 = some (0, 0, xFeed) ∧ (tFeed.cl 0).strm 0 = some xFeed
    ∧ tFeed.rv.pieces.find? (fun y => y.src == 3 && !y.done && recFeed y.recd == 0 && (y.fill (streamD xFeed.desc).fillB).isSome)
        = some pcFull
    ∧ pcFull.fill (streamD xFeed.desc).fillB = some (List.replicate 64 7)
    ∧ xFeed.fills.find? (fun g => g.len == 0) = some { f := 0, handles := [(0, ⟨0, none⟩, ⟨1024, 4096⟩)] } := by decide +kernel

/-- A ring of n whose only slice is the own one. -/
def tCur (n : Nat) : State := (tRing 2 n true).dw LK_RV_DESC (n + place 31 16 0 + place 43 32 5 + place 59 48 6)
def mkAll (n : Nat) : State :=
  let s := tCur n
  { s with rv := { s.rv with marks := (upFrom 1 (n - 1)).map (fun q => ⟨q, 0, 0⟩) } }

theorem witness_RevolvePasses_curtain :
    (tCur 1).ringN ≤ 64 ∧ (tCur 1).mayArrive = true
    ∧ 64 < (mkAll 65).ringN ∧ (mkAll 65).mayArrive = true ∧ (mkAll 65).linksEmpty = true
    ∧ (mkAll 65).cls.toList.all (fun k => k.arrayIdle && k.vectorIdle) = true := by decide +kernel

theorem witness_RevolvePasses_release :
    (let s := (tRx (tRing 2 4 true) (fBc 1 (curtainData 15 0))).ringCurtain
     s.rxFind 0 (fun g => g.ty == 4 && g.bop == 1) = some (fBc 1 (curtainData 15 0))
      ∧ bit (s.dr (curReg SY_CUR_CFG 15)) 54 = true ∧ fieldB (curtainData 15 0) 8 8 = s.rv.pass
      ∧ s.dctr (bits (s.dr (curReg SY_CUR_CFG 15)) 31 16) < fieldB (curtainData 15 0) 8 8 + 1)
    ∧ (tRx (tRing 2 4 true) (fBc 2 (leBytes 8 3))).rxFind 0 (fun g => g.ty == 4 && g.bop == 2) = some (fBc 2 (leBytes 8 3))
    ∧ bit ((State.reset.dw MG_TB_CTRL 1).dr MG_TB_CTRL) 0 = true
    ∧ (let s : State := { State.reset.dw MG_TB_CTRL (place 63 32 1000) with timebase := 5300 }
       2 * (s.timebase % 1000) < 1000 ∧ bits (s.dr MG_TB_CTRL) 63 32 = 1000) := by decide +kernel

/-- Slice 2 bound to context 3, which owns cluster 0; its counter 7 mapped to 9; frames of chip 9 admitted with slice 2. -/
def tSlice (f : Frame) : State :=
  tRx ((((tRing 2 4 true).dw (LK_SLICE_BIND + 8 * 2) (3 + 16)).dw (SY_VMAP + 0x8000 * 3 + 8 * 7) (9 + 2 ^ 16)).mod 0
    (fun k => { k with owner := 3, st := { k.st with xfers := [{ slot := 4, num := 0, pos := 0, len := 8, addr := 2 * 2 ^ 60 + 9 * 2 ^ 48 }] } })) f

def fWt (layer : Nat) : Frame := { ty := 2, tf := weightTf 9 2 1 3 layer 0 0, data := List.replicate 8 1 }
def fEnd : Frame := { ty := 3, tf := weightTf 9 2 1 3 0 4 0, data := leBytes 8 256 }
/-- A REPAIR frame of position 3, piece 0, pass 0, slice 2. -/
def fRep : Frame := fOp 8 0 (leBytes 2 0 ++ leBytes 2 3 ++ leBytes 2 0 ++ leBytes 1 0 ++ leBytes 1 2 ++ leBytes 8 0 ++ List.replicate 8 1)

theorem witness_RoutedFrames_revolve :
    ((tSlice (fWt 0)).nextWeight 0 = some (fWt 0) ∧ (fWt 0).poff = 0 ∧ (tSlice (fWt 0)).ahead (fWt 0) = 0
      ∧ (tSlice (fWt 0)).pieceOf 3 0 = none)
    ∧ ((tSlice (fWt 65535)).nextWeight 0 = some (fWt 65535) ∧ (tSlice (fWt 65535)).ahead (fWt 65535) ≠ 0)
    ∧ (let s := tSlice fEnd
       s.rxFind 0 (fun f => f.ty == 3 && (s.ahead f == 0 || decide (32768 ≤ s.ahead f))) = some fEnd ∧ s.ahead fEnd = 0
        ∧ s.rv.marks.any (fun m => m.src == fEnd.pos) = false)
    ∧ (let s := tSlice fRep
       s.rxFind 0 (fun f => f.ty == 1 && f.op == 8) = some fRep ∧ bit (fieldB fRep.data 6 1) 0 = false
        ∧ fieldB fRep.data 7 1 = s.ringSlice ∧ fieldB fRep.data 0 2 = s.rv.pass % 65536 ∧ fieldB fRep.data 8 4 = 0
        ∧ s.canTake (fieldB fRep.data 2 2) (fieldB fRep.data 4 2) 0 (fRep.data.drop 16) = true) := by decide +kernel

def named (f : Frame) (op : Nat) : Bool :=
  let s := tSlice f
  s.rxFind 0 (fun g => g.ty == 1 && g.op == op) == some f && f.kind == 2 && bits f.off 47 25 == 0 && bits f.off 24 19 == 0
    && s.ctxOfSlice f.slice == some (s.cl 0).owner && f.off % 8 == 0

theorem witness_RoutedFrames_arrivals :
    named (fOp 0 64 (leBytes 8 1)) 0 ∧ named (fOp 1 64 (leBytes 16 0)) 1
    ∧ ((tSlice (fOp 0 63 (leBytes 8 1))).rxFind 0 (fun g => g.ty == 1 && g.op == 0) = some (fOp 0 63 (leBytes 8 1))
        ∧ (fOp 0 63 (leBytes 8 1)).off % 8 ≠ 0)
    ∧ (let f := fOp 2 0 (leBytes 8 7 ++ leBytes 8 5)
       named f 2 ∧ ((tSlice f).ctxOfSlice f.slice).bind (fun x => (tSlice f).vmap x (fieldB f.data 0 2)) = some 9)
    ∧ (let f := fOp 4 0 (curtainData 1 0)
       let s := (tSlice f).dw (curReg SY_CUR_CFG 1) (place 54 52 7 + place 51 48 3)
       named f 4 ∧ bits (s.dr (curReg SY_CUR_CFG 1)) 54 52 = 7 ∧ s.ctxOfSlice f.slice = some (bits (s.dr (curReg SY_CUR_CFG 1)) 51 48))
    ∧ named (fOp 6 0 (leBytes 16 0)) 6 ∧ named (fOp 7 0 (leBytes 16 0)) 7
    ∧ (∀ y ∈ ((tSlice (fOp 7 0 (leBytes 16 0))).cl 0).st.xfers, 4 ≤ y.slot ∧ y.xslot = 0 ∧ gChip y.addr = (fOp 7 0 []).src ∧ gKind y.addr = 2)
    ∧ named (fOp 3 0 (leBytes 8 tagShard)) 3 ∧ (fOp 3 0 (leBytes 8 tagShard)).xend = false
    ∧ (let f : Frame := { fOp 3 0 (leBytes 8 tagShard) with xend := true }
       named f 3 ∧ fieldB f.data 0 1 = tagShard) := by decide +kernel

/-- A frame in transit from port 0 to port 4, which may send; stomped or not. -/
def tFwd (st : Bool) (wait : Option Nat) : State :=
  let g : Frame := { fOp 0 64 (leBytes 8 1) with stomp := st }
  ((State.reset.dwf (portReg LK_PORT_STATUS 4) 2 0 4).modPort 4 (fun q =>
    { q with share := some [1, 1, 1, 1], ret := [], stompFrom := wait })).modPort 0 (fun q =>
      { q with rx := [{ f := g, taken := true, fwd := some (4, g) }] })
def cmdRelay : Cmd := { seq := 7, pkt := leBytes 2 0x0704, room := 4, started := true }

theorem witness_RoutedFrames_forward :
    (∀ st ∈ [false, true], ∃ r, (tFwd st none).nextFwd 0 = some (0, r) ∧ r.fwd = some (4, { fOp 0 64 (leBytes 8 1) with stomp := st }))
    ∧ (∃ r, (tFwd false (some 0)).nextFwd 0 = some (0, r) ∧ r.fwd = some (4, fOp 0 64 (leBytes 8 1)))
    ∧ (tFwd false none).domStopped 36 = false ∧ ((tFwd false none).port 4).stompFrom = none := by
  refine ⟨?_, ?_, by decide +kernel, by decide +kernel⟩
  · intro st h
    exact ⟨⟨{ fOp 0 64 (leBytes 8 1) with stomp := st }, true, some (4, { fOp 0 64 (leBytes 8 1) with stomp := st }), false, false⟩,
      by revert h; revert st; decide +kernel, rfl⟩
  · exact ⟨⟨fOp 0 64 (leBytes 8 1), true, some (4, fOp 0 64 (leBytes 8 1)), false, false⟩, by decide +kernel, rfl⟩

theorem witness_RoutedFrames_relay :
    (let s := State.reset.modCx 2 (fun y => { y with cmds := [cmdRelay] })
     let r : Relayed := { id := 1, ctx := 2, seq := 7, chip := 9, until_ := 0 }
     ({ s with rv := { s.rv with relayed := [r] } } : State).rv.relayed.find? (fun r => r.id == 1 && decide (r.until_ ≤ s.timebase)) = some r
      ∧ (s.cmds r.ctx).find? (fun k => k.seq == r.seq && k.op == 0x0704) = some cmdRelay) := by decide +kernel

/-! ### Links -/

/-- A port of a ring member in a state, its link in a state. -/
def tPort (st lk : Nat) (f : PortSt → PortSt) : State :=
  (((tRing 2 4 true).dwf (portReg LK_PORT_STATUS 0) 2 0 st).dwf (linkReg 0) 1 0 lk).modPort 0 f

/-- A frame as bytes: type, channel, SEQ, ACK, type field, payload (R450, R451). -/
def frB (ty vc seq ack tf : Nat) (d : List Byte) : List Byte :=
  leBytes 1 (ty + 8 * vc) ++ leBytes 1 0 ++ leBytes 2 d.length ++ leBytes 6 seq ++ leBytes 3 ack ++ leBytes 1 0 ++ leBytes 14 tf ++ d

def tHs (f : Handshake → Handshake) : State := (tPort 2 1 id).modLink 0 (fun l => { l with hs := f l.hs })
def bHs : List Byte := leBytes 4 (1 + 256 * 0 + 65536 * 2) ++ leBytes 4 900

theorem witness_PortsAndKeys :
    ((tPort 0 0 id).portState 0 = 0 ∧ (tPort 0 0 id).role ≠ 0 ∧ State.reset.role = 0)
    ∧ (tPort 4 3 id).portLive 0 = true ∧ (tPort 1 0 id).portState 0 = 1
    ∧ (let s := tHs (fun h => { h with expect := 1 })
       s.portState 0 = 2 ∧ s.linkOf 0 = 0 ∧ (s.link 0).hs.expect = fieldB bHs 0 1 ∧ fieldB bHs 1 1 = (s.link 0).hs.frag
        ∧ fieldB bHs 3 1 = 0 ∧ (s.link 0).hs.frag + 1 < fieldB bHs 2 1)
    ∧ (tPort 4 3 id).portState 0 ≠ 2
    ∧ (let s : State := { tHs (fun h => { h with expect := 1 }) with timebase := 10000000 }
       (s.link 0).hs.expect ≠ 0 ∧ (s.link 0).hs.last + 10000000 ≤ s.timebase)
    ∧ (let s := tHs (fun h => { h with failAt := some 0 })
       (s.link 0).hs.failAt = some 0 ∧ s.rngFail = false ∧ (s.linkPorts 0).find? (fun n => s.portState n == 2) = some 0)
    ∧ (let s := tPort 4 3 id
       2 ≤ bits (s.dr (linkReg 0)) 1 0 ∧ (s.link 0).swTx = false ∧ (s.link 0).eraseAt = none ∧ (s.link 0).keys.length < 2)
    ∧ ((((tPort 4 3 id).modLink 0 (fun l => { l with swTx := true })).link 0).swTx = true)
    ∧ (let s := (tPort 4 3 id).modLink 0 (fun l => { l with eraseAt := some 0, next := some (1, 2) })
       (s.link 0).eraseAt = some 0 ∧ (s.link 0).next = some (1, 2) ∧ ((tPort 4 3 id).link 0).next = none)
    ∧ ((List.range 4).map (fun i => bits (word 0).toNat (12 * i + 11) (12 * i))).any (· == 0) = true := by decide +kernel

/-- A WRITE to this chip under slice 2, bound to context 3. -/
def bData (seq : Nat) : List Byte := frB 1 1 seq 0 (routedTf 9 5 2 63 0 64 2 0 0) (leBytes 8 1)
def tLink (f : PortSt → PortSt) : State :=
  ((tPort 4 3 f).dw (LK_SLICE_BIND + 8 * 2) (3 + 16)).dw (LK_RT_ENT + 8 * 9) (2 ^ 20 + place 19 12 2)
def fKept : Frame := { fOp 0 64 (leBytes 8 1) with seq := 5 }

theorem witness_FramesOnAPort_data :
    ((tLink id).portState 0 = 4 ∧ (frameOf (bData 0)).ty = 1 ∧ badField (bData 0) = none ∧ (frameOf (bData 0)).cmp = false
      ∧ (frameOf (bData 0)).bfirst = false ∧ (frameOf (bData 0)).blast = false ∧ ((tLink id).port 0).block = []
      ∧ (frameOf (bData 0)).seq = ((tLink id).port 0).expSeq ∧ (tLink id).placeOf (frameOf (bData 0)) = .keep true none)
    ∧ (let s := tLink (fun q => { q with fresh := false, expSeq := 3 })
       0 < ((frameOf (bData 5)).seq + 2 ^ 48 - (s.port 0).expSeq) % 2 ^ 48
        ∧ ((frameOf (bData 5)).seq + 2 ^ 48 - (s.port 0).expSeq) % 2 ^ 48 < 2 ^ 47
        ∧ 2 ^ 47 ≤ ((frameOf (bData 2)).seq + 2 ^ 48 - (s.port 0).expSeq) % 2 ^ 48) := by decide +kernel

theorem witness_FramesOnAPort_control :
    (∀ n ∈ [0, 1, 2, 3, 5], (tLink id).portLive 0 = true ∧ (frameOf (frB 0 0 0 5 n (leBytes 24 5))).ty = 0
      ∧ (frameOf (frB 0 0 0 5 n (leBytes 24 5))).tf = n ∧ badField (frB 0 0 0 5 n (leBytes 24 5)) = none)
    ∧ (let s := tLink (fun q => { q with replay := [fKept] })
       (s.port 0).replay = [fKept] ∧ (frameOf (frB 0 0 0 5 0 [])).ack = fKept.seq % 2 ^ 24
        ∧ ((s.ackIn 0 4).port 0).replay.any (fun f => f.seq == 5) = true ∧ fieldB (frameOf (frB 0 0 0 4 1 (leBytes 8 5))).data 0 6 = 5)
    ∧ ((tLink id).port 0).share = none
    ∧ (let s := (tLink id).dwf (linkReg 0) 4 4 1
       let b := frB 0 0 0 0 3 (leBytes 8 1)
       s.linkOf 0 = 0 ∧ fieldB (frameOf b).data 0 1 = 1 ∧ bit (s.dr (linkReg 0)) 4 = true ∧ (s.port 0).swRx = false
        ∧ bits (s.dr (linkReg 0)) 2 2 ≠ 1)
    ∧ (let s := tPort 2 3 id
       bits (s.dr (linkReg (s.linkOf 0))) 1 0 = 3 ∧ s.portState 0 = 2 ∧ s.portLive 0 = true
        ∧ s.neighbourOk (s.linkOf 0) (fieldB (frameOf (frB 0 0 0 0 5 (leBytes 24 0))).data 16 2) = true) := by decide +kernel

theorem witness_FramesOnAPort_send :
    (let s := tLink (fun q => { q with share := some [1, 1, 1, 1], txq := [fOp 0 64 (leBytes 8 1)] })
     (s.port 0).stompFrom = none ∧ s.domStopped 32 = false ∧ (s.port 0).resend = [] ∧ s.nextTx 0 = some (0, fOp 0 64 (leBytes 8 1)))
    ∧ (let s := tLink (fun q => { q with replay := [fKept], resend := [5] })
       (s.port 0).resend = [5] ∧ (s.port 0).replay.find? (fun f => f.seq == 5) = some fKept ∧ (s.port 0).keyed.1 < 2 ^ 44)
    ∧ (tLink id).nextTx 0 = none
    ∧ (let s : State := { tLink (fun q => { q with replay := [fKept], nackAt := some 0, freeAt := some 0 }) with timebase := 2 ^ 24 }
       (s.port 0).ackAt + s.rto 0 ≤ s.timebase ∧ 0 + s.rto 0 ≤ s.timebase ∧ (s.port 0).freeAt = some 0) := by decide +kernel

/-! ### Weights -/

/-- The bytes of a shard of one piece. -/
def tBs : List Byte := rcPiece ++ List.replicate 64 7

/-- A shard of them in context 2, with its image in the flies, frame 2000. -/
def tSh (st : ShState) (fly : Option Nat) : Shard :=
  { ctx := 2, id := 5, len := 128, caddr := 0, first := 0, period := 0, first2 := 0, period2 := 0
    digest := (shardDigest tBs).getD 0, fly := fly, frames := [2000], state := st, cmd := some 7 }
def cmdLoad : Cmd := { seq := 7, pkt := leBytes 2 0x0501, room := 4, started := true }
def tWt (h : Shard) (f : Weights → Weights) : State :=
  let s := State.reset.modCx 2 (fun y => { y with cmds := [cmdLoad] })
  { s with wt := f { s.wt with shards := [h], flies := [{ num := 0, ctx := 2, ident := 0, shard := 5, page := 1024, data := tBs }] } }

theorem tBs_check (st : ShState) (f : Option Nat) : checkShard (tSh st f) tBs = none := by
  have h : (shardPieces tBs).isSome = true := by decide +kernel
  obtain ⟨ps, hp⟩ := Option.isSome_iff_exists.1 h
  simp [checkShard, tSh, shardDigest, hp]

def pgIn : PageIn := { ctx := 2, shard := 5 }

theorem witness_ShardsComeInWhole :
    ((tWt (tSh .loading (some 0)) id).shardIn? 2 5 .loading = some (tSh .loading (some 0))
      ∧ Sound (tWt (tSh .loading (some 0)) id) (tSh .loading (some 0)) [] tBs
      ∧ (tWt (tSh .loading (some 0)) id).wtCmd 2 (some 7) = some cmdLoad)
    ∧ ((tWt (tSh .loading none) id).shardIn? 2 5 .loading = some (tSh .loading none)
      ∧ Unsound (tWt (tSh .loading none) id) (tSh .loading none) [])
    ∧ (∀ p ∈ [[], [pgIn]], (tWt (tSh .moving (some 0)) (fun w => { w with pageIns := p })).shardIn? 2 5 .moving = some (tSh .moving (some 0))
      ∧ (tWt (tSh .moving (some 0)) (fun w => { w with pageIns := p })).pageIn 2 5 = p.head?
      ∧ Sound (tWt (tSh .moving (some 0)) (fun w => { w with pageIns := p })) (tSh .moving (some 0)) [] tBs)
    ∧ (∀ p ∈ [[], [pgIn]], (tWt (tSh .moving none) (fun w => { w with pageIns := p })).shardIn? 2 5 .moving = some (tSh .moving none)
      ∧ (tWt (tSh .moving none) (fun w => { w with pageIns := p })).pageIn 2 5 = p.head?
      ∧ Unsound (tWt (tSh .moving none) (fun w => { w with pageIns := p })) (tSh .moving none) []) := by
  refine ⟨⟨rfl, ⟨by decide +kernel, ⟨0, by decide +kernel⟩, tBs_check _ _⟩, by decide +kernel⟩,
    ⟨rfl, by decide +kernel, fun _ _ h => by cases h⟩, ?_, ?_⟩
  · intro p hp
    simp only [List.mem_cons, List.not_mem_nil, or_false] at hp
    rcases hp with rfl | rfl <;>
      exact ⟨rfl, by decide +kernel, by decide +kernel, ⟨0, by decide +kernel⟩, tBs_check _ _⟩
  · intro p hp
    simp only [List.mem_cons, List.not_mem_nil, or_false] at hp
    rcases hp with rfl | rfl <;> exact ⟨rfl, by decide +kernel, by decide +kernel, fun _ _ h => by cases h⟩

/-- A worker's ring at position 1 of 4 that lacks the slice of position 2, after so many requests. -/
def tShort (asked : Option Nat) : State :=
  let s := tRing 2 4 true
  { s with timebase := 2 ^ 40, rv := { s.rv with shorts := match asked with | some n => [{ pos := 2, until_ := 0, asked := n }] | none => [] } }

theorem witness_WeightsAreKept_repair :
    (Awaits (tShort (some 2)) 2 ∧ (tShort (some 2)).rv.shorts.find? (fun h => h.pos == 2) = some { pos := 2, until_ := 0, asked := 2 })
    ∧ (Awaits (tShort none) 2 ∧ (tShort none).rv.shorts.find? (fun h => h.pos == 2) = none
        ∧ (tShort none).rv.relAt + (tShort none).rvEndWait ≤ (tShort none).timebase
        ∧ (tShort none).rv.relAt + (tShort none).rvShardTmo ≤ (tShort none).timebase)
    ∧ (Awaits (tShort (some 3)) 2 ∧ { pos := 2, until_ := 0, asked := 3 } ∈ (tShort (some 3)).rv.shorts)
    ∧ (let s : State := { tRing 2 4 true with rv := { (tRing 2 4 true).rv with injDone := true } }
       2 ≤ s.role ∧ s.ringSlice = 2 ∧ s.rv.pass % 65536 = 0 ∧ s.rv.injDone = true) := by
  unfold Awaits; decide +kernel

def cmdRev : Cmd := { seq := 3, pkt := leBytes 2 0x0404 ++ List.replicate 14 0 ++ leBytes 4 8, room := 4, started := true }

theorem witness_WeightsAreKept_report :
    (let s := (tRing 3 4 true).modCx 0 (fun y => { y with cmds := [cmdRev] })
     let r := leBytes 16 (5 * 2 ^ 32)
     s.role = 3 ∧ s.covering (fieldB r 4 4) = [cmdRev] ∧ s.rv.reports = []) := by decide +kernel

/-- A backed shard whose page 0 is requested; its context has room. -/
def tBacked : State :=
  let s := (tWt (tSh .backed (some 0)) id).modCx 2 (fun y => { y with quota := { y.quota with frames := 9 } })
  { s with mem := { s.mem with pageReqs := [(2, 0)] } }
/-- A resident shard in the queue of checks, its bytes in frame 2000. -/
def tQueued : State :=
  (tWt (tSh .resident (some 0)) (fun w => { w with queue := [(2, 5)] })).hbmWrite (2000 * 2097152) tBs

theorem witness_WeightsAreKept_paging :
    (tBacked.mem.pageReqs[0]? = some (2, 0) ∧ tBacked.shardAt 2 0 = some (tSh .backed (some 0)) ∧ tBacked.wt.pageIns.length < 16
      ∧ tBacked.framesLeft 2 (tSh .backed (some 0)).pages = true)
    ∧ (tQueued.wt.queue = [(2, 5)] ∧ tQueued.shardIn? 2 5 .resident = some (tSh .resident (some 0))
      ∧ Readable tQueued (tSh .resident (some 0)) ∧ checkShard (tSh .resident (some 0)) (tQueued.shardBytes (tSh .resident (some 0))) = none)
    ∧ (let s := (tWt (tSh .resident (some 0)) id).dw HM_WT_CTRL (2 ^ 24)
       bit (s.dr HM_WT_CTRL) 24 = true ∧ s.wt.queue = [] ∧ s.wt.shards = [tSh .resident (some 0)]) := by
  have hb : tQueued.shardBytes (tSh .resident (some 0)) = tBs := by decide +kernel
  refine ⟨⟨by decide +kernel, rfl, by decide +kernel, by decide +kernel⟩, ⟨by decide +kernel, rfl, ?_, ?_⟩,
    by decide +kernel, by decide +kernel, rfl⟩
  · intro i hi
    have : (tSh .resident (some 0)).pages = 1 := by decide +kernel
    obtain rfl : i = 0 := by omega
    decide +kernel
  · rw [hb]; exact tBs_check _ _

/-- Shard 5 with its staged replacement; role as given. -/
def shOld : Shard := { tSh .resident (some 0) with digest := 0, cmd := none }
def shNew : Shard := { shOld with state := .staged, replaces := some 5, frames := [2001] }
def tSwap (role : Nat) : State :=
  let s := tRing role 4 true
  { s with wt := { s.wt with shards := [shOld, shNew] } }
def cmdUnl : Cmd := { seq := 7, pkt := leBytes 2 0x0502 ++ List.replicate 14 0 ++ leBytes 4 5, room := 4, started := true }

theorem witness_WeightsAreKept_swap :
    ((tSwap 2).stagedPair 2 5 = some (shNew, shOld) ∧ 2 ≤ (tSwap 2).role ∧ shNew.at_ ≤ (tSwap 2).rv.pass)
    ∧ ((tSwap 0).stagedPair 2 5 = some (shNew, shOld) ∧ (tSwap 0).role = 0 ∧ (tSwap 0).cmds 2 = [])
    ∧ (let s := State.reset.modCx 2 (fun y => { y with overQ := true })
       (s.cx 2).overQ = true ∧ s.kernelRuns 2 = false)
    ∧ (let s : State := { State.reset with mem := { State.reset.mem with zeroing := [⟨3000, 2, false⟩] } }
       s.mem.zeroing.any (fun z => z.frame == 3000 && !z.held) = true)
    ∧ (let s := (tSwap 0).modCx 2 (fun y => { y with cmds := [cmdUnl] })
       s.findCmd 2 7 0x0502 = some cmdUnl ∧ s.anyShard 2 (cmdUnl.f 16 4) = some shOld ∧ shOld.busy = false
        ∧ s.shardRead shOld = false) := by decide +kernel

/-! ### Understudy mode -/

/-- Context 3 in understudy mode in a state. -/
def tUs (st : Nat) (f : Understudy → Understudy) : State :=
  let s := ((tRing 2 4 true).dw MG_US_CTRL (1 + place 13 2 9 + place 17 14 3)).dw MG_US_STATUS st
  { s with us := f s.us }
def usOne : UsRec := { c := 0, ord := 0, beats := 4, digest := 9, status := 0 }
def tLog (k : Cluster) : Cluster := { k with vx := { k.vx with log := [(0, 0, 5), (0, 1, 6)] } }
def kRun : Cmd := { seq := 7, pkt := leBytes 2 0x0401, room := 4, started := true, running := true }

theorem witness_UnderstudyCompares :
    ((tUs 1 id).usState = 1 ∧ (tUs 1 id).usOwn = (0, 0) ∧ (tUs 0 id).usState = 0 ∧ (tUs 2 id).usState = 2)
    ∧ (let s := tUs 2 (fun u => { u with own := [usOne] })
       s.us.own.find? (fun y => y.c == 0) = some usOne ∧ (usRec 0 (leBytes 16 0) 0 0 1 1 1).ord = 0 ∧ s.running s.usCtx = []
        ∧ usOne ∈ s.us.own)
    ∧ (let s := (tUs 2 id).modCx 3 (fun y => { y with cmds := [kRun] })
       s.usState = 2 ∧ s.running s.usCtx = [kRun])
    ∧ bit ((tUs 2 id).dr MG_US_CTRL) 0 = true := by decide +kernel

theorem witness_UnderstudyCompares_beat :
    (let s := ((tUs 2 (fun u => { u with asked := some usOne })).dw MG_US_DIV0 (2 ^ 25)).mod 0 tLog
     s.us.asked = some usOne ∧ s.usBeats 0 0 = some [5, 6]
      ∧ (List.range 2).find? (fun n => [5, 7][n]? != ([5, 6] : List (BitVec 32))[n]?) = some 1
      ∧ bit (s.dr MG_US_DIV0) 25 = true ∧ bits (s.dr MG_US_DIV0) 63 32 = usOne.ord ∧ bits (s.dr MG_US_DIV0) 21 16 = usOne.c)
    := by decide +kernel

theorem witness_UnderstudyCompares_differ : Differ usOne (usRec 0 (leBytes 16 0) 0 0 1 1 1)
    ∧ ¬ Differ { usOne with beats := 0, digest := 0 } (usRec 0 (leBytes 16 0) 0 0 1 1 1) := by
  unfold Differ; decide +kernel

/-! ### The Ibzar command protocol -/

/-- A packet of an opcode for context x, LEN 16-byte units long, with parameter bytes; its seal holds. -/
def pk (op x len : Nat) (ps : List Byte) : List Byte :=
  let b := leBytes 2 op ++ leBytes 1 0 ++ leBytes 1 x ++ leBytes 4 1 ++ leBytes 2 len ++ leBytes 6 0
    ++ sliceB ps 0 (16 * len - 24)
  b ++ leBytes 4 1 ++ leBytes 4 (crc32c b).toNat

/-- Its command. -/
def kOf (p : List Byte) : Cmd := { seq := 1, pkt := p, room := 4 }

/-- A state with a packet's command in flight in context x. -/
def tIn (s : State) (x : Nat) (p : List Byte) : State := s.modCx x (fun y => { y with cmds := [kOf p] })

/-- Whether that command is due. -/
def due (s : State) (x op : Nat) (p : List Byte) : Bool :=
  (tIn s x p).nextCmd x == some (kOf p) && (kOf p).op == op && (reservedByte p).isNone

/-- Context 0 enabled, with stage 3 reached and its window holding a packet. -/
def tWindow (p : List Byte) (sa : Option Nat) : State :=
  let s := ((State.reset.dwf MG_SU_STATUS 2 0 3).dw (cxReg MG_CX_CTRL 0) 1).dw (cxReg MG_CX_INTAKE 0) (2 ^ 20)
  { (s.dw (cxReg MG_CX_RRING 0) 4).modCx 0 (fun y => { y with state := 1, intake := amSetMany 0 [] 0 p, sealAt := sa }) with
    timebase := 200000 }
def pkBad : List Byte := (pk 0x0A01 0 3 []).take 44 ++ leBytes 4 0

theorem witness_ContextsAreCommanded_intake :
    (let s := tWindow (pk 0x0A01 0 3 []) none
     s.findPkt 0 = .sealed (pk 0x0A01 0 3 []) ∧ sealOk (pk 0x0A01 0 3 []) = true ∧ s.unreplied 0 < 256
      ∧ s.replySpace 0 (replyRoom (pktOp (pk 0x0A01 0 3 []))) = true ∧ s.pktCheck 0 (pk 0x0A01 0 3 []) false = none)
    ∧ (let s := tWindow (pk 0x0A01 1 3 []) none
       s.findPkt 0 = .sealed (pk 0x0A01 1 3 []) ∧ s.pktCheck 0 (pk 0x0A01 1 3 []) false = some (MALFORMED, 3))
    ∧ ((tWindow pkBad none).findPkt 0 = .sealed pkBad ∧ sealOk pkBad = false ∧ ((tWindow pkBad none).cx 0).sealAt = none)
    ∧ ((tWindow pkBad (some 5)).findPkt 0 = .sealed pkBad ∧ ((tWindow pkBad (some 5)).cx 0).sealAt = some 5
      ∧ 5 + 100000 ≤ (tWindow pkBad (some 5)).timebase ∧ (tWindow pkBad (some 5)).replySpace 0 1 = true) := by decide +kernel

theorem witness_ContextsAreCommanded_message :
    (∀ b ∈ [false, true],
      let s : State := { State.reset.modCx 0 (fun y => { y with coal := [(3, 0, b)] }) with pcie := { State.reset.pcie with
        bme := 1, msixEn := 1, table := [(3, 7)] } }
      (s.cx 0).coal.find? (fun y => y.1 == 3) = some (3, 0, b) ∧ MsixOpen s 0 3) := by
  unfold MsixOpen; decide +kernel

def qBytes : List Byte := leBytes 16 2 ++ leBytes 8 3 ++ leBytes 4 100 ++ leBytes 10 0

/-- Context 2 in a state, with a quota that context 0 leaves. -/
def tCtx (st : Nat) : State :=
  (State.reset.modCx 0 (fun y => { y with state := 1 })).modCx 2 (fun y => { y with state := st })

theorem witness_ContextsAreCommanded_family1 :
    (due (tCtx 1) 0 0x0101 (pk 0x0101 0 3 (leBytes 1 2)) ∧ (kOf (pk 0x0101 0 3 (leBytes 1 2))).f 16 1 = 2)
    ∧ (due (tCtx 0) 0 0x0102 (pk 0x0102 0 5 qBytes) ∧ (kOf (pk 0x0102 0 5 qBytes)).f 16 1 = 2
        ∧ (badQuota (kOf (pk 0x0102 0 5 qBytes))).all (fun b => !b.1) ∧ ((tCtx 0).cx 2).state = 0
        ∧ (tIn (tCtx 0) 0 (pk 0x0102 0 5 qBytes)).quotaFits 2 (kOf (pk 0x0102 0 5 qBytes)).quota = true)
    ∧ due (tCtx 1) 0 0x0103 (pk 0x0103 0 3 (leBytes 1 2))
    ∧ due (tCtx 1) 0 0x0104 (pk 0x0104 0 5 qBytes)
    ∧ (due (tCtx 1) 0 0x0105 (pk 0x0105 0 3 (leBytes 1 2)) ∧ ((tCtx 1).cx 2).state = 1)
    ∧ (due (tCtx 2) 0 0x0106 (pk 0x0106 0 3 (leBytes 1 2)) ∧ ((tCtx 2).cx 2).state = 2 ∧ (tCtx 2).canRestore 2 = true)
    ∧ (due (tCtx 1) 0 0x0107 (pk 0x0107 0 3 (leBytes 2 800)) ∧ (kOf (pk 0x0107 0 3 (leBytes 2 800))).f 16 2 = 800)
    ∧ (due (tCtx 1) 0 0x0A03 (pk 0x0A03 0 3 (leBytes 2 2 ++ leBytes 2 5)) ∧ (kOf (pk 0x0A03 0 3 (leBytes 2 2 ++ leBytes 2 5))).f 16 1 = 2
        ∧ (kOf (pk 0x0A03 0 3 (leBytes 2 2 ++ leBytes 2 5))).f 18 2 = 5) := by decide +kernel

theorem witness_ContextsAreCommanded_clusters :
    (let p := pk 0x0105 0 3 (leBytes 1 2)
     let s := (tCtx 2).modCx 0 (fun y => { y with cmds := [{ kOf p with started := true }] })
     s.preempting 2 = some { kOf p with started := true } ∧ s.sy.changes = [] ∧ (∀ c, (s.cl c).owner = 2 → (s.cl c).ended_ = true))
    ∧ (let s := tCl (fun k => { k with wiping := true })
       (s.cl 0).wiping = true ∧ (s.cl 0).drained = true) := by decide +kernel

/-- Context 0 enabled with frames to spare, its page 0 mapped to frame 2000. -/
def tMem : State := ((tCtx 1).modCx 0 (fun y => { y with quota := { y.quota with frames := 100, clmask := 3, vctrs := 8 } })).setPage 0 0
  (3 + place 26 8 2000)
def ca (p : Nat) : List Byte := leBytes 8 (2 ^ 60 + p * 2097152)
def pMap (n : Nat) : List Byte := pk 0x0201 0 4 (leBytes 16 0 ++ ca 1 ++ leBytes 4 n)
def pUnmap : List Byte := pk 0x0202 0 4 (leBytes 16 0 ++ ca 0 ++ leBytes 4 1)
def pCopy : List Byte := pk 0x0203 0 4 (leBytes 8 64 ++ leBytes 8 0 ++ ca 0 ++ leBytes 8 (2 ^ 60 + 4096))
def pFill : List Byte := pk 0x0204 0 4 (leBytes 8 64 ++ leBytes 8 77 ++ leBytes 8 0 ++ ca 0)
def kGo (p : List Byte) : Cmd := { kOf p with started := true }
def tGo (s : State) (p : List Byte) : State := s.modCx 0 (fun y => { y with cmds := [kGo p] })

theorem witness_MemoryIsCommanded_pages :
    (due tMem 0 0x0201 (pMap 3) ∧ (kOf (pMap 3)).f 40 4 = 3 ∧ (tIn tMem 0 (pMap 3)).pageAddr? ((kOf (pMap 3)).f 32 8) = true
      ∧ pagesEnd ((kOf (pMap 3)).f 32 8) 3 = true ∧ bits ((kOf (pMap 3)).f 32 8) 41 21 = 1
      ∧ (∀ q ∈ upFrom 1 3, bit (tMem.page 0 q) 0 = false) ∧ tMem.framesLeft 0 3 = true ∧ 3 + tMem.framesUsed.length ≤ 293888)
    ∧ (due tMem 0 0x0201 (pMap 0) ∧ (kOf (pMap 0)).f 40 4 = 0)
    ∧ (due tMem 0 0x0202 pUnmap ∧ (kOf pUnmap).f 40 4 = 1 ∧ bits ((kOf pUnmap).f 32 8) 41 21 = 0 ∧ bit (tMem.page 0 0) 4 = false
      ∧ tMem.progPage 0 0 = false ∧ bit (tMem.page 0 0) 0 = true) := by decide +kernel

theorem witness_MemoryIsCommanded_moves :
    (due tMem 0 0x0203 pCopy ∧ (kOf pCopy).f 16 8 = 64 ∧ tMem.cmdSpace 0 ((kOf pCopy).f 32 8) 64 = true
      ∧ tMem.cmdSpace 0 ((kOf pCopy).f 40 8) 64 = true)
    ∧ (due tMem 0 0x0204 pFill ∧ (kOf pFill).f 16 8 = 64 ∧ tMem.cmdSpace 0 ((kOf pFill).f 40 8) 64 = true)
    ∧ ((tGo tMem pCopy).findCmd 0 1 0x0203 = some (kGo pCopy) ∧ needsHost ((kOf pCopy).f 32 8) = false
      ∧ tMem.absentPage 0 ((kOf pCopy).f 32 8) 64 = none
      ∧ tMem.srcRead 0 ((kOf pCopy).f 32 8) 64 [] = .ok (List.replicate 64 0) [] ∧ gKind ((kOf pCopy).f 40 8) = 1
      ∧ gOff ((kOf pCopy).f 40 8) % 2097152 + 64 ≤ 2097152
      ∧ tMem.translate 0 (gOff ((kOf pCopy).f 40 8)) = .at_ (2000 * 2097152 + 4096) false)
    ∧ ((tGo tMem pFill).findCmd 0 1 0x0204 = some (kGo pFill) ∧ gKind ((kOf pFill).f 40 8) = 1
      ∧ tMem.translate 0 (gOff ((kOf pFill).f 40 8)) = .at_ (2000 * 2097152) false) := by decide +kernel

def pGrant : List Byte := pk 0x0205 0 4 (leBytes 16 1 ++ leBytes 8 4096 ++ leBytes 8 8192)
def pRevoke : List Byte := pk 0x0206 0 3 (leBytes 1 1)
def pBar : List Byte := pk 0x0207 0 4 (leBytes 4 2 ++ leBytes 12 0 ++ leBytes 8 0 ++ ca 0)
def pLoad : List Byte := pk 0x0301 0 4 (leBytes 4 64 ++ leBytes 12 0 ++ ca 0 ++ ca 1)
def pDrop : List Byte := pk 0x0302 0 3 (leBytes 2 0)

theorem witness_MemoryIsCommanded_windows :
    (due tMem 0 0x0205 pGrant ∧ (kOf pGrant).f 40 8 = 8192 ∧ (kOf pGrant).f 32 8 = 4096 ∧ (kOf pGrant).f 16 1 = 1)
    ∧ (due tMem 0 0x0206 pRevoke ∧ (kOf pRevoke).f 16 1 = 1)
    ∧ ((tGo tMem pRevoke).findCmd 0 1 0x0206 = some (kGo pRevoke) ∧ (tGo tMem pRevoke).strayHost 0 = false)
    ∧ (due tMem 0 0x0207 pBar ∧ (kOf pBar).f 16 4 = 2 ∧ tMem.pageAddr? ((kOf pBar).f 40 8) = true ∧ (kOf pBar).f 32 8 = 0
      ∧ pagesEnd ((kOf pBar).f 40 8) 2 = true) := by decide +kernel

theorem witness_MemoryIsCommanded_programs :
    (due tMem 0 0x0301 pLoad ∧ (kOf pLoad).f 16 4 = 64 ∧ tMem.progHold 0 (kOf pLoad) = false ∧ tMem.freeProg 0 = some 0
      ∧ tMem.cmdSpace 0 ((kOf pLoad).f 32 8) 64 = true ∧ tMem.absentPage 0 ((kOf pLoad).f 32 8) 64 = none
      ∧ pagesEnd ((kOf pLoad).f 40 8) 1 = true ∧ (∀ q ∈ upFrom (bits ((kOf pLoad).f 40 8) 41 21) 1, bit (tMem.page 0 q) 0 = false)
      ∧ tMem.framesLeft 0 1 = true ∧ tMem.srcRead 0 ((kOf pLoad).f 32 8) 64 [] = .ok (List.replicate 64 0) [])
    ∧ due (tMem.modCx 0 (fun y => { y with progs := [⟨0, 2 ^ 60, 64, []⟩] })) 0 0x0302 pDrop := by decide +kernel

/-- A launch of program 0 on cluster 0, with its stack in the cluster's scratchpad. -/
def pLaunch : List Byte :=
  pk 0x0401 0 11 (leBytes 16 0 ++ leBytes 8 1 ++ ca 0 ++ leBytes 8 4096 ++ leBytes 8 0 ++ leBytes 4 1)
def tProg : State := tMem.modCx 0 (fun y => { y with progs := [⟨0, 2 ^ 60, 64, []⟩] })
def kL : Cmd := { kGo pLaunch with running := true, deadline := some 0 }
def tRun (ends : List KEnd) (more : List Cmd) : State :=
  (tProg.modCx 0 (fun y => { y with cmds := { kL with ends := ends } :: more })).mod 0 (fun k =>
    { k with owner := 0, launch := some (0, 1) })
def kEx : KEnd := { clus := 0, exited := true }

theorem witness_LaunchesAreCommanded_start :
    (due tProg 0 0x0401 pLaunch ∧ (kOf pLaunch).f 32 8 = 1 ∧ ((tIn tProg 0 pLaunch).badLaunch 0 (kOf pLaunch)).all (fun b => !b.1)
      ∧ (tIn tProg 0 pLaunch).launchSpace 0 (kOf pLaunch) = true ∧ (kOf pLaunch).mask = [0] ∧ bit (tProg.cx 0).quota.clmask 0 = true)
    ∧ (let s := tGo tProg pLaunch
       s.findCmd 0 1 0x0401 = some (kGo pLaunch) ∧ (kGo pLaunch).running = false ∧ s.launchBefore 0 (kGo pLaunch) = false
        ∧ s.swapDue 0 (kGo pLaunch) = false ∧ s.canTakeKernel 0 0 = true ∧ s.absentPage 0 ((kGo pLaunch).f 40 8) 64 = none)
    ∧ (let s := tRun [kEx] []
       s.findCmd 0 1 0x0401 = some { kL with ends := [kEx] } ∧ ({ kL with ends := [kEx] } : Cmd).allEnded = true ∧ s.kernelDone 0 = true
        ∧ (∀ c : Cl, (s.cl c).launch = some (0, 1) → c = 0) ∧ kL.bills = [])
    ∧ ((tRun [] []).findCmd 0 1 0x0401 = some kL ∧ kL.allEnded = false ∧ kL.deadline = some 0) := by decide +kernel

def kCan (op : Nat) : Cmd := { seq := 2, pkt := pk op 0 3 (leBytes 4 1), room := 4 }

theorem witness_LaunchesAreCommanded_cancel :
    (due tProg 0 0x0402 (pk 0x0402 0 3 (leBytes 4 9)) ∧ (tIn tProg 0 (pk 0x0402 0 3 (leBytes 4 9))).launchNamed 0
        (kOf (pk 0x0402 0 3 (leBytes 4 9))) = none)
    ∧ (∀ op ∈ [0x0402, 0x0403], let s := tRun [] [kCan op]
       s.nextCmd 0 = some (kCan op) ∧ (kCan op).op = op ∧ reservedByte (kCan op).pkt = none ∧ s.launchNamed 0 (kCan op) = some kL
        ∧ kL.same (kCan op) = false)
    ∧ (let s := tProg.modCx 0 (fun y => { y with cmds := [kGo pLaunch, kCan 0x0402] })
       s.nextCmd 0 = some (kCan 0x0402) ∧ s.launchNamed 0 (kCan 0x0402) = some (kGo pLaunch) ∧ (kGo pLaunch).same (kCan 0x0402) = false
        ∧ (kGo pLaunch).running = false)
    ∧ due tProg 0 0x0403 (pk 0x0403 0 3 (leBytes 4 9)) := by decide +kernel

theorem witness_LaunchesAreCommanded_revolve :
    (let p := pk 0x0404 0 3 (leBytes 4 5 ++ leBytes 4 0)
     due tProg 0 0x0404 p ∧ (kOf p).f 16 4 = 5 ∧ (kOf p).f 20 4 = tProg.rv.pass ∧ tProg.rv.reports = []
      ∧ bits (tProg.dr (curReg SY_CUR_CFG 15)) 54 52 ≠ 7
      ∧ [List.replicate 16 (0 : Byte)].find? (fun r => fieldB r 4 4 == (kOf p).f 20 4) = some (List.replicate 16 0)) := by decide +kernel

def pSh (op : Nat) (ps : List Byte) : List Byte := pk op 2 3 (leBytes 4 5 ++ ps)
def pWt (len : Nat) : List Byte :=
  pk 0x0501 2 9 (leBytes 16 0 ++ leBytes 4 6 ++ leBytes 4 1 ++ ca 4 ++ leBytes 4 len ++ leBytes 16 0 ++ leBytes 8 0 ++ leBytes 4 0xFFFFFFFF)
/-- Context 2 with frames to spare and shard 5 in a state, backed by a flies image. -/
def tW (st : ShState) : State :=
  (tWt { tSh st (some 0) with cmd := none } id).modCx 2 (fun y => { y with
    cmds := [], quota := { y.quota with frames := 100, fly := 100 }, wkeys := [⟨1, 0, 0⟩] })

theorem witness_WeightsAreCommanded_load :
    (due (tW .resident) 2 0x0501 (pWt 128)
      ∧ (let s := tIn (tW .resident) 2 (pWt 128)
         let h := s.newShard 2 (kOf (pWt 128))
         h.len = 128 ∧ (s.badShard (kOf (pWt 128))).all (fun b => !b.1) ∧ s.shardExtent h = false ∧ s.flyDenied h = false
          ∧ s.shardQuota h = false))
    ∧ (due (tW .resident) 2 0x0501 (pWt 0) ∧ (((tIn (tW .resident) 2 (pWt 0)).badShard (kOf (pWt 0))).all (fun b => !b.1))) := by
  decide +kernel

def h5 (st : ShState) : Shard := { tSh st (some 0) with cmd := none }

theorem witness_WeightsAreCommanded_known :
    (∀ op ∈ [0x0502, 0x0503, 0x0504, 0x0505, 0x0506], due (tW .resident) 2 op (pSh op []) = true
      ∧ (tIn (tW .resident) 2 (pSh op [])).anyShard 2 5 = some (h5 .resident) ∧ (kOf (pSh op [])).f 16 4 = 5)
    ∧ (due (tW .backed) 2 0x0503 (pSh 0x0503 []) ∧ (tIn (tW .backed) 2 (pSh 0x0503 [])).anyShard 2 5 = some (h5 .backed)
      ∧ (tW .backed).wt.pageIns.length < 16 ∧ (tW .backed).framesLeft 2 (h5 .backed).pages = true)
    ∧ ((h5 .resident).pin = false ∧ (h5 .resident).writable = false ∧ (h5 .resident).fly.isSome = true ∧ (h5 .resident).replaces = none
      ∧ (tW .resident).shardRead (h5 .resident) = false ∧ (h5 .resident).busy = false) := by
  refine ⟨?_, ⟨by decide +kernel, rfl, by decide +kernel, by decide +kernel⟩, by decide +kernel⟩
  intro op h
  simp only [List.mem_cons, List.not_mem_nil, or_false] at h
  rcases h with rfl | rfl | rfl | rfl | rfl <;> exact ⟨by decide +kernel, rfl, by decide +kernel⟩

theorem witness_WeightsAreCommanded_unknown :
    (∀ op ∈ [0x0502, 0x0504, 0x0505, 0x0506], due tMem 2 op (pSh op []) = true ∧ ((tIn tMem 2 (pSh op [])).anyShard 2 5).isNone)
    ∧ (let s : State := { tW .resident with wt := { (tW .resident).wt with shards := [] } }
       due s 2 0x0507 (pk 0x0507 2 3 []) ∧ (s.wt.flies.find? (fun f => f.num == 0)).isSome
        ∧ ((s.cx 2).wkeys.any (fun w => w.ident == 0)) = true) := by decide +kernel

/-- Context 0 with virtual counters 1 and 2 mapped to 9 and 8; curtains off. -/
def tV : State := ((tMem.dw (SY_VMAP + 8) (9 + 2 ^ 16)).dw (SY_VMAP + 16) (8 + 2 ^ 16)).setDctr 9 5
def pV (op : Nat) (ps : List Byte) : List Byte := pk op 0 (if op = 0x0604 ∨ op = 0x0608 then 4 else 3) ps

theorem witness_CountersAreCommanded_map :
    (let p := pV 0x0601 (leBytes 2 6 ++ leBytes 2 2)
     due tV 0 0x0601 p ∧ (kOf p).f 18 2 = 2 ∧ (kOf p).f 16 2 = 6 ∧ (∀ v ∈ upFrom 6 2, tV.vmap 0 v = none)
      ∧ (tV.ctrsOf 0).length + 2 ≤ (tV.cx 0).quota.vctrs ∧ (tV.freeCtrs 2).length = 2)
    ∧ (let p := pV 0x0602 (leBytes 2 1 ++ leBytes 2 2)
       due tV 0 0x0602 p ∧ (kOf p).f 18 2 = 2 ∧ (kOf p).f 16 2 = 1 ∧ ∀ v ∈ upFrom 1 2, (tV.vmap 0 v).isSome = true) := by decide +kernel

theorem witness_CountersAreCommanded_signal :
    (let p := pV 0x0603 (leBytes 8 1 ++ leBytes 8 7)
     due tV 0 0x0603 p ∧ (kOf p).f 24 8 = 7 ∧ NoCurtain tV ∧ tV.vmap 0 ((kOf p).f 16 2) = some 9 ∧ tV.dctr 9 + 7 < 2 ^ 48
      ∧ tV.devPairBroken 9 (tV.dctr 9 + 7) = false)
    ∧ (let p := pV 0x0603 (leBytes 8 1 ++ leBytes 8 (2 ^ 48 - 1))
       due tV 0 0x0603 p ∧ (kOf p).f 24 8 < 2 ^ 48 ∧ tV.vmap 0 ((kOf p).f 16 2) = some 9 ∧ 2 ^ 48 ≤ tV.dctr 9 + (kOf p).f 24 8)
    ∧ (let p := pV 0x0604 (leBytes 8 1 ++ leBytes 8 7)
       due tV 0 0x0604 p ∧ (kOf p).f 24 8 = 7 ∧ (tV.vmap 0 ((kOf p).f 16 2)).isSome = true ∧ (tV.hostWatches 0).length < 256)
    ∧ due tV 0 0x0605 (pV 0x0605 [])
    ∧ (due tV 0 0x0606 (pV 0x0606 (leBytes 2 1)) ∧ tV.vmap 0 ((kOf (pV 0x0606 (leBytes 2 1))).f 16 2) = some 9)
    ∧ (∀ op ∈ [0x0603, 0x0604, 0x0606], due tV 0 op (pV op (leBytes 2 3)) = true ∧ (kOf (pV op (leBytes 2 3))).f 16 2 = 3)
    ∧ tV.vmap 0 3 = none := by
  unfold NoCurtain; decide +kernel

theorem witness_CountersAreCommanded_pairs :
    (let p := pV 0x0607 (leBytes 2 4 ++ leBytes 2 1 ++ leBytes 2 2 ++ leBytes 1 1)
     due tV 0 0x0607 p ∧ (kOf p).f 16 1 ≤ 15 ∧ (kOf p).f 22 1 = 1 ∧ tV.vmap 0 ((kOf p).f 18 2) = some 9
      ∧ tV.vmap 0 ((kOf p).f 20 2) = some 8 ∧ tV.dctr 8 ≤ tV.dctr 9)
    ∧ (let p := pV 0x0608 (leBytes 2 3 ++ leBytes 2 2 ++ leBytes 4 1 ++ leBytes 2 2 ++ leBytes 1 2)
       due tV 0 0x0608 p ∧ (badCurtain (kOf p)).all (fun b => !b.1) ∧ tV.dr (curReg SY_CUR_CFG ((kOf p).f 16 1)) = 0 ∧ (kOf p).f 26 1 = 2
        ∧ tV.vmap 0 ((kOf p).f 18 2) = some 8 ∧ tV.vmap 0 ((kOf p).f 20 2) = some 9 ∧ tV.dctr 8 = 0) := by decide +kernel

/-- A ring member without a description, and a description of it. -/
def tJoin : State := tMem.dwf LK_RV_STATUS 1 0 1
def dBytes : List Byte := leBytes 2 4 ++ leBytes 2 1 ++ leBytes 2 5 ++ leBytes 2 6 ++ leBytes 1 1 ++ leBytes 1 2 ++ leBytes 2 7 ++ leBytes 2 6
def pDesc : List Byte := pk 0x0701 0 5 (leBytes 16 0 ++ dBytes)
def pRt : List Byte := pk 0x0702 0 3 (leBytes 2 9 ++ leBytes 2 0)
def pRt2 : List Byte := pk 0x0702 0 4 (leBytes 2 9 ++ leBytes 2 2 ++ leBytes 12 0 ++ leBytes 4 (2 ^ 20) ++ leBytes 4 5)
def pRel (op : Nat) : List Byte := pk 0x0704 0 6 (leBytes 2 9 ++ leBytes 14 0 ++ leBytes 2 op ++ leBytes 6 0 ++ leBytes 2 3)
def tFar : State := tMem.dw (LK_RT_ENT + 72) (2 ^ 20)

theorem witness_TheRingIsCommanded_ring :
    (due tJoin 0 0x0701 pDesc ∧ tJoin.role ≠ 0 ∧ (badDesc (sliceB (kOf pDesc).pkt 32 32)).all (fun b => !b.1) ∧ tMem.role = 0
      ∧ bit (tJoin.dr LK_RV_STATUS) 2 = false)
    ∧ (due tMem 0 0x0702 pRt2 ∧ (kOf pRt2).f 18 2 = 2 ∧ (kOf pRt2).f 16 2 = 9 ∧ ∀ i < 2, (kOf pRt2).f (32 + 4 * i) 4 < 2 ^ 21)
    ∧ (let p := pk 0x0703 0 3 (leBytes 1 2 ++ leBytes 1 3 ++ leBytes 1 1)
       due tMem 0 0x0703 p ∧ (kOf p).f 16 1 = 2 ∧ (kOf p).f 17 1 = 3 ∧ (kOf p).f 18 1 = 1 ∧ tMem.sliceOf 3 = none)
    ∧ (∀ op ∈ [0x0801, 0x0903], due tFar 0 0x0704 (pRel op) = true ∧ (kOf (pRel op)).f 16 2 = 9 ∧ (kOf (pRel op)).f 32 2 = op)
    ∧ (bit (tFar.dr (LK_RT_ENT + 8 * 9)) 20 = true ∧ tFar.rngFail = false
        ∧ ({ tFar with pcie := { tFar.pcie with bme := 1 } } : State).mayMaster 0 = true) := by decide +kernel

def pA (op : Nat) (ps : List Byte) : List Byte := pk op 0 3 ps

theorem witness_TheRingIsCommanded_device :
    due tMem 0 0x0705 (pA 0x0705 []) ∧ due tMem 0 0x0801 (pA 0x0801 [])
    ∧ (let p := pA 0x0802 (leBytes 8 0 ++ leBytes 8 PW_CAP)
       due tMem 0 0x0802 p ∧ (kOf p).f 24 8 % 8 = 0 ∧ tMem.mayRead 0 ((kOf p).f 24 8) = true)
    ∧ (let p := pA 0x0803 (leBytes 8 77 ++ leBytes 8 MG_TB_LOAD)
       due tMem 0 0x0803 p ∧ (kOf p).f 24 8 = MG_TB_LOAD ∧ (kOf p).f 24 8 % 8 = 0)
    ∧ (let p := pA 0x0804 (leBytes 2 3 ++ leBytes 2 9 ++ leBytes 1 1)
       due tMem 0 0x0804 p ∧ (kOf p).f 16 1 = 3 ∧ (kOf p).f 18 2 = 9 ∧ (kOf p).f 20 1 = 1 ∧ bit (tMem.dr MG_US_CTRL) 0 = false)
    ∧ (due tMem 0 0x0A03 (pA 0x0A03 (leBytes 2 1)) ∧ (kOf (pA 0x0A03 (leBytes 2 1))).f 16 1 = 1 ∧ tMem.debugOpen = false)
    ∧ (let p := pA 0x0A03 (leBytes 2 3 ++ leBytes 2 6)
       due tMem 0 0x0A03 p ∧ (kOf p).f 16 1 = 3 ∧ (kOf p).f 18 2 = 6)
    ∧ (let s := ((tPort 0 0 (fun q => { q with offAt := some 0 })).dwf (portReg LK_PORT_CTRL 0) 0 0 1)
       (s.port 0).offAt = some 0 ∧ bit (s.dr (portReg LK_PORT_CTRL 0)) 0 = true ∧ s.portState 0 = 0 ∧ s.role ≠ 0
        ∧ s.err.dead = false) := by decide +kernel

/-- Context 0 with a host window and bus mastering. -/
def tSec : State :=
  { tMem.modCx 0 (fun y => { y with wins := [(0, 0, 2 ^ 40)] }) with pcie := { tMem.pcie with bme := 1 } }
def pB (op : Nat) (ps : List Byte) : List Byte := pk op 0 4 ps
def pAtt (n : Nat) : List Byte := pk 0x0902 0 5 (leBytes 4 n)
def hostFw : List Byte := List.replicate 5440 0
def hostLc : List Byte := leBytes 44 0 ++ leBytes 4 1 ++ List.replicate 5376 0

theorem witness_SecurityIsCommanded_attest :
    (∀ n ∈ [10879, 10880], due tSec 0 0x0901 (pB 0x0901 (leBytes 4 n)) = true ∧ (kOf (pB 0x0901 (leBytes 4 n))).f 16 4 = n)
    ∧ (∀ n ∈ [3815, 3816], due tSec 0 0x0902 (pAtt n) = true ∧ (kOf (pAtt n)).f 16 4 = n)
    ∧ (due tSec 0 0x0903 (pB 0x0903 (leBytes 4 68)) ∧ (kOf (pB 0x0903 (leBytes 4 68))).f 16 4 = 68 ∧ tSec.inHostWin 0 0 68 = true
      ∧ tSec.mayMaster 0 = true ∧ (kOf (pB 0x0903 (leBytes 4 68))).f 32 8 = 0)
    ∧ due tSec 0 0x0A01 (pA 0x0A01 []) := by decide +kernel

theorem witness_SecurityIsCommanded_change :
    (due tSec 0 0x0904 (pB 0x0904 (leBytes 4 5440)) ∧ (kOf (pB 0x0904 (leBytes 4 5440))).f 16 4 = 5440 ∧ tSec.inHostWin 0 0 5440 = true
      ∧ hostFw.length = 5440 ∧ imgLen hostFw = 0)
    ∧ (due tSec 0 0x0A02 (pB 0x0A02 (leBytes 4 2 ++ leBytes 4 5424)) ∧ (kOf (pB 0x0A02 (leBytes 4 2 ++ leBytes 4 5424))).f 16 1 = 2
      ∧ (kOf (pB 0x0A02 (leBytes 4 2 ++ leBytes 4 5424))).f 20 4 = 5424 ∧ (lcSigners tSec.lcState 2).isSome = true
      ∧ tSec.inHostWin 0 0 5424 = true ∧ hostLc.length = 5424 ∧ fieldB hostLc 44 4 = 1 ∧ tSec.rngFail = false)
    ∧ (due tSec 0 0x0A02 (pB 0x0A02 (leBytes 4 4 ++ leBytes 4 0)) ∧ lcSigners tSec.lcState 4 = none) := by decide +kernel

/-! ### The host interface -/

/-- The device at stage 2 with its link up, the PF's memory space and bus mastering on, and page 0 of context 0 at frame 0. -/
def tHost : State :=
  let s := (((State.reset.dwf MG_SU_STATUS 2 0 2).dw PC_LINK_STATUS 1).setPage 0 0 3).modCx 0 (fun y => { y with bar4 := [(0, 0)] })
  { s with pcie := { s.pcie with bme := 1, mse := 1 } }

theorem witness_TheHostConfigures :
    (let s : State := { tHost with pcie := { tHost.pcie with perst := true }, pw := { tHost.pw with on := true, uptime := 2 ^ 40 } }
     s.canTrain 6 8 true = true ∧ linkWord 6 8 true ≠ bits (s.dr PC_LINK_STATUS) 7 0 ∧ s.canTrain 0 0 false = true
       ∧ linkWord 0 0 false ≠ bits (s.dr PC_LINK_STATUS) 7 0 ∧ s.frozen = false ∧ s.pw.on = true)
    ∧ (LinkServes tHost ∧ bit (tHost.dr PC_LINK_STATUS) 9 = false ∧ tHost.fnLive 0 = true ∧ tHost.fnLive 3 = false ∧ tHost.cfgOpen = true)
    ∧ (LinkServes (tHost.dwf PC_LINK_STATUS 9 9 1) ∧ bit ((tHost.dwf PC_LINK_STATUS 9 9 1).dr PC_LINK_STATUS) 9 = true)
    ∧ (let s : State := { tHost with pcie := { tHost.pcie with msixEn := 1, pba := [5] } }
       s.fnLive 0 = true ∧ s.pcie.pba.contains (64 * 0 + 5) = true ∧ bit s.pcie.msixEn 0 = true ∧ bit s.pcie.fmask 0 = false
         ∧ s.mayMaster 0 = true) := by
  unfold LinkServes; decide +kernel

theorem witness_TheHostReaches_resets :
    (tHost.fnLive 0 = true ∧ tHost.stage ≠ 0)
    ∧ (let s : State := { tHost with boot := { tHost.boot with flrs := [2] }, mem := { tHost.mem with zeroing := [⟨7, 2, true⟩] } }
       2 ∈ s.boot.flrs ∧ ∃ z ∈ s.mem.zeroing, z.ctx = 2 ∧ z.held = true)
    ∧ ((amGet (0, 0) ({ tHost.pcie with ide := [(0, 1, 0)] } : Pcie).ide 0).1 = 1) := by decide +kernel

theorem witness_TheHostReaches_windows :
    LinkServes tHost ∧ tHost.memOn 0 = true ∧ tHost.memOn 1 = false ∧ 2 ≤ tHost.stage ∧ tHost.ideOk 0 false = true ∧ tHost.ideOk 0 true = false
    ∧ (tHost.cx 0).bar4.find? (fun e => e.1 == 2097144 / 2097152) = some (0, 0)
    ∧ tHost.translate 0 (0 * 2097152 + 2097144 % 2097152) = .at_ 2097144 false := by
  unfold LinkServes; decide +kernel

theorem witness_TheHostReaches_errors :
    tHost.linkIsUp = true ∧ tHost.cfgGet 0 0x104 = 0 ∧ tHost.frozen = false
    ∧ (let s := tHost.core 2 (fun k => { k with stall := .hostRead 5 8 false 64 4 })
       bit (s.cfgGet 0 0x98) 4 = false ∧ s.mayMaster 0 = true ∧ (s.cl 2).owner = 0 ∧ (s.cl 2).core.stall = .hostRead 5 8 false 64 4) := by
  decide +kernel


/-- The mailbox of the PF at a point of its connection, with a session. -/
def tMail (n : Nat) (done : Bool) : State :=
  tHost.setMailbox 0 { conn := n, sess := [{ id := 0x10007, done := done, hbeat := true }] }

theorem witness_TheMailboxAnswers :
    (∀ n ∈ [1, 2, 3], (tMail n true).doeLive 0 = true ∧ ((tMail n true).mailbox 0).conn = n ∧ (tMail n true).rngFail = false)
    ∧ (tMail 3 true).frozen = false := by decide +kernel

theorem witness_SessionsAreHeld :
    (∀ d ∈ [false, true], (tMail 3 d).doeLive 0 = true
      ∧ ((tMail 3 d).mailbox 0).sess.find? (fun k => k.id == (0x10007 : BitVec 32).toNat && k.done == d)
          = some { id := 0x10007, done := d, hbeat := true })
    ∧ ((tMail 3 true).mailbox 0).sess.length < 4 ∧ (tMail 3 true).rngFail = false
    ∧ (let s := tHost.setMailbox 0 { conn := 3, sess := List.replicate 4 { id := 1 } }
       s.doeLive 0 = true ∧ (s.mailbox 0).conn = 3 ∧ 4 ≤ (s.mailbox 0).sess.length ∧ s.rngFail = false)
    ∧ (∀ k ∈ ((tMail 3 true).mailbox 0).sess, k.id ≠ (5 : BitVec 32).toNat) := by decide +kernel


/-! ### Start-up, power, clocks and resets -/

/-- With power, and long after it came. -/
def tPow : State := { State.reset with pw := { State.reset.pw with on := true, vstby := true, vin := true, uptime := 2 ^ 50 } }

theorem witness_TheStagesOfStartUp_power :
    (State.reset.pw.on = false ∧ State.reset.pw.isOpen = false ∧ State.reset.pw.shut = false ∧ State.reset.sec.pend = false
      ∧ State.reset.sec.active = 0)
    ∧ (tPow.pw.on = true ∧ tPow.pll = false)
    ∧ (∀ b ∈ [false, true], let s : State := { tPow with pll := true, boot := { tPow.boot with fwOk := true, fromPend := b } }
       s.pw.on = true ∧ s.pll = true ∧ s.boot.fwOk = true ∧ s.stage = 0 ∧ s.lcState ≠ 4 ∧ s.boot.fromPend = b)
    ∧ (∀ n ∈ [0, 1, 2, 5], let s : State := { tPow.dwf (stkReg HM_STK_STATUS 3) 1 0 1 with boot := { tPow.boot with trainFails := [(3, n)] } }
       bits (s.dr (stkReg HM_STK_STATUS 3)) 1 0 = 1 ∧ amGet 0 s.boot.trainFails 3 = n) := by decide +kernel

/-- Stage 1, with every stack trained. -/
def tTrained : State := (List.range 8).foldl (fun s n => s.dwf (stkReg HM_STK_STATUS n) 1 0 2) (tPow.dwf MG_SU_STATUS 2 0 1)

theorem witness_TheStagesOfStartUp_stages :
    (let s : State := { tTrained with mem := { tTrained.mem with wiping := true }, boot := { tTrained.boot with mounted := true } }
     s.mem.wiping = true ∧ s.stage = 1 ∧ (List.range 8).all s.stackReady = true ∧ s.boot.mounted = true ∧ 0 < s.lcState ∧ s.lcState < 4)
    ∧ (tTrained.stage ≠ 0 ∧ tTrained.boot.mounted = false ∧ tTrained.boot.mountFails < 3 ∧ tTrained.mem.wiping = false)
    ∧ (let s : State := { tTrained with boot := { tTrained.boot with mountFails := 2 } }
       s.stage ≠ 0 ∧ s.boot.mounted = false ∧ s.boot.mountFails = 2)
    ∧ (let s := tTrained.dwf LK_RV_STATUS 1 0 1
       s.pw.on = true ∧ s.stage < 3 ∧ 3 ∉ s.boot.missed ∧ s.boot.base + stageDeadline 3 ≤ s.pw.uptime ∧ s.role = 1
         ∧ bits (s.dr LK_RV_STATUS) 2 2 = 0)
    ∧ (let s := tTrained.dwf MG_SU_WDOG 31 16 5
       s.stage ≠ 0 ∧ bits (s.dr MG_SU_WDOG) 31 16 ≠ 0 ∧ s.boot.kick + 2000000 * bits (s.dr MG_SU_WDOG) 31 16 ≤ s.pw.uptime)
    ∧ (∀ r ∈ [0, 2], let s : State := { tTrained.dwf LK_RV_STATUS 1 0 r with pcie := { tTrained.pcie with perst := true } }
       s.pcie.perst = true ∧ s.pw.on = true ∧ s.pcie.perstAt + 1000000 ≤ s.pw.uptime ∧ s.role = r ∧ s.stage ≠ 0)
    ∧ (let s : State := { State.reset with pcie := { State.reset.pcie with perst := true } }
       s.pcie.perst = true ∧ s.pw.on = false)
    ∧ State.reset.pcie.perst = false := by decide +kernel

/-- With samples of a power, a core voltage step, an HBM limit and a LTHERM bit. -/
def tGov (w v h : Nat) (lt : Bool) : State :=
  { tPow.dw PW_GOV_STATUS (govWord 0 v h false + 2 ^ 9 * b2n lt) with pw := { tPow.pw with samples := [w], thermV := some 7 } }

theorem witness_TheGovernorHoldsTheCap_tick :
    (let s := tPow.dw PW_CAP 500
     s.pw.on = true ∧ s.effCap ≠ s.pw.capNow)
    ∧ (let s := tGov 1300 0 1 false
       s.pw.clamp = false ∧ 0 < s.pw.samples.length ∧ s.pw.capNow * s.pw.samples.length < s.pw.sum)
    ∧ (let s := tGov 1190 5 16 false
       bit (s.dr PW_GOV_STATUS) 9 = false ∧ 98 * s.pw.capNow * s.pw.samples.length ≤ s.pw.sum * 100
         ∧ s.pw.sum ≤ s.pw.capNow * s.pw.samples.length)
    ∧ (let s := tGov 1100 5 9 false
       bit (s.dr PW_GOV_STATUS) 9 = false ∧ s.pw.sum * 100 < 98 * s.pw.capNow * s.pw.samples.length ∧ bits (s.dr PW_GOV_STATUS) 20 16 = 9)
    ∧ (∀ v ∈ [5, 127], let s := tGov 1100 v 16 false
       bit (s.dr PW_GOV_STATUS) 9 = false ∧ s.pw.sum * 100 < 98 * s.pw.capNow * s.pw.samples.length
         ∧ bits (s.dr PW_GOV_STATUS) 20 16 = 16 ∧ bits (s.dr PW_GOV_STATUS) 6 0 = v)
    ∧ (let s := tGov 1100 5 16 true
       (s.thermNext 5).isSome = true) := by decide +kernel

theorem witness_TheGovernorHoldsTheCap_current :
    (tPow.pw.on = true ∧ tPow.pw.clamp = false ∧ tPow.frozen = false)
    ∧ (let s : State := { tPow with pw := { tPow.pw with clamp := true, clampAt := some 9 } }
       s.pw.clamp = true ∧ s.pw.clampAt = some 9 ∧ 9 + 1000000 ≤ s.pw.uptime)
    ∧ (let s : State := { tPow with pw := { tPow.pw with clamp := true } }
       s.pw.clampAt = none ∧ s.pw.clampFrom + 1000000 ≤ s.pw.uptime)
    ∧ (∀ l ∈ [[2 ^ 40], [2 ^ 40, 2 ^ 40, 2 ^ 40]], let s : State := { tPow with pw := { tPow.pw with isOpen := true, opened := l } }
       s.pw.isOpen = true ∧ s.pw.opened.headD 0 + 1000000000 ≤ s.pw.uptime ∧ s.pw.stuckOpen = (l.length == 3)) := by decide +kernel

/-- Every sensor at a temperature. -/
def vJ (t : Int) : Vector Int 64 := Vector.replicate 64 t
def vK (t : Int) : Vector Int 8 := Vector.replicate 8 t

theorem witness_SensorsAndClocks_sensors :
    (∀ t ∈ [(70 : Int), 103, 110], (atLimit (vJ t).toList (vK 96).toList (vK 40).toList).any tPow.pw.above.contains = false)
    ∧ (let s : State := { tPow with pw := { tPow.pw with above := [3] } }
       s.pw.on = true ∧ (atLimit (vJ 115).toList (vK 40).toList (vK 40).toList).any s.pw.above.contains = true)
    ∧ (let s : State := { tPow with pw := { tPow.pw with shut := true } }
       s.pw.shut = true ∧ (∀ n : Fin 64, (vJ 70)[n] ≤ 70) ∧ (∀ n : Fin 8, (vK 70)[n] ≤ 70) ∧ s.pw.vin = true ∧ s.pw.vstby = true) := by
  decide +kernel

theorem witness_SensorsAndClocks_clocks :
    (let s := (tPow.dw PW_STATUS 1).dw PW_CLK_STATUS pllDomains
     s.pw.on = true ∧ bit (s.dr PW_STATUS) 0 = true ∧ synthesised 39 = true ∧ bit (s.dr PW_CLK_STATUS) 39 = true)
    ∧ bit ((tPow.dw PW_STATUS 6).dr PW_STATUS) 1 = true
    ∧ (let s : State := { tPow with pw := { tPow.pw with lost := [(39, 5)] } }
       s.domStopped 39 = true ∧ 39 ∉ s.pw.dead ∧ (39, 5) ∈ s.pw.lost ∧ 5 + 10000000 ≤ s.pw.uptime) := by decide +kernel


/-! ### Errors, debug access and the test access port -/

theorem witness_DebugAndErrors_errors :
    (∀ n ∈ [0, 3], let s : State := { tPow with err := { tPow.err with merges :=
        [{ source := 10, cause := 1, unit := 2, until_ := 0, count := n, cls := 2, ctx := none, status := 11, info := 5 }] } }
       (s.err.merges[0]?).map (·.count) = some n ∧ (s.err.merges[0]?).map (·.until_) = some 0)
    ∧ (let s := tCl (fun k => { k with waitA := [{ from_ := .host, off := 0, chip := 1, words := [1, 2] }] })
       toCl 0 = some 0 ∧ (s.cl 0).waitA.length = 1 ∧ (s.cl 0).waitA.all (fun a => a.words.length == 2) = true) := by decide +kernel

/-- A DBG_REG access of an address, a write if wr. -/
def tAcc (a : Nat) (wr dbg : Bool) : State :=
  { tPow.dwf MG_DBG_STATUS 0 0 (b2n dbg) with jtag := { tPow.jtag with acc := some (BitVec.ofNat 96 (2 ^ 64 * (a / 8) + 2 ^ 90 * b2n wr + 9)) } }

theorem witness_DebugAndErrors_port :
    (let s : State := { tPow with sec := { tPow.sec with token := some [] } }
     s.sec.token = some [] ∧ s.rngFail = false ∧ s.mb.busy = false ∧ s.domStopped 56 = false)
    ∧ (tPow.pw.on = true ∧ tPow.stage = 0 ∧ (tPow.dwf MG_SU_STATUS 2 0 3).stage ≠ 0 ∧ (tPow.dwf MG_DBG_STATUS 0 0 0).debugOpen = false
      ∧ tPow.jtag.acc = none ∧ ({ tPow with pll := true } : State).pll = true ∧ tPow.sec.token = none ∧ tPow.lcState ≠ 4
      ∧ ({ tPow with sec := { tPow.sec with lc := 4 } } : State).lcState = 4 ∧ (List.replicate 5440 (0 : Byte)).length = 5440)
    ∧ (∀ d ∈ [false, true], ∀ a ∈ [PW_STATUS, LK_RV_STATUS], ∃ dr, (tAcc a false d).jtag.acc = some dr ∧ a = bits dr.toNat 89 64 * 8
        ∧ bit dr.toNat 90 = false ∧ clBlock a = none ∧ a ≠ MG_DBG_CDATA ∧ a ≠ MG_DBG_MDATA ∧ (tAcc a false d).debugOpen = d
        ∧ closedRead a = (a == PW_STATUS)) := by
  refine ⟨by decide +kernel, by decide +kernel, fun d hd a ha => ⟨_, rfl, ?_⟩⟩
  revert d a; decide +kernel

theorem witness_DebugAndErrors_writes :
    (∀ a ∈ [MG_TB_LOAD, SC_ERR], bits (BitVec.ofNat 96 (2 ^ 64 * (a / 8) + 2 ^ 90 * b2n true + 9)).toNat 89 64 * 8 = a
      ∧ bit (BitVec.ofNat 96 (2 ^ 64 * (a / 8) + 2 ^ 90 * b2n true + 9)).toNat 90 = true)
    ∧ (0x0E000000 ≤ SC_ERR ∧ SC_ERR < 0x0F000000)
    ∧ (tAcc MG_TB_LOAD true true).debugOpen = true ∧ (tAcc MG_TB_LOAD true false).debugOpen = false := by decide +kernel


/-! ### The management bus -/

/-- A good ring description. -/
def dGood : BitVec 256 := BitVec.ofNat 256 (leNat dBytes)

theorem witness_TheBusManages_reads :
    tPow.pw.vstby = true ∧ tPow.pw.on = true ∧ State.reset.pw.on = false ∧ 1 ≤ tTrained.stage
    ∧ closedRead ((BitVec.ofNat 32 (PW_STATUS / 8)).toNat * 8) = true ∧ closedRead ((BitVec.ofNat 32 (LK_RV_STATUS / 8)).toNat * 8) = false := by
  decide +kernel

theorem witness_TheBusManages_writes :
    (tTrained.role = 0 ∧ (tTrained.dwf LK_RV_STATUS 1 0 1).role = 1 ∧ (badDesc (leBytes 32 dGood.toNat)).any (·.1) = false
      ∧ (badDesc (leBytes 32 0)).any (·.1) = true)
    ∧ (tPow.lcState ≠ 4 ∧ (5440 : BitVec 32).toNat = 5440 ∧ bits ((tPow.dwf MG_SU_STATUS 6 5 1).dr MG_SU_STATUS) 6 5 = 1)
    ∧ (let s : State := { tPow with mb := { tPow.mb with obj := 2, len := 5440 } }
       s.mb.obj ≠ 0 ∧ s.mb.busy = false ∧ (5200 : BitVec 32).toNat + 240 ≤ s.mb.len ∧ s.mb.len < (5201 : BitVec 32).toNat + 240
         ∧ s.sec.token = none)
    ∧ (∀ n ∈ [1, 2], let s : State := { tPow with mb := { tPow.mb with obj := n, busy := true }, sec := { tPow.sec with token := some [] } }
       s.mb.busy = true ∧ s.mb.obj = n ∧ s.rngFail = false ∧ s.domStopped 56 = false ∧ s.sec.token = some []) := by decide +kernel

theorem witness_TheBusIsI3c :
    tPow.pw.vstby = true ∧ ({ tPow.mb with alerts := [2, 4] } : MgmtBus).alerts = [2, 4] := by decide +kernel


/-! ### Numbers, frames and the whole machine -/

theorem witness_EveryCodeHasItsValue :
    (Fmt.kind .e4m3 = .float ⟨4, 3, 7, .e4m3⟩ ∧ ¬ Special ⟨4, 3, 7, .e4m3⟩ 0x7E ∧ manOf ⟨4, 3, 7, .e4m3⟩ 1 ≠ 0
      ∧ expOf ⟨4, 3, 7, .e4m3⟩ 1 = 0)
    ∧ (Fmt.kind .mxInt8 = .int 8 6 ∧ 0x80 < 2 ^ 8) := by
  unfold Special; decide +kernel

theorem witness_RoundingFollowsItsMode :
    roundUnits .nearest false 5 0 1 = 2 ∧ roundUnits .nearest false 7 0 1 = 4 ∧ roundUnits (.stoch 0x7FFFFFFF) false 5 0 1 = 2
      ∧ roundUnits (.stoch 0x80000000) false 5 0 1 = 3 ∧ roundUnits (.stoch 0x80000000) true 5 0 1 = 2 := by decide +kernel

/-- R70's example: two products of ±8.25 with g = 63: 16 and −17 units. -/
theorem test_gauge_example :
    let g : Gauge := { mode := false, g := 63, h := 0 }
    let p := (Fmt.e4m3.decode 0x5C).mul (Fmt.e4m3.decode 0x2B)
    let q := (Fmt.e4m3.decode 0xDC).mul (Fmt.e4m3.decode 0x2B)
    (gaugeProduct g p).1 = 16 ∧ (gaugeProduct g q).1 = -17 ∧ (accStep g (accStep g {} [p]) [q]).a = -1
      ∧ (accStep g (accStep g {} [q]) [p]).a = -1 := by decide +kernel

theorem witness_GaugedSumsHaveNoOrder :
    let g : Gauge := { mode := false, g := 0, h := 1 }
    let t : SumTree := .join (.steps [[.fin false 3 0]]) (.steps [[.fin true 1 (-70)]])
    let u : SumTree := .steps [[.fin true 1 (-70)], [.fin false 3 0]]
    g.mode = false ∧ g.h ≤ 31 ∧ t.products.length ≤ 2 ^ g.h ∧ t.products.Perm u.products ∧ (t.entry g).a = 3 * 2 ^ 64 - 1 :=
  ⟨rfl, by decide, by decide, List.Perm.swap _ _ _, by decide +kernel⟩

/-- A frame with every field at its largest. -/
def fMax : Frame :=
  { ty := 7, vc := 3, cmp := true, bfirst := true, blast := true, keyid := 1, dir := 1, xend := true, seq := 2 ^ 48 - 1
    ack := 2 ^ 24 - 1, tf := 2 ^ 112 - 1, data := List.replicate 464 255 }

theorem witness_FramesAreReadWhole : fMax.data.length ≤ 464 ∧ fMax.tf < 2 ^ 112 ∧ frameOf (wire fMax) = fMax := by decide +kernel

theorem witness_StepsTakeTheFront :
    ({ State.reset with pending := [.jtagTrst] } : State).pending = [.jtagTrst] ∧ State.reset.pending = []
    ∧ (let s : State := { tPow with pll := true }
       s.pw.on = true ∧ s.pll = true ∧ s.domStopped 54 = false) := by decide +kernel

theorem witness_MemoryStaysCanonical :
    Memory.wf State.reset = true ∧ Memory.wf (tCore [0x13] id) = true ∧ (∃ t, step State.reset = .next t) :=
  ⟨by decide +kernel, by decide +kernel, _, rfl⟩

theorem witness_FusesOnlyBurn :
    FusesLegal State.reset ∧ FusesLegal { State.reset with sec := { State.reset.sec with lc := 2, owner := some 5 } } := by
  unfold FusesLegal; decide +kernel

theorem witness_EveryCommandCompletes : hbmBytes ≤ hbmBytes := Nat.le_refl _


/-! ### Ill-formed commands, and the save image -/

theorem test_wf_reg : (Instr.registerWrite .firmware 0x4 0).wf = false ∧ (Instr.registerWrite .firmware 0x8 0).wf = true := by decide
theorem test_wf_cfg : (Instr.configRequest 0 ⟨4096, none⟩).wf = false ∧ (Instr.configRequest 0 ⟨2, none⟩).wf = false
    ∧ (Instr.configRequest 0 ⟨4092, none⟩).wf = true := by decide
theorem test_wf_bar : (Instr.bar0Access 0 0 0 none).wf = false ∧ (Instr.bar2Access 0 0 2 (some [1]) false).wf = false
    ∧ (Instr.bar4Access 0 0 2 (some [1]) false).wf = false ∧ (Instr.bar4Access 0 0 1 (some [1]) false).wf = true := by decide
theorem test_wf_host : wfHost (List.replicate 16385 0) = false ∧ wfHost (List.replicate 16384 0) = true := by
  simp only [wfHost, List.length_replicate]; decide
theorem test_wf_token : (Instr.dbgAuth [0]).wf = false := by decide
theorem test_wf_bulk : (Instr.bulkdata 0 (List.replicate 241 0) true).wf = false := by
  simp only [Instr.wf, wfBulk, List.length_replicate]; decide
theorem test_wf_hbm : wfHbm 0x9000000000 = false ∧ wfHbm 0x8FFFFFFFFF = true := by decide
theorem test_wf_stop : wfStop 78 = false ∧ wfStop 77 = true := by decide

/-- The example of R170: four FP8 registers, two FP8 stores and 64 rows write 1,066,176 bytes, and nothing 17,600. -/
def tSaved : Cluster :=
  let k : Cluster := (List.range 4).foldl (fun k t => k.setTile t { shape := 1, fmt := .e4m3, rows := 1024 }) {}
  { k with arr := { k.arr with st0 := { held := true, fmt := .e4m3 }, st1 := { held := true, fmt := .e4m3 },
                               blocks := (List.range 64).map (fun r => (32 * r, 65536)) } }
theorem test_save_example : tSaved.imageBytes = 1066176 ∧ ({} : Cluster).imageBytes = 17600 := by decide +kernel

/-- A register, a store and an entry come back from their image (R169). -/
def tImaged : Cluster :=
  let k : Cluster := ({} : Cluster).setTile 1 { shape := 2, fmt := .mxE4m3, rows := 3, valid := [1], poison := true, data := [(7, 9)], scale := [(2, 3)] }
  { k with arr := { k.arr with active := 1, st1 := { held := true, fmt := .int8, pack := 2, rep := true, data := [(1, 5)] },
                               gauge := { g := -5, h := 3 }, blocks := [(40, 65541)], acc := [(1287, { a := -2, sat := true })] } }
theorem test_save_image :
    let z : Cluster := {}
    let k := { z with arr := { z.arr with active := 1 } }.fromImage tImaged.image
    k.tile 1 = tImaged.tile 1 ∧ k.arr = tImaged.arr := by decide +kernel

end Sys2Proof.Tests
end

/-! ### The idle step, and the state at reset -/

section
namespace Sys2Proof.Machine

/-- t is s but for values in device registers. -/
def State.SameButRegs (s t : State) : Prop := t = { s with regs := t.regs }

theorem State.SameButRegs.refl (s : State) : s.SameButRegs s := rfl

section
variable {s t : State} (h : s.SameButRegs t)
include h

theorem State.SameButRegs.dinc (a n : Nat) : s.SameButRegs (t.dinc a n) := by
  unfold State.dinc
  split
  · exact h
  · rw [State.SameButRegs, h]
    rfl

theorem State.SameButRegs.countWhere (n : Nat) (test : State → Nat → Bool) (reg : Nat → Nat) :
    s.SameButRegs (countWhere n test reg t) :=
  List.foldlRecOn _ _ h fun u hu i _ => by
    split
    · exact hu.dinc (reg i) 1
    · exact hu

theorem State.SameButRegs.limitTicks : s.SameButRegs t.limitTicks := by
  unfold State.limitTicks
  split
  · exact h
  · exact (h.dinc _ _).dinc _ _

end

/-- The idle step: one nanosecond of uptime, one of the timebase where it runs, and counters. -/
theorem State.tick_sameButRegs (s : State) :
    State.SameButRegs
      { s with
        pw := { s.pw with uptime := s.pw.uptime + 1 }
        timebase := if s.pw.on = true ∧ s.pll = true ∧ s.domStopped 54 = false then s.timebase + 1 else s.timebase }
      s.tick := by
  have hd : ({ s with pw := { s.pw with uptime := s.pw.uptime + 1 } } : State).domStopped 54 = s.domStopped 54 := rfl
  unfold State.tick
  simp only [hd, Bool.and_eq_true, Bool.not_eq_eq_eq_not, Bool.not_true, and_assoc]
  split
  · exact (((State.SameButRegs.refl _).countWhere _ _ _).countWhere _ _ _).limitTicks
  · exact .refl _

theorem step_of_pending_nil {s : State} (h : s.pending = []) : step s = .next s.tick := by
  unfold step
  rw [h]

theorem step_of_pending_cons {s : State} {c : Instr} {rest : List Instr} (h : s.pending = c :: rest) :
    step s = exec c { s with pending := rest } := by
  unfold step
  rw [h]

/-- Settles O55: a step is exec of the front command, or the idle step. -/
theorem stepsTakeTheFront : Obligations.StepsTakeTheFront := by
  refine ⟨fun s c rest h => step_of_pending_cons h, fun s h => ⟨s.tick, step_of_pending_nil h, ?_⟩⟩
  rw [s.tick_sameButRegs]
  exact ⟨h, rfl, rfl, rfl, rfl, rfl, rfl, rfl, rfl⟩

theorem State.reset_cl (c : Cl) : State.reset.cl c = {} := by simp [State.cl, State.reset]

theorem State.reset_fusesLegal : Claims.FusesLegal State.reset := ⟨by decide, by decide⟩

/-- Settles O56: at reset nothing is mapped, stored, queued or in flight, so every register reads its default. -/
theorem resetIsLegal : Obligations.ResetIsLegal := by
  have regs (a : Nat) : State.reset.dr a = (word (devReset a)).toNat := rfl
  have clusterRegs (c : Cl) (a : Nat) : State.reset.cr c a = (word (clReset a)).toNat := by
    rw [State.cr, State.reset_cl]
    rfl
  have clusters (c : Cl) : (State.reset.cl c).core.mode = .stopped ∧ (State.reset.cl c).sp = [] := by
    rw [State.reset_cl]
    exact ⟨rfl, rfl⟩
  exact ⟨rfl, rfl, rfl, rfl, regs, clusterRegs, fun _ _ => rfl, clusters, rfl, by decide, Memory.wf_reset, State.reset_fusesLegal⟩

end Sys2Proof.Machine
end

/-! ### What a command keeps -/

section
/-! Every command but a change of the life cycle keeps the queue, the canonical form of every byte store, the life-cycle
state and the owner, and only burns the other fuses: `State.Keeps`. O57 needs the byte stores; the rest is said with them
because it takes the same way through the model. This part holds the relation and a rule for each way the model changes a
state: fields outside all of these (`frame`), a cluster (`mod`, `mapCls`), a context (`modCx`, `mapCtx`), HBM and host
memory (`hbmWrite`, `setHostMem`), a choice (`ite`, `also`, `unless`) and a loop (`foldl`, `foldl_of`). -/

namespace Sys2Proof.Machine

/-! #### What a change keeps -/

/-- The scratchpad of j is in canonical form if that of k is. -/
structure Cluster.Keeps (k j : Cluster) : Prop where
  sp : amWf 0 k.sp = true → amWf 0 j.sp = true

/-- The clusters saved with z have scratchpads in canonical form if those saved with y have. -/
structure CtxSt.Keeps (y z : CtxSt) : Prop where
  saved : (∀ p ∈ y.saved, amWf 0 p.2.sp = true) → ∀ p ∈ z.saved, amWf 0 p.2.sp = true

/-- The same fuses. -/
structure Security.SameFuses (a b : Security) : Prop where
  lc : b.lc = a.lc
  owner : b.owner = a.owner
  floor : b.floor = a.floor
  rootRev : b.rootRev = a.rootRev

/-- Two states with the same queue, byte stores and fuses. -/
structure State.Agrees (t u : State) : Prop where
  pending : u.pending = t.pending
  hbm : u.mem.hbm = t.mem.hbm
  hostMem : u.hostMem = t.hostMem
  cls : u.cls = t.cls
  ctx : u.ctx = t.ctx
  lc : u.sec.lc = t.sec.lc
  owner : u.sec.owner = t.sec.owner
  floor : u.sec.floor = t.sec.floor
  rootRev : u.sec.rootRev = t.sec.rootRev

/-- What every command but a change of the life cycle keeps from s to t: the queue, the canonical form of the byte
stores (R263, R289), the life-cycle state and the owner (R656, R658); the fuses of the version floor and of revocation
only burn (R672). -/
structure State.Keeps (s t : State) : Prop where
  wf : Memory.wf s = true → Memory.wf t = true
  pending : t.pending = s.pending
  lc : t.sec.lc = s.sec.lc
  owner : t.sec.owner = s.sec.owner
  floor : s.sec.floor ≤ t.sec.floor
  rootRev : ∀ n, bit s.sec.rootRev n = true → bit t.sec.rootRev n = true

/-- r is a next state, and keeps what a command keeps of s. -/
inductive State.Completes (s : State) : Res → Prop
  | next {t : State} (h : s.Keeps t) : s.Completes (.next t)

/-- Every state that an access of the core may leave is kept. -/
inductive State.KeepsAcc (s : State) : MemAcc → Prop
  | ok {v : Nat} {t : State} (h : s.Keeps t) : s.KeepsAcc (.ok v t)
  | fault {t : State} (h : s.Keeps t) : s.KeepsAcc (.fault t)
  | page {p : Nat} : s.KeepsAcc (.page p)
  | miss {line : Nat} {t : State} (h : s.Keeps t) : s.KeepsAcc (.miss line t)
  | wait : s.KeepsAcc .wait
  | host {a : Nat} : s.KeepsAcc (.host a)

/-- Every state that a run of word accesses may leave is kept. -/
inductive State.KeepsWords (s : State) : Words → Prop
  | ok {vs : List Word} {t : State} (h : s.Keeps t) : s.KeepsWords (.ok vs t)
  | fault {a : Nat} {t : State} (h : s.Keeps t) : s.KeepsWords (.fault a t)
  | page {p a : Nat} : s.KeepsWords (.page p a)
  | wait : s.KeepsWords .wait

/-- An instruction that is legal completes. -/
inductive State.CompletesIf (s : State) : Option Res → Prop
  | none : s.CompletesIf none
  | some {r : Res} (h : s.Completes r) : s.CompletesIf (some r)

/-! #### Clusters and contexts -/

theorem CtxSt.Keeps.of_saved_nil {y z : CtxSt} (e : z.saved = [] := by exact rfl) : y.Keeps z :=
  ⟨fun _ p hp => by rw [e] at hp; cases hp⟩

theorem Cluster.Keeps.of_sp_nil {k j : Cluster} (e : j.sp = [] := by exact rfl) : k.Keeps j := ⟨fun _ => by rw [e]; rfl⟩

theorem Cluster.Keeps.refl (k : Cluster) : k.Keeps k := ⟨id⟩

section
variable {k j : Cluster} (h : k.Keeps j)
include h

theorem Cluster.Keeps.frame {core : CoreSt} {steps owner tk sigs rateN rateWin hangAt ord flags : Nat}
    {wiping rateOk rateMm hung : Bool} {launch : Option (Nat × Nat)} {uq : Vector UnitQs 5}
    {hq : Vector (List HEntry) 8} {resq : List (BitVec 32)}
    {tiles : Vector Tile 8} {lds : List TileLd} {arr : MxArray} {vx : Vx} {st : Streams} {bad fix : List Nat}
    {op : Option SpOp} {waitA : List Arrival} {admA : List Admitted} {rejs : List RejXfer} {cc : List (Nat × CLine)}
    {misses : List Miss} {seqs : List MissSeq} {lctr fltSt : List (Nat × Nat)} {ws : Vector WSlot 16}
    {wait : Option WaitEnt} {ended : List EndedStrm} {regs : List (Nat × Word)} :
    k.Keeps { j with
      core, steps, owner, wiping, launch, tk, uq, hq, resq, tiles, lds, arr, vx, st, bad, fix, op, waitA, admA, rejs, cc,
      misses, seqs, lctr, ws, wait, sigs, rateN, rateOk, rateMm, rateWin, fltSt, hangAt, hung, ord, flags, ended, regs } :=
  ⟨h.sp⟩

theorem Cluster.Keeps.ite {p : Prop} [Decidable p] {i : Cluster} (h' : k.Keeps i) : k.Keeps (if p then j else i) := by
  split
  · exact h
  · exact h'

/-- A further change, where a test holds. -/
theorem Cluster.Keeps.also {p : Prop} [Decidable p] {i : Cluster} (hi : k.Keeps j → k.Keeps i) :
    k.Keeps (if p then i else j) :=
  .ite (hi h) h

theorem Cluster.Keeps.foldl {α : Type} {l : List α} {f : Cluster → α → Cluster}
    (hf : ∀ i a, k.Keeps i → k.Keeps (f i a)) : k.Keeps (l.foldl f j) :=
  List.foldlRecOn l f h fun i hi a _ => hf i a hi

theorem Cluster.Keeps.spWrite {a : Nat} {bs : List Byte} : k.Keeps (j.spWrite a bs) :=
  ⟨fun w => Cluster.spWrite_wf j a bs (h.sp w)⟩

end

/-! #### States -/

theorem Memory.wf_cl {s : State} (w : Memory.wf s = true) (c : Cl) : amWf 0 (s.cl c).sp = true := by
  rw [Memory.wf_iff] at w
  obtain ⟨-, -, hc, -⟩ := w
  exact hc c

theorem Memory.wf_saved {s : State} (w : Memory.wf s = true) (x : Nat) : ∀ p ∈ (s.cx x).saved, amWf 0 p.2.sp = true := by
  rw [Memory.wf_iff] at w
  obtain ⟨-, -, -, hx⟩ := w
  unfold State.cx
  split
  · exact hx _ (by simp)
  · simp

theorem State.Keeps.refl (s : State) : s.Keeps s := ⟨id, rfl, rfl, rfl, Nat.le_refl _, fun _ => id⟩

theorem State.Keeps.trans {s t u : State} (h : s.Keeps t) (h' : t.Keeps u) : s.Keeps u where
  wf w := h'.wf (h.wf w)
  pending := h'.pending.trans h.pending
  lc := h'.lc.trans h.lc
  owner := h'.owner.trans h.owner
  floor := Nat.le_trans h.floor h'.floor
  rootRev n b := h'.rootRev n (h.rootRev n b)

theorem State.Agrees.keeps {t u : State} (e : t.Agrees u) : t.Keeps u where
  wf w := by rw [Memory.wf, e.hbm, e.hostMem, e.cls, e.ctx]; exact w
  pending := e.pending
  lc := e.lc
  owner := e.owner
  floor := Nat.le_of_eq e.floor.symm
  rootRev n b := by rw [e.rootRev]; exact b

/-- A change of the byte stores alone. -/
theorem State.Keeps.of_stores {t u : State} (hw : Memory.wf t = true → Memory.wf u = true)
    (hp : u.pending = t.pending := by rfl) (hs : u.sec = t.sec := by rfl) : t.Keeps u :=
  ⟨hw, hp, by rw [hs], by rw [hs], by rw [hs], by rw [hs]; exact fun _ => id⟩

section
variable {s t : State} (h : s.Keeps t)
include h

theorem State.Keeps.frame {sy : SyncUnit} {mem : MemSys} {pages regs : List (Nat × Word)} {err : ErrLog} {pcie : Pcie}
    {ports : Vector PortSt 8} {links : Vector LinkSt 4} {rv : Revolve} {us : Understudy} {wt : Weights} {sec : Security}
    {pw : Power}
    {boot : Boot} {jtag : Jtag} {mb : MgmtBus} {timebase freeCount rngCount : Nat} {pll : Bool} {readData : Word}
    {busData : List Byte}
    (hm : mem.hbm = t.mem.hbm := by exact rfl) (hs : t.sec.SameFuses sec := by exact ⟨rfl, rfl, rfl, rfl⟩) :
    s.Keeps { t with
      sy, mem, pages, err, pcie, ports, links, rv, us, wt, sec, pw, boot, jtag, mb, regs, timebase, pll, readData, busData,
      freeCount, rngCount } :=
  h.trans (State.Agrees.keeps ⟨rfl, hm, rfl, rfl, rfl, hs.lc, hs.owner, hs.floor, hs.rootRev⟩)

theorem State.Keeps.ite {p : Prop} [Decidable p] {u : State} (h' : s.Keeps u) : s.Keeps (if p then t else u) := by
  split
  · exact h
  · exact h'

/-- A further change, where a test holds. -/
theorem State.Keeps.also {p : Prop} [Decidable p] {u : State} (hu : s.Keeps t → s.Keeps u) : s.Keeps (if p then u else t) :=
  .ite (hu h) h

/-- A further change, where a test fails. -/
theorem State.Keeps.unless {p : Prop} [Decidable p] {u : State} (hu : s.Keeps t → s.Keeps u) :
    s.Keeps (if p then t else u) :=
  .ite h (hu h)

theorem State.Keeps.foldl {α : Type} {l : List α} {f : State → α → State}
    (hf : ∀ u a, s.Keeps u → s.Keeps (f u a)) : s.Keeps (l.foldl f t) :=
  List.foldlRecOn l f h fun u hu a _ => hf u a hu

theorem State.Keeps.mod_of_wf {c : Cl} {f : Cluster → Cluster}
    (hf : Memory.wf s = true → (t.cl c).Keeps (f (t.cl c))) : s.Keeps (t.mod c f) := by
  refine ⟨fun w => ?_, h.pending, h.lc, h.owner, h.floor, h.rootRev⟩
  rw [State.mod_const]
  exact State.mod_wf t c _ (h.wf w) fun _ _ => (hf w).sp (Memory.wf_cl (h.wf w) c)

theorem State.Keeps.mod_cl {c : Cl} {f : Cluster → Cluster} (hf : (t.cl c).Keeps (f (t.cl c))) : s.Keeps (t.mod c f) :=
  h.mod_of_wf fun _ => hf

theorem State.Keeps.mod {c : Cl} {f : Cluster → Cluster}
    (hf : ∀ k j : Cluster, k.Keeps j → k.Keeps (f j) := by exact fun _ _ hk => hk.frame) : s.Keeps (t.mod c f) :=
  h.mod_cl (hf _ _ (.refl _))

theorem State.Keeps.mapCls {f : Cluster → Cluster}
    (hf : ∀ k j : Cluster, k.Keeps j → k.Keeps (f j) := by exact fun _ _ hk => hk.frame) :
    s.Keeps { t with cls := t.cls.map f } :=
  h.trans <| .of_stores fun w => by
    rw [Memory.wf_iff] at w ⊢
    obtain ⟨hh, hm, hc, hx⟩ := w
    refine ⟨hh, hm, fun c => ?_, hx⟩
    simpa [State.cl] using (hf _ _ (.refl _)).sp (hc c)

theorem State.Keeps.modCx_of_wf {x : Nat} {f : CtxSt → CtxSt} (hf : Memory.wf t = true → ∀ y : CtxSt, y.Keeps (f y)) :
    s.Keeps (t.modCx x f) := by
  refine h.trans (.of_stores (fun w => ?_) (by simp) (by simp))
  have hg := hf w
  unfold State.modCx
  split
  case isTrue hi =>
    rw [Memory.wf_iff] at w ⊢
    obtain ⟨hh, hm, hc, hx⟩ := w
    refine ⟨hh, hm, hc, fun y hy => ?_⟩
    rw [Vector.mem_toList_iff] at hy
    rcases Vector.mem_or_eq_of_mem_set (hi := hi) hy with hy | rfl
    · exact hx y (Vector.mem_toList_iff.mpr hy)
    · exact (hg _).saved (hx _ (by simp))
  case isFalse => exact w

theorem State.Keeps.modCx {x : Nat} {f : CtxSt → CtxSt} (hf : ∀ y : CtxSt, y.Keeps (f y) := by exact fun _ => ⟨id⟩) :
    s.Keeps (t.modCx x f) :=
  h.modCx_of_wf fun _ => hf

theorem State.Keeps.mapCtx {f : CtxSt → CtxSt} (hf : ∀ y : CtxSt, y.Keeps (f y) := by exact fun _ => ⟨id⟩) :
    s.Keeps { t with ctx := t.ctx.map f } :=
  h.trans <| .of_stores fun w => by
    rw [Memory.wf_iff] at w ⊢
    obtain ⟨hh, hm, hc, hx⟩ := w
    refine ⟨hh, hm, hc, fun y hy => ?_⟩
    obtain ⟨z, hz, rfl⟩ := by simpa using hy
    exact (hf z).saved (hx z (by simpa using hz))

theorem State.Keeps.hbmWrite {a : Nat} {bs : List Byte} : s.Keeps (t.hbmWrite a bs) :=
  h.trans (.of_stores (State.hbmWrite_wf t a bs))

theorem State.Keeps.setHostMem {a : Nat} {bs : List Byte} : s.Keeps { t with hostMem := amSetMany 0 t.hostMem a bs } :=
  h.trans <| .of_stores fun w => by
    rw [Memory.wf_iff] at w ⊢
    obtain ⟨hh, hm, hc, hx⟩ := w
    exact ⟨hh, amWf_amSetMany 0 bs _ a hm, hc, hx⟩

theorem State.Keeps.hostWrite {fn a : Nat} {bs : List Byte} : s.Keeps (t.hostWrite fn a bs) :=
  .ite h.setHostMem h.frame

theorem State.Keeps.next : s.Completes (.next t) := .next h

theorem State.Keeps.waits : s.Completes (waits t) := h.next

theorem State.Keeps.whenever {c : Bool} {u : State} (h' : s.Keeps u) : s.Completes (whenever t c u) := by
  unfold Machine.whenever
  split
  · exact h'.next
  · exact h.waits

end

/-- A fold that carries a state within its value. -/
theorem State.Keeps.foldl_of {s : State} {α β : Type} {l : List α} {f : β → α → β} {b : β} (g : β → State)
    (h : s.Keeps (g b)) (hf : ∀ d a, s.Keeps (g d) → s.Keeps (g (f d a))) : s.Keeps (g (l.foldl f b)) :=
  List.foldlRecOn l f h fun d hd a _ => hf d a hd

theorem State.Keeps.snd {s t : State} {α : Type} {a : α} (h : s.Keeps t) : s.Keeps (a, t).2 := h

theorem State.Keeps.snd_ite {s : State} {α : Type} {p : Prop} [Decidable p] {x y : α × State} (hx : s.Keeps x.2)
    (hy : s.Keeps y.2) : s.Keeps (if p then x else y).2 := by
  split
  · exact hx
  · exact hy

theorem State.Keeps.snd_snd_ite {s : State} {α β : Type} {p : Prop} [Decidable p] {x y : α × β × State}
    (hx : s.Keeps x.2.2) (hy : s.Keeps y.2.2) : s.Keeps (if p then x else y).2.2 := by
  split
  · exact hx
  · exact hy

/-- The state that a legal answer leaves, where the model takes it out of the answer. -/
theorem State.Completes.keeps_of_mem {s : State} {r : Res} (hr : s.Completes r) :
    ∀ u ∈ (match (motive := Res → Option State) r with | .next t => some t | _ => none), s.Keeps u := by
  cases hr with
  | next h => rintro _ ⟨⟩; exact h

theorem State.KeepsAcc.ite {s : State} {p : Prop} [Decidable p] {r q : MemAcc} (hr : s.KeepsAcc r) (hq : s.KeepsAcc q) :
    s.KeepsAcc (if p then r else q) := by
  split
  · exact hr
  · exact hq

theorem State.CompletesIf.ite {s : State} {p : Prop} [Decidable p] {r q : Option Res} (hr : s.CompletesIf r)
    (hq : s.CompletesIf q) : s.CompletesIf (if p then r else q) := by
  split
  · exact hr
  · exact hq

theorem State.Completes.ite {s : State} {p : Prop} [Decidable p] {r q : Res} (hr : s.Completes r) (hq : s.Completes q) :
    s.Completes (if p then r else q) := by
  split
  · exact hr
  · exact hq

end Sys2Proof.Machine
end

section
/-! One rule for each function of the model that answers a cluster or a state, under the function's own name, in the order
of the model: `State.Keeps.f` says that what s keeps up to t it keeps up to `t.f`. A proof has the shape of the function's
body: a rule for each change, in the order they are made. Where the body names its states, `extract_lets` gives them names
(`s1` the first, and so on; `_` the copies that record updates make). -/

set_option Elab.async false

namespace Sys2Proof.Machine

section
variable {k j : Cluster} (h : k.Keeps j)
include h

theorem Cluster.Keeps.w {off v : Nat} : k.Keeps (j.w off v) :=
  h.frame

theorem Cluster.Keeps.wf {off hi lo v : Nat} : k.Keeps (j.wf off hi lo v) :=
  h.w

theorem Cluster.Keeps.setUnit {u : EngUnit} {q : UnitQs} : k.Keeps (j.setUnit u q) :=
  h.frame

theorem Cluster.Keeps.popUnit {u : EngUnit} : k.Keeps (j.popUnit u) :=
  h.setUnit

theorem Cluster.Keeps.setQueue {n : Nat} {q : List HEntry} : k.Keeps (j.setQueue n q) := by
  unfold Cluster.setQueue
  split
  · exact h.frame
  · exact h

theorem Cluster.Keeps.spPoison {ws : List Nat} : k.Keeps (j.spPoison ws) :=
  h.frame

theorem Cluster.Keeps.setTile {t' : Nat} {x : Tile} : k.Keeps (j.setTile t' x) := by
  unfold Cluster.setTile
  split
  · exact h.frame
  · exact h

theorem Cluster.Keeps.putTileByte {t' o : Nat} {b : Byte} : k.Keeps (j.putTileByte t' o b) :=
  .ite h.setTile h.setTile

theorem Cluster.Keeps.putTileRow {t' r : Nat} {bs : List Byte} : k.Keeps (j.putTileRow t' r bs) :=
  (h.foldl (fun _ _ hk => hk.putTileByte)).setTile.also (·.setTile)

theorem Cluster.Keeps.putTileScales {t' r : Nat} {bs : List Byte} : k.Keeps (j.putTileScales t' r bs) :=
  h.setTile

theorem Cluster.Keeps.configure {a : Nat} {f : Fmt} : k.Keeps (j.configure a f) :=
  .ite ((Cluster.Keeps.ite h.setTile h).setTile.also (·.setTile)).setTile (Cluster.Keeps.ite h.setTile h).setTile

theorem Cluster.Keeps.launchProps : k.Keeps j.launchProps :=
  h.foldl fun _ _ hk => .ite hk hk.wf

theorem Cluster.Keeps.reclaimProp {h' : Nat} : k.Keeps (j.reclaimProp h') :=
  h.spWrite.wf

theorem Cluster.Keeps.modStrm {slot : Nat} {f : Strm → Strm} : k.Keeps (j.modStrm slot f) :=
  h.frame

theorem Cluster.Keeps.cancelAll : k.Keeps j.cancelAll :=
  h.frame

theorem Cluster.Keeps.fetchTile {d : StreamD} {x : Strm} {pos : Nat} {bs : List Byte} {bad : List Nat} :
    k.Keeps (j.fetchTile d x pos bs bad) := by
  unfold Cluster.fetchTile
  extract_lets t rb at_ put k1 hit now upd _ k2 _ k3 whole
  have h1 : k.Keeps k1 := h.foldl fun _ _ hk => .ite hk.putTileByte hk.setTile
  have h2 : k.Keeps k2 := h1.setTile
  have h3 : k.Keeps k3 := .ite (.ite h2.setTile h2) h1.setTile
  exact h3.foldl fun _ _ hk => hk.setTile

theorem Cluster.Keeps.clearQueues : k.Keeps j.clearQueues :=
  h.frame

theorem Cluster.Keeps.entry : k.Keeps j.entry :=
  (h.frame.foldl (fun _ _ hk => hk.w)).launchProps.wf

theorem Cluster.Keeps.plainWrite {off v : Nat} : k.Keeps (j.plainWrite off v) := by
  dsimp only [Cluster.plainWrite]
  split
  · exact h
  · exact h.w

theorem Cluster.Keeps.enqueue {u : EngUnit} {e : EngOp} {w : Nat} : k.Keeps (j.enqueue u e w) :=
  h.setUnit.frame

theorem Cluster.Keeps.stopInject : k.Keeps j.stopInject :=
  h.frame

theorem Cluster.Keeps.putBufElem {base : Nat} {f : Fmt} {e code : Nat} : k.Keeps (j.putBufElem base f e code) :=
  h.spWrite

theorem Cluster.Keeps.putTileElem {t' : Nat} {p : Nat × Nat} {code : Nat} : k.Keeps (j.putTileElem t' p code) :=
  (h.foldl (fun _ _ hk => hk.putTileByte)).also (·.foldl (fun _ _ hk => hk.putTileByte))

end

section
variable {k : Cluster} {b : Beat} (h : k.Keeps b.k)
include h

theorem Cluster.Keeps.beat_ite {p : Prop} [Decidable p] {b' : Beat} (h' : k.Keeps b'.k) :
    k.Keeps (if p then b else b').k := by
  split
  · exact h
  · exact h'

theorem Cluster.Keeps.beat_foldl {α : Type} {l : List α} {f : Beat → α → Beat}
    (hf : ∀ d a, k.Keeps d.k → k.Keeps (f d a).k) : k.Keeps (l.foldl f b).k :=
  List.foldlRecOn (motive := fun d => k.Keeps d.k) l f h fun d hd a _ => hf d a hd

theorem Cluster.Keeps.beat_rowDone {t row : Nat} : k.Keeps (b.rowDone t row).k :=
  .beat_ite (h.setTile.also (·.setTile)) h

theorem Cluster.Keeps.beat_put {i : Nat} {t : TensorD} {e code : Nat} : k.Keeps (b.put i t e code).k :=
  .beat_ite (.beat_rowDone (b := { b with k := _, x := _ }) h.putTileElem) h.putBufElem

theorem Cluster.Keeps.beat_putScale {i : Nat} {t : TensorD} {e scale : Nat} : k.Keeps (b.putScale i t e scale).k :=
  .beat_ite h.setTile h.spWrite

theorem Cluster.Keeps.beat_putAll {i : Nat} {t : TensorD} {es : List Nat} {r : List Nat × List Conv} :
    k.Keeps (b.putAll i t es r).k :=
  .beat_foldl (.beat_foldl h fun _ _ hb => hb.beat_put) fun _ _ hb => hb.beat_putScale

theorem Cluster.Keeps.beat_flush {t : TensorD} {rows : List Nat} : k.Keeps (b.flush t rows).k :=
  h.beat_putAll

theorem Cluster.Keeps.beat_sink {t : TensorD} {ps : List Idx} {vs : List (Val × Rnd)} {pick : Nat}
    {cv : Fmt → List (Val × Rnd) → List Nat × List Conv} : k.Keeps (b.sink t ps vs pick cv).k := by
  unfold Beat.sink
  extract_lets es R asm _ b1 n
  have h1 : k.Keeps b1.k := h
  have hf : k.Keeps (b1.flush t (es.map (· % R))).k := h1.beat_flush
  exact .beat_ite h (.beat_ite (.beat_ite hf h1) (.beat_ite h.beat_putAll h.beat_putAll))

theorem Cluster.Keeps.beat_treeDone {seed : Nat} {place : Idx} : k.Keeps (b.treeDone seed place).k := by
  unfold Beat.treeDone
  extract_lets d i t tr e _ v b1 b2 b3
  have h1 : k.Keeps b1.k := h.beat_putAll
  have h2 : k.Keeps b2.k := h1.beat_put
  have h3 : k.Keeps b3.k := by
    refine .beat_ite h (.beat_ite h.spWrite (.beat_ite ?_ (.beat_ite ?_ h1)))
    · exact h.frame
    · exact h2
  exact h3

end

section
variable {k j : Cluster} (h : k.Keeps j)
include h

theorem Cluster.Keeps.clearRead {d : List Byte} {ps : List Idx} : k.Keeps (j.clearRead d ps) :=
  h.foldl (fun _ _ hk => .ite (hk.foldl (fun _ _ hj => hj.frame)) hk)

end

section
variable {k : Cluster} {b : Beat} (h : k.Keeps b.k)
include h

theorem Cluster.Keeps.beat_arith {seed : Nat} {ps : List Idx} {lost : List Nat} {pick : Nat} :
    k.Keeps (b.arith seed ps lost pick).k := by
  unfold Beat.arith
  extract_lets d _ log t0 t3 n es _ b1 rd col c0 c1 c2 cnt ls r out tr b2 b3
  have h1 : k.Keeps b1.k := h.clearRead
  have h2 : k.Keeps b2.k := h.clearRead
  have h3 : k.Keeps b3.k := h2.beat_sink
  exact .beat_ite h1.beat_sink (.beat_ite h3.beat_treeDone h3)

theorem Cluster.Keeps.beat_gauged {ps : List Idx} {vs : List (Raw × Bool)} {pick : Nat} :
    k.Keeps (b.gauged ps vs pick).k := by
  unfold Beat.gauged
  extract_lets d _ n t3 _ b0 es _ w b1 _ _ b2
  have h0 : k.Keeps b0.k := h.clearRead
  have h1 : k.Keeps b1.k := .beat_ite h0.frame (.beat_ite (h0.foldl fun _ _ hk => hk.spWrite) h0)
  have h2 : k.Keeps b2.k := h1
  exact .beat_ite (.beat_ite h2.beat_treeDone h2) h1

end

section
variable {k j : Cluster} (h : k.Keeps j)
include h

theorem Cluster.Keeps.loadTables {x : Chain} : k.Keeps (j.loadTables x) :=
  h.foldl fun _ _ hk => .ite hk.frame hk

theorem Cluster.Keeps.beat {x : Chain} {ps : List Idx} {lost : List Nat}
    {pick : Nat} : k.Keeps (j.beat x ps lost pick) := by
  unfold Cluster.beat
  extract_lets seed b0 b1 dg n y v before k1
  have h1 : k.Keeps b1.k := .beat_ite (.beat_gauged (b := b0) h) (.beat_arith (b := b0) h)
  exact .ite h1.frame h1.frame

theorem Cluster.Keeps.popChain {d : List Byte} : k.Keeps (j.popChain d) := by
  unfold Cluster.popChain
  extract_lets k1 k2
  have h1 : k.Keeps k1 := .ite h.setQueue h
  have h2 : k.Keeps k2 := .ite h1.setQueue h1
  exact .ite h (.ite h2.frame h2)

theorem Cluster.Keeps.fromImage {m : List (Nat × Byte)} : k.Keeps (j.fromImage m) :=
  (h.foldl (fun _ _ hk => hk.setTile)).frame

theorem Cluster.Keeps.hold : k.Keeps j.hold :=
  h.clearQueues.frame

end

theorem Cluster.save_sp_wf {k before : Cluster} : amWf 0 (k.save before).sp = true :=
  List.foldlRecOn (motive := fun m => amWf 0 m = true) _ _ rfl fun m hm a _ => amWf_amSetMany 0 a.2 m a.1 hm

section
variable {k j : Cluster} (h : k.Keeps j)
include h

theorem Cluster.Keeps.onPacket {pk : NetPacket} {a : Arrival → Option Arrival} {x : Xfer → Xfer} :
    ∀ i ∈ j.onPacket pk a x, k.Keeps i := by
  intro i hi
  unfold Cluster.onPacket at hi
  split at hi
  · split at hi <;> cases hi
    exact h.frame
  · split at hi <;> cases hi
    exact h.frame

end

/-! #### What the operations and the commands keep, in the order of the model -/

section
variable {s t : State} (h : s.Keeps t)
include h

/-! #### Clusters, registers, counters, host memory, events and errors (Sys2Proof/Machine/Ops.lean) -/

theorem State.Keeps.modN {n : Nat} {f : Cluster → Cluster}
    (hf : ∀ k j : Cluster, k.Keeps j → k.Keeps (f j) := by exact fun _ _ hk => hk.frame) :
    s.Keeps (t.modN n f) := by
  unfold State.modN
  split
  · exact h.mod fun _ _ hk => hf _ _ hk
  · exact h

theorem State.Keeps.cwf {c : Cl} {off hi lo v : Nat} : s.Keeps (t.cwf c off hi lo v) :=
  h.mod fun _ _ hk => hk.wf

theorem State.Keeps.cinc {c : Cl} {off n : Nat} : s.Keeps (t.cinc c off n) :=
  .ite h (h.mod (fun _ _ hk => hk.w))

theorem State.Keeps.dw {a v : Nat} : s.Keeps (t.dw a v) :=
  h.frame

theorem State.Keeps.dwf {a hi lo v : Nat} : s.Keeps (t.dwf a hi lo v) :=
  h.dw

theorem State.Keeps.dinc {a n : Nat} : s.Keeps (t.dinc a n) :=
  .ite h h.dw

theorem State.Keeps.ccap {c : Cl} {off v val : Nat} : s.Keeps (t.ccap c off v val) :=
  h.mod fun _ _ hk => hk.w

theorem State.Keeps.dcap {a v val : Nat} : s.Keeps (t.dcap a v val) :=
  .ite h.dwf h.dw

theorem State.Keeps.free : s.Keeps t.free.2 :=
  h.frame

theorem State.Keeps.draw : s.Keeps t.draw.2 :=
  h.frame

theorem State.Keeps.setPage {x p v : Nat} : s.Keeps (t.setPage x p v) :=
  h.frame

theorem State.Keeps.msixSend {fn v : Nat} : s.Keeps (t.msixSend fn v) :=
  .ite (.ite h.frame h.frame) h.frame

theorem State.Keeps.msix {x v : Nat} : s.Keeps (t.msix x v) := by
  dsimp only [State.msix]
  refine .ite h.msixSend ?_
  split
  · exact h.modCx
  · exact h.modCx.msixSend

theorem State.Keeps.ringPut {x ring head : Nat} {rec : Nat → List Byte} : s.Keeps (t.ringPut x ring head rec) :=
  h.hostWrite.dwf

theorem State.Keeps.eventPut {x kind status time : Nat} {payload : List Byte} :
    s.Keeps (t.eventPut x kind status time payload) :=
  h.ringPut.modCx.dinc.msix

theorem State.Keeps.event {x kind status time : Nat} {payload : List Byte} :
    s.Keeps (t.event x kind status time payload) :=
  .ite h.dinc (.ite h.modCx.dinc (.ite h.eventPut (.ite h.eventPut.modCx.eventPut h.eventPut.modCx.modCx.dinc)))

theorem State.Keeps.putErr {e : ErrRec} {time count : Nat} : s.Keeps (t.putErr e time count) :=
  h.frame.event

theorem State.Keeps.logErr {e : ErrRec} : s.Keeps (t.logErr e) :=
  .ite h.dinc (.ite h.dinc.putErr (.ite h.dinc.frame h.dinc.putErr.frame))

theorem State.Keeps.stkErr {a cause : Nat} : s.Keeps (t.stkErr a cause) := by
  unfold State.stkErr
  exact h.dcap.logErr

theorem State.Keeps.hbmPoison {w : Nat} : s.Keeps (t.hbmPoison w) :=
  .ite h.frame h.hbmWrite.dinc.stkErr

/-! #### What a cluster's engines share (Sys2Proof/Machine/ClusterOps.lean) -/

theorem State.Keeps.core {c : Cl} {f : CoreSt → CoreSt} : s.Keeps (t.core c f) :=
  h.mod

theorem State.Keeps.wrRd {c : Cl} {rd : Nat} {v : Word} : s.Keeps (t.wrRd c rd v) :=
  h.core

theorem State.Keeps.endWait {c : Cl} {q : QInsn} : s.Keeps (t.endWait c q) :=
  .ite h.core h

theorem State.Keeps.engFault {c : Cl} {u : EngUnit} {q : QInsn} {status : Nat} : s.Keeps (t.engFault c u q status) :=
  (h.mod (fun _ _ hk => (Cluster.Keeps.ite hk hk.w.w.w.w).wf.frame)).wrRd.endWait

theorem State.Keeps.faultHead {c : Cl} {u : EngUnit} {q : QInsn} {status : Nat} :
    s.Keeps (t.faultHead c u q status) :=
  (h.mod (fun _ _ hk => hk.popUnit)).engFault

theorem State.Keeps.progressed {c : Cl} : s.Keeps (t.progressed c) :=
  h.mod

theorem State.Keeps.acceptHead {c : Cl} {u : EngUnit} {q : QInsn} {v : Word} : s.Keeps (t.acceptHead c u q v) :=
  (h.mod (fun _ _ hk => hk.popUnit)).wrRd.progressed

theorem State.Keeps.irq {c : Cl} {n : Nat} : s.Keeps (t.irq c n) :=
  h.core

theorem State.Keeps.countCue {cue : Word} {wscope : Nat} {sc : Option Nat} : s.Keeps (t.countCue cue wscope sc) := by
  unfold State.countCue
  extract_lets n s1 s2
  have h1 : s.Keeps s1 := .ite h.dinc h
  have h2 : s.Keeps s2 := .ite h1.dinc h1
  split
  · exact .ite h2.dinc h2
  · exact h2

theorem State.Keeps.sendCue {d : CueDest} {w : Word} : s.Keeps (t.sendCue d w) :=
  h.frame

theorem State.Keeps.evalSlot {c : Cl} {n : Nat} {ab : Bool} {sc : Option Nat} {i : Fin 16} :
    s.Keeps (t.evalSlot c n ab sc i) := by
  unfold State.evalSlot
  split
  · refine .ite ?_ h
    split
    · exact h.mod.sendCue.countCue
    · exact h
  · exact h

theorem State.Keeps.evalWait {c : Cl} {n : Nat} {ab : Bool} {sc : Option Nat} : s.Keeps (t.evalWait c n ab sc) := by
  dsimp only [State.evalWait]
  split
  · refine .ite ?_ h
    split
    · exact h.mod.sendCue.countCue
    · exact h
  · exact h

theorem State.Keeps.evalLocal {c : Cl} {n : Nat} {ab : Bool} {sc : Option Nat} : s.Keeps (t.evalLocal c n ab sc) :=
  (h.foldl (fun _ _ hu => hu.evalSlot)).evalWait

theorem State.Keeps.incLocal {c : Cl} {n inc sc : Nat} {src : ChgSrc} : s.Keeps (t.incLocal c n inc sc src) := by
  dsimp only [State.incLocal]
  refine .ite h.mod.evalLocal ?_
  split
  · split
    · exact h.ccap.cinc.logErr.engFault
    · exact h.ccap.cinc.logErr
  · exact h.ccap.cinc.logErr

theorem State.Keeps.engInc {c : Cl} {n : Nat} : s.Keeps (t.engInc c n) :=
  h.incLocal

theorem State.Keeps.pushQ {c : Cl} {n : Nat} {e : HEntry} : s.Keeps (t.pushQ c n e) :=
  (h.mod (fun _ _ hk => hk.setQueue)).also (·.engInc)

theorem State.Keeps.popQ {c : Cl} {n : Nat} : s.Keeps (t.popQ c n) :=
  h.mod fun _ _ hk => hk.setQueue

theorem State.Keeps.spEncounter {c : Cl} {by_ w : Nat} : s.Keeps (t.spEncounter c by_ w) := by
  unfold State.spEncounter
  exact h.cinc.ccap.logErr

theorem State.Keeps.spEncounters {c : Cl} {by_ : Nat} {ws : List Nat} : s.Keeps (t.spEncounters c by_ ws) :=
  h.foldl fun _ _ hu => hu.spEncounter

theorem State.Keeps.spEcc {c : Cl} {e : Ecc} : s.Keeps (t.spEcc c e) := by
  unfold State.spEcc
  split
  · exact h
  · exact h.cinc.mod
  · exact h.mod fun _ _ hk => hk.spPoison

theorem State.Keeps.ccPut {c : Cl} {l : CLine} : s.Keeps (t.ccPut c l) := by
  dsimp only [State.ccPut]
  split
  · exact h.cinc.foldl fun _ _ hu => .ite (hu.hbmWrite.also (·.hbmPoison)) hu
  · exact h.cinc

theorem State.Keeps.ccClean {c : Cl} {l : CLine} : s.Keeps (t.ccClean c l) :=
  .ite h h.ccPut.mod

theorem State.Keeps.ccDrop {c : Cl} {l : CLine} : s.Keeps (t.ccDrop c l) := by
  unfold State.ccDrop
  exact (h.ccClean.also (·.cinc)).mod

theorem State.Keeps.ccInv {c : Cl} {p : CLine → Bool} : s.Keeps (t.ccInv c p) :=
  h.foldl fun _ _ hu => hu.ccDrop.cinc

theorem State.Keeps.ccFlush {c : Cl} : s.Keeps (t.ccFlush c) :=
  h.foldl fun _ _ hu => hu.ccClean

theorem State.Keeps.ccFill {c : Cl} {line cls hint : Nat} {pf : Bool} : s.Keeps (t.ccFill c line cls hint pf) := by
  dsimp only [State.ccFill]
  split
  · refine .mod ?_
    split
    · exact h.ccDrop
    · exact h
  · exact h

theorem State.Keeps.ccHit {c : Cl} {line hint : Nat} : s.Keeps (t.ccHit c line hint) := by
  dsimp only [State.ccHit]
  refine .mod ?_
  split
  · exact h.cinc.also (·.cinc)
  · exact h.cinc

theorem State.Keeps.prefetch {c : Cl} {l : Nat} : s.Keeps (t.prefetch c l) := by
  dsimp only [State.prefetch]
  split
  · exact h.mod
  · exact h.mod.foldl (fun _ _ hu => .ite hu (hu.cinc.mod (fun _ _ hj => hj.frame)))

theorem State.Keeps.ccYield {c : Cl} {addr n : Nat} : s.Keeps (t.ccYield c addr n) :=
  h.foldl fun _ _ hu => hu.ccDrop

/-! #### The tile unit (Sys2Proof/Machine/TileUnit.lean) -/

theorem State.Keeps.execTileCfgAccept {c : Cl} : s.Completes (execTileCfgAccept c t) := by
  dsimp only [Machine.execTileCfgAccept]
  split
  · exact h.waits
  · split
    · exact h.faultHead.next
    · exact h.acceptHead.next
    · split
      · exact (h.acceptHead.mod (fun _ _ hk => hk.configure)).next
      · exact h.waits

theorem State.Keeps.execTileRelAccept {c : Cl} : s.Completes (execTileRelAccept c t) := by
  dsimp only [Machine.execTileRelAccept]
  split
  · exact h.waits
  · exact .ite h.faultHead.next (h.acceptHead.mod (fun _ _ hk => hk.setTile.also (·.setTile))).next

theorem State.Keeps.execTileLdAccept {c : Cl} : s.Completes (execTileLdAccept c t) := by
  dsimp only [Machine.execTileLdAccept]
  split
  · exact h.waits
  · split
    · exact h.faultHead.next
    · exact h.acceptHead.next
    · exact h.acceptHead.mod.next

theorem State.Keeps.ccRead {c : Cl} {cls hint a n : Nat} : s.Keeps (t.ccRead c cls hint a n).2.2 :=
  h.foldl fun _ _ hu => .ite hu.ccHit hu.cinc.ccFill.prefetch

theorem State.Keeps.ldRead {c : Cl} {l : TileLd} {k : Nat} : s.Keeps (t.ldRead c l k).2 := by
  unfold State.ldRead
  extract_lets x n sb a sa own r q
  have hq : s.Keeps q.2.2 := .snd_snd_ite h.ccRead h.ccRead.ccRead
  exact .snd_ite h (.snd_ite h (.snd_ite hq hq))

theorem State.Keeps.ldFail {c : Cl} {t' row cause : Nat} : s.Keeps (t.ldFail c t' row cause) :=
  h.ccap.cinc.also (·.irq)

theorem State.Keeps.ldCommit {c : Cl} {l : TileLd} {n : Nat} : s.Keeps (t.ldCommit c l n).1 := by
  induction n generalizing t l with
  | zero => exact h
  | succ n ih =>
    unfold State.ldCommit
    split
    · exact h
    · split
      · exact h
      · split
        · exact h.ldFail
        · exact ih (h.mod fun _ _ hk => hk.putTileRow.putTileScales).cinc

theorem State.Keeps.execTileLdRowArrive {c : Cl} {row : Nat} : s.Completes (execTileLdRowArrive c row t) := by
  dsimp only [Machine.execTileLdRowArrive]
  split
  · exact h.waits
  · exact h.ldRead.ldCommit.progressed.mod.next

theorem State.Keeps.execInstructionDiscard {c : Cl} {u : EngUnit} : s.Completes (execInstructionDiscard c u t) := by
  dsimp only [Machine.execInstructionDiscard]
  split
  · exact h.waits
  · exact .ite h.waits (.ite h.acceptHead.endWait.cwf.next h.acceptHead.endWait.next)

/-! #### The matrix array (Sys2Proof/Machine/ArrayUnit.lean) -/

theorem State.Keeps.arr {c : Cl} {f : MxArray → MxArray} : s.Keeps (t.arr c f) :=
  h.mod

theorem State.Keeps.execMxLoadAccept {c : Cl} : s.Completes (execMxLoadAccept c t) := by
  unfold Machine.execMxLoadAccept
  split
  · exact h.waits
  · exact .ite h.waits (.ite h.faultHead.next h.acceptHead.arr.next)

theorem State.Keeps.execMxGaugeAccept {c : Cl} : s.Completes (execMxGaugeAccept c t) := by
  dsimp only [Machine.execMxGaugeAccept]
  split
  · exact h.waits
  · exact .ite h.faultHead.next h.acceptHead.arr.next

theorem State.Keeps.tileUe {c : Cl} {t' n : Nat} : s.Keeps (t.tileUe c t' n) :=
  .ite h ((h.mod (fun _ _ hk => hk.setTile)).cinc.logErr.also (·.irq))

theorem State.Keeps.tileEcc {c : Cl} {t' : Nat} {e : Ecc} : s.Keeps (t.tileEcc c t' e) := by
  dsimp only [State.tileEcc]
  split
  · exact h
  · exact h.cinc
  · exact h.mod fun _ _ hk => .ite hk.setTile (.ite hk.setTile hk.setTile)

theorem State.Keeps.execMxLoadTransferStart {c : Cl} {ecc : Ecc} : s.Completes (execMxLoadTransferStart c ecc t) := by
  dsimp only [Machine.execMxLoadTransferStart]
  split
  · exact h.waits
  · exact h.tileEcc.tileUe.arr.next

theorem State.Keeps.execMxLoadComplete {c : Cl} : s.Completes (execMxLoadComplete c t) := by
  dsimp only [Machine.execMxLoadComplete]
  split
  · split
    · exact h.whenever h.progressed.arr
    · exact h.waits
  · exact h.waits

theorem State.Keeps.acceptRun {c : Cl} {q : QInsn} {r : MxRun} : s.Keeps (t.acceptRun c q r) := by
  unfold State.acceptRun
  exact (State.Keeps.ite (State.Keeps.ite h.popQ h).mod (.ite h.popQ h)).acceptHead.arr

theorem State.Keeps.mxRunAccept {c : Cl} : s.Completes (mxRunAccept c t) := by
  dsimp only [Machine.mxRunAccept]
  split
  · exact h.waits
  · refine .ite h.waits ?_
    split
    · exact h.faultHead.next
    · exact h.acceptRun.next
    · refine .ite ?_ ?_
      · split
        · exact h.faultHead.next
        · exact h.acceptRun.next
      · split
        · exact h.waits
        · split
          · exact h.faultHead.next
          · exact h.acceptRun.next
    · exact h.waits

theorem State.Keeps.admitRows {c : Cl} {r : MxRun} {ecc : Ecc} : s.Keeps (t.admitRows c r ecc) := by
  dsimp only [State.admitRows]
  refine .arr (.cinc (.spEncounters ?_))
  split
  · exact h.spEcc
  · exact h.tileEcc.tileUe

theorem State.Keeps.execArrayRowAdmit {c : Cl} {ecc : Ecc} : s.Completes (execArrayRowAdmit c ecc t) := by
  unfold Machine.execArrayRowAdmit
  split
  · exact h.admitRows.next
  · exact h.waits

theorem State.Keeps.accEcc {c : Cl} {ecc : Ecc} {blocks : List Nat} : s.Keeps (t.accEcc c ecc blocks) := by
  dsimp only [State.accEcc]
  split
  · exact h
  · exact .ite h.cinc h
  · exact .ite h (h.arr.ccap.cinc.logErr.also (·.irq))

theorem State.Keeps.mismatch {c : Cl} {r : MxRun} {j : Nat} : s.Keeps (t.mismatch c r j) := by
  unfold State.mismatch
  extract_lets p info s1 s2 s3 s4
  have h1 : s.Keeps s1 := .ite h.cwf (h.cwf.mod fun _ _ hk => hk.w)
  have h4 : s.Keeps s4 := h1.cinc.arr.logErr
  exact h4.also (·.irq)

theorem State.Keeps.verdict {c : Cl} {f : Flight} : s.Keeps (t.verdict c f) := by
  unfold State.verdict
  split
  · exact h
  · exact .ite (h.foldl (fun _ _ hu => .ite hu.cinc (.ite hu.mismatch hu))).arr h

theorem State.Keeps.frozenStep {c : Cl} {ctr : Nat} : s.Keeps (t.frozenStep c ctr) :=
  h.cinc.arr

theorem State.Keeps.liveStep {c : Cl} {slip : Option Slip} {ecc : Ecc} : s.Keeps (t.liveStep c slip ecc) := by
  dsimp only [State.liveStep]
  refine .arr (.foldl (.arr (.accEcc ?_)) (fun _ _ hu => hu.verdict))
  split
  · exact (State.Keeps.ite h h.cinc).cinc.cinc
  · exact .ite h h.cinc

theorem State.Keeps.arrayStep {c : Cl} {slip : Option Slip} {ecc : Ecc} : s.Keeps (t.arrayStep c slip ecc) :=
  .ite h.frozenStep (.ite h.frozenStep h.liveStep)

theorem State.Keeps.execArrayHandlePush {c : Cl} : s.Completes (execArrayHandlePush c t) := by
  unfold Machine.execArrayHandlePush
  refine .ite h.waits ?_
  split
  · exact h.pushQ.arr.next
  · exact h.mod.arr.next
  · exact h.waits

theorem State.Keeps.execRunComplete {c : Cl} : s.Completes (execRunComplete c t) := by
  unfold Machine.execRunComplete
  split
  · exact h.waits
  · exact h.progressed.arr.next

theorem State.Keeps.peakClear {c : Cl} : s.Keeps (t.peakClear c) :=
  h.arr

/-! #### Frames sent on the links (Sys2Proof/Machine/LinkOps.lean) -/

theorem State.Keeps.modPort {p : Nat} {f : PortSt → PortSt} : s.Keeps (t.modPort p f) := by
  unfold State.modPort
  split
  · exact h.frame
  · exact h

theorem State.Keeps.modLink {k : Nat} {f : LinkSt → LinkSt} : s.Keeps (t.modLink k f) := by
  unfold State.modLink
  split
  · exact h.frame
  · exact h

theorem State.Keeps.linkErr {p cause off cls : Nat} : s.Keeps (t.linkErr p cause off cls) :=
  h.dcap.logErr

theorem State.Keeps.linkEvent {p cause : Nat} : s.Keeps (t.linkEvent p cause) :=
  h.event

theorem State.Keeps.rvDrop {cnt cause chip : Nat} : s.Keeps (t.rvDrop cnt cause chip) :=
  h.dinc.logErr

theorem State.Keeps.enqueue {p : Nat} {f : Frame} : s.Keeps (t.enqueue p f) :=
  h.modPort

theorem State.Keeps.sendRouted {dst slice vc : Nat} {f : Frame} : s.Keeps (t.sendRouted dst slice vc f) := by
  unfold State.sendRouted
  split
  · exact h.enqueue
  · exact h.rvDrop

theorem State.Keeps.sendOp {dst slice vc op off kind clus xslot : Nat} {data : List Byte} :
    s.Keeps (t.sendOp dst slice vc op off kind clus xslot data) :=
  h.sendRouted

theorem State.Keeps.countCmp {p vc : Nat} {msg : List Byte} {fs : List (Bool × Bool × Bool × Nat × List Byte)} :
    s.Keeps (t.countCmp p vc msg fs) :=
  .ite h.dinc.dinc h

theorem State.Keeps.sendWrite {dst slice addr clus xslot : Nat} {data : List Byte} :
    s.Keeps (t.sendWrite dst slice addr clus xslot data) := by
  dsimp only [State.sendWrite]
  split
  · exact h.rvDrop
  · exact h.countCmp.foldl fun _ _ hu => hu.enqueue

theorem State.Keeps.sendMgmt {dst : Nat} {msg : List Byte} : s.Keeps (t.sendMgmt dst msg) := by
  dsimp only [State.sendMgmt]
  split
  · exact h.rvDrop
  · exact h.foldl fun _ _ hu => hu.enqueue

theorem State.Keeps.sendBcast {dir remain bop src : Nat} {data : List Byte} :
    s.Keeps (t.sendBcast dir remain bop src data) := by
  unfold State.sendBcast
  refine .ite h ?_
  split
  · exact h.enqueue
  · exact h

theorem State.Keeps.broadcast {bop : Nat} {data : List Byte} : s.Keeps (t.broadcast bop data) :=
  h.sendBcast.sendBcast

/-! #### Packets, commands in flight and replies (Sys2Proof/Machine/IbzarOps.lean) -/

theorem State.Keeps.modCmd {x : Nat} {k : Cmd} {f : Cmd → Cmd} : s.Keeps (t.modCmd x k f) :=
  h.modCx

theorem State.Keeps.dropCmd {x : Nat} {k : Cmd} : s.Keeps (t.dropCmd x k) :=
  h.modCx

theorem State.Keeps.hostRecord {x a : Nat} {bs : List Byte} : s.Keeps (t.hostRecord x a bs) :=
  .ite h.hostWrite h.frame

theorem State.Keeps.writeReply {x op status seq tag chip : Nat} {noirq : Bool} {result : List Byte}
    {conts : List (List Byte)} :
    s.Keeps (t.writeReply x op status seq tag chip noirq result conts) :=
  .ite h ((h.foldl (fun _ _ hu => hu.hostWrite)).hostRecord.dwf.dinc.dinc.unless (·.msix))

theorem State.Keeps.answer {x : Nat} {k : Cmd} {status : Nat} {result : List Byte} {conts : List (List Byte)} :
    s.Keeps (t.answer x k status result conts) := by
  unfold State.answer
  split
  · exact h.sendMgmt
  · exact .ite h h.writeReply

theorem State.Keeps.reply {x : Nat} {k : Cmd} {status : Nat} {result : List Byte} {conts : List (List Byte)} :
    s.Keeps (t.reply x k status result conts) :=
  h.dropCmd.answer

theorem State.Keeps.replyMal {x : Nat} {k : Cmd} {off : Nat} : s.Keeps (t.replyMal x k off) :=
  h.reply

theorem State.Keeps.replyAbandoned {x : Nat} {k : Cmd} : s.Keeps (t.replyAbandoned x k) :=
  h.reply

theorem State.Keeps.command {x : Ctx} {op : Nat} {f : Cmd → State → State} (hf : ∀ a u, s.Keeps u → s.Keeps (f a u)) :
    s.Completes (command x op t f) := by
  unfold Machine.command
  split
  · exact h.waits
  · exact .ite (hf _ _ h.modCmd).next h.waits

theorem State.Keeps.notePass {pass : Nat} : s.Keeps (t.notePass pass) :=
  h.mapCtx

/-! #### Counters, signals, watches, cues and curtains (Sys2Proof/Machine/Sync.lean) -/

theorem State.Keeps.setDctr {p v : Nat} : s.Keeps (t.setDctr p v) :=
  h.frame

theorem State.Keeps.markDone {d : CueDest} : s.Keeps (t.markDone d) := by
  dsimp only [State.markDone]
  split
  · refine h.modN fun _ _ hk => ?_
    split
    · split
      · exact hk.frame
      · exact hk
    · exact hk
  · exact h.modN
  · exact h

theorem State.Keeps.evalDev {ab : Bool} {sc : Option Nat} {w : DevWatch} : s.Keeps (t.evalDev ab sc w) := by
  dsimp only [State.evalDev]
  split
  · exact h
  · exact h.frame.sendCue.markDone.countCue

theorem State.Keeps.evalCtr {p : Nat} {ab : Bool} {sc : Option Nat} : s.Keeps (t.evalCtr p ab sc) :=
  h.foldl fun _ _ hu => hu.evalDev

theorem State.Keeps.abandonWatches {f : DevWatch → Bool} : s.Keeps (t.abandonWatches f) :=
  h.foldl fun _ _ hu => hu.frame.evalDev

theorem State.Keeps.abandonLocal {c : Cl} : s.Keeps (t.abandonLocal c) :=
  h.foldl fun _ _ hu => hu.evalLocal

theorem State.Keeps.sendChange {ch : Change} : s.Keeps (t.sendChange ch) :=
  h.frame

theorem State.Keeps.raiseRel {k g : Nat} : s.Keeps (t.raiseRel k g) :=
  h.sendChange

theorem State.Keeps.sendArrive {k g : Nat} : s.Keeps (t.sendArrive k g) :=
  .ite h.dwf.dinc.sendChange h.dwf.dinc.sendOp

theorem State.Keeps.generation {k g : Nat} : s.Keeps (t.generation k g) :=
  .ite h.frame.sendArrive h.frame.raiseRel

theorem State.Keeps.checkArr {p : Nat} : s.Keeps (t.checkArr p) :=
  h.foldl (fun _ _ hu => .ite (hu.foldl (fun _ _ hv => hv.generation)) hu)

theorem State.Keeps.refuseDev {p cause : Nat} {src : ChgSrc} : s.Keeps (t.refuseDev p cause src) := by
  dsimp only [State.refuseDev]
  split
  · split
    · exact h.dcap.dinc.logErr.engFault
    · exact h.dcap.dinc.logErr
  · exact h.dcap.dinc.logErr

theorem State.Keeps.applyDev {p amt : Nat} {raise : Bool} {sc : Nat} {src : ChgSrc} :
    s.Keeps (t.applyDev p amt raise sc src) :=
  .ite h (.ite h.refuseDev (State.Keeps.ite h.setDctr.dinc h.setDctr.dinc).evalCtr.checkArr)

theorem State.Keeps.applyChange {ch : Change} : s.Keeps (t.applyChange ch) := by
  unfold State.applyChange
  split
  · exact h.applyDev
  · split
    · exact h.incLocal
    · exact h

theorem State.Keeps.sendSig {c : Cl} {q : QInsn} : s.Keeps (t.sendSig c q) := by
  unfold State.sendSig
  extract_lets d x inc src own
  have hown : s.Keeps (own t) := by
    unfold own
    split
    · exact h.sendChange
    · exact h
  split
  · exact h.sendChange
  · exact h.sendChange
  · exact hown
  · exact .ite hown h.sendOp

theorem State.Keeps.execSySigAccept {c : Cl} : s.Completes (execSySigAccept c t) := by
  dsimp only [Machine.execSySigAccept]
  split
  · exact h.waits
  · refine .ite h.waits ?_
    split
    · exact h.faultHead.next
    · exact h.acceptHead.cinc.next
    · exact (h.acceptHead.cinc.also (·.ccFlush)).sendSig.next

theorem State.Keeps.placeWatch {c : Cl} {w : Watch} {dest : CueDest} : s.Keeps (t.placeWatch c w dest) := by
  dsimp only [State.placeWatch]
  split
  · exact h.evalLocal
  · exact h.frame

theorem State.Keeps.waitAccept {c : Cl} {inv : Bool} : s.Completes (waitAccept c inv t) := by
  dsimp only [Machine.waitAccept]
  split
  · exact h.waits
  · split
    · exact h.faultHead.next
    · exact (h.progressed.mod (fun _ _ hk => hk.popUnit.frame)).placeWatch.next

theorem State.Keeps.execSyWaitAccept {c : Cl} : s.Completes (execSyWaitAccept c t) :=
  h.waitAccept

theorem State.Keeps.execSyWaitinvAccept {c : Cl} : s.Completes (execSyWaitinvAccept c t) :=
  h.waitAccept

theorem State.Keeps.execSyWatchAccept {c : Cl} : s.Completes (execSyWatchAccept c t) := by
  dsimp only [Machine.execSyWatchAccept]
  split
  · exact h.waits
  · split
    · exact h.faultHead.next
    · exact h.faultHead.next
    · exact h.acceptHead.mod.placeWatch.next

theorem State.Keeps.execWatchRegister {i : Nat} : s.Completes (execWatchRegister i t) := by
  dsimp only [Machine.execWatchRegister]
  split
  · exact h.waits
  · exact .ite h.waits h.frame.evalDev.next

theorem State.Keeps.execWatchTimerExpiry {id : Nat} : s.Completes (execWatchTimerExpiry id t) := by
  unfold Machine.execWatchTimerExpiry
  -- Hidden from the kernel, which would unfold the subtraction 8192 times when it compares two arms.
  obtain ⟨n, hn⟩ := exists_eq (a' := id - 8192)
  rw [← hn]
  refine .ite ?_ ?_
  · split
    · exact h.waits
    · split
      · exact .ite h.evalDev.next h.waits
      · exact h.waits
  · extract_lets c j
    split
    · exact h.waits
    · extract_lets w
      clear_value w
      split
      · split
        · exact .ite h.evalLocal.next h.waits
        · exact h.waits
      · exact h.waits

theorem State.Keeps.cancelSlot {c : Cl} {n : Nat} : s.Keeps (t.cancelSlot c n) := by
  dsimp only [State.cancelSlot]
  split
  · split
    · exact .ite h h.mod.frame
    · exact h
  · exact h

theorem State.Keeps.execClSyWcancelWrite {c : Cl} {val : Word} : s.Completes (execClSyWcancelWrite c val t) :=
  (State.Keeps.ite h.cancelSlot h).next

theorem State.Keeps.readCue {c : Cl} {n : Fin 16} : s.Keeps (t.readCue c n).2 := by
  unfold State.readCue
  split
  · exact .snd h.mod
  · exact h

theorem State.Keeps.execClSyCueRead {c : Cl} {n : Fin 16} : s.Completes (execClSyCueRead c n t) :=
  h.readCue.frame.next

theorem State.Keeps.cueSlot {c : Cl} {n : Fin 16} {w : Word} : s.Keeps (t.cueSlot c n w) := by
  dsimp only [State.cueSlot]
  split
  · refine .ite ?_ ?_
    · refine .irq (.incLocal ?_)
      split
      · exact h.mod.cinc.dinc
      · exact h.mod.cinc
    · refine .incLocal ?_
      split
      · exact h.mod.cinc.dinc
      · exact h.mod.cinc
  · exact h

theorem State.Keeps.cueWait {c : Cl} {w : Word} : s.Keeps (t.cueWait c w) := by
  dsimp only [State.cueWait]
  split
  · exact h
  · refine .wrRd ?_
    split
    · exact (State.Keeps.ite h.ccInv h).mod.cinc.dinc
    · exact (State.Keeps.ite h.ccInv h).mod.cinc

theorem State.Keeps.execCueDelivery {i : Nat} : s.Completes (execCueDelivery i t) := by
  dsimp only [Machine.execCueDelivery]
  split
  · exact h.waits
  · split
    · split
      · refine .next ?_
        split
        · exact h.frame.cueSlot
        · exact h.frame
      · exact h.waits
    · split
      · exact h.frame.cueWait.next
      · exact h.waits
    · exact .ite h.waits h.frame.event.dinc.next

theorem State.Keeps.writePair {c : Cl} {n val : Nat} : s.Keeps (t.writePair c n val) :=
  .ite h.cwf (h.mod (fun _ _ hk => hk.w))

theorem State.Keeps.execClSyPairWrite {c : Cl} {n : Fin 8} {val : Word} : s.Completes (execClSyPairWrite c n val t) :=
  h.writePair.next

theorem State.Keeps.writeDevPair {k val : Nat} : s.Keeps (t.writeDevPair k val) :=
  .ite h.dwf h.dw

theorem State.Keeps.execSyPairWrite {k : Fin 256} {val : Word} : s.Completes (execSyPairWrite k val t) :=
  h.writeDevPair.next

theorem State.Keeps.writeVmap {x v val : Nat} : s.Keeps (t.writeVmap x v val) :=
  .ite h.dwf h.dw

theorem State.Keeps.execSyVmapWrite {x : Ctx} {v : Fin 4096} {val : Word} : s.Completes (execSyVmapWrite x v val t) :=
  h.writeVmap.next

theorem State.Keeps.writeCurCfg {k val : Nat} : s.Keeps (t.writeCurCfg k val) :=
  .ite h (h.dw.also (·.frame.checkArr))

theorem State.Keeps.execSyCurCfgWrite {k : Fin 16} {val : Word} : s.Completes (execSyCurCfgWrite k val t) :=
  h.writeCurCfg.next

/-! #### The scratchpad and its arrivals (Sys2Proof/Machine/Scratchpad.lean) -/

theorem State.Keeps.scrubNext {c : Cl} : s.Keeps (t.scrubNext c) :=
  h.mod fun _ _ hk => hk.w

theorem State.Keeps.execScrubWordCheck {c : Cl} {ecc : Ecc} : s.Completes (execScrubWordCheck c ecc t) :=
  .ite h.waits (State.Keeps.ite (State.Keeps.ite h.spEcc h).spEncounter (.ite h.spEcc h)).scrubNext.next

theorem State.Keeps.execCorrectedWordWriteback {c : Cl} : s.Completes (execCorrectedWordWriteback c t) := by
  unfold Machine.execCorrectedWordWriteback
  split
  · exact h.waits
  · exact h.mod.next

theorem State.Keeps.opDone {c : Cl} {status ctr : Nat} {sig : Bool} : s.Keeps (t.opDone c status ctr sig) :=
  (h.mod (fun _ _ hk => hk.wf.wf.frame)).also (·.engInc)

theorem State.Keeps.writeOpCtrl {c : Cl} {v : Nat} : s.Keeps (t.writeOpCtrl c v) := by
  unfold State.writeOpCtrl
  extract_lets s1 len copy ctr sig dst src
  have h1 : s.Keeps s1 := h.mod fun _ _ hk => hk.w
  exact .ite h1 (.ite h1.cwf (.ite h1.opDone (.ite h1.opDone h1.mod)))

theorem State.Keeps.execFillCopyGo {c : Cl} {val : Word} : s.Completes (execFillCopyGo c val t) :=
  h.writeOpCtrl.next

theorem State.Keeps.execFillCopyComplete {c : Cl} : s.Completes (execFillCopyComplete c t) := by
  dsimp only [Machine.execFillCopyComplete]
  split
  · exact h.waits
  · exact (h.mod (fun _ _ hk => hk.spWrite.spPoison)).spEncounters.opDone.next

theorem State.Keeps.writeProp {c : Cl} {h' v : Nat} : s.Keeps (t.writeProp c h' v) :=
  .ite h.cwf (h.mod (fun _ _ hk => hk.w))

theorem State.Keeps.execPropTableWrite {c : Cl} {h' : Fin 64} {val : Word} :
    s.Completes (execPropTableWrite c h' val t) :=
  h.writeProp.next

theorem State.Keeps.writeWindow {c : Cl} {n v : Nat} : s.Keeps (t.writeWindow c n v) :=
  .ite h.cwf (h.mod (fun _ _ hk => hk.w))

theorem State.Keeps.execWindowWrite {c : Cl} {n : Fin 8} {val : Word} : s.Completes (execWindowWrite c n val t) :=
  h.writeWindow.next

theorem State.Keeps.winReject {c : Cl} {a : Arrival} : s.Keeps (t.winReject c a) := by
  unfold State.winReject
  exact h.cinc.ccap.logErr

theorem State.Keeps.answerXfer {chip clus xslot : Nat} {rej : Option Nat} :
    s.Keeps (t.answerXfer chip clus xslot rej) := by
  dsimp only [State.answerXfer]
  split
  · exact h.sendOp
  · exact h.sendOp

theorem State.Keeps.answerOwn {c xslot num : Nat} {rej : Bool} : s.Keeps (t.answerOwn c xslot num rej) :=
  h.modN

theorem State.Keeps.arrivalEnd {c : Cl} {a : Arrival} {rejected : Bool} : s.Keeps (t.arrivalEnd c a rejected) := by
  dsimp only [State.arrivalEnd]
  split
  · exact h
  · exact h
  · exact h.answerOwn
  · split
    · exact h.mod.also (·.mod.answerXfer)
    · exact h.mod.also (·.answerXfer)

theorem State.Keeps.execArrivalCheck {c : Cl} : s.Completes (execArrivalCheck c t) := by
  dsimp only [Machine.execArrivalCheck]
  split
  · exact h.waits
  · split
    · exact h.mod.mod.cinc.next
    · exact h.mod.winReject.arrivalEnd.next

theorem State.Keeps.arrivalWrite {c : Cl} {a : Arrival} : s.Keeps (t.arrivalWrite c a) := by
  dsimp only [State.arrivalWrite]
  split
  · exact h.mod fun _ _ hk => hk.spWrite.spPoison
  · exact .ite h.spEncounter (h.mod (fun _ _ hk => hk.spWrite))

theorem State.Keeps.execArrivalComplete {c : Cl} : s.Completes (execArrivalComplete c t) := by
  dsimp only [Machine.execArrivalComplete]
  split
  · exact h.waits
  · exact h.mod.arrivalWrite.incLocal.arrivalEnd.next

theorem State.Keeps.sendArrival {n : Nat} {a : Arrival} : s.Keeps (t.sendArrival n a) :=
  h.modN

theorem State.Keeps.reclaimCluster {x : Nat} {c : Cl} : s.Keeps (t.reclaimCluster x c) :=
  h.foldl (fun _ _ hu => .ite (hu.mod (fun _ _ hj => hj.reclaimProp)) hu)

/-! #### Shards as byte sequences (Sys2Proof/Machine/WeightOps.lean) -/

theorem State.Keeps.modShard {h' : Shard} {f : Shard → Shard} : s.Keeps (t.modShard h' f) :=
  h.frame

theorem State.Keeps.shardWrite {h' : Shard} {bs : List Byte} : s.Keeps (t.shardWrite h' bs) :=
  h.foldl fun _ _ hu => hu.hbmWrite

theorem State.Keeps.stampShard {h' : Shard} {pass : Nat} : s.Keeps (t.stampShard h' pass) := by
  dsimp only [State.stampShard]
  split
  · exact h
  · exact (h.foldl (fun _ _ hu => hu.hbmWrite)).dinc.modShard

theorem State.Keeps.stampNext {h' : Shard} {from_ : Nat} : s.Keeps (t.stampNext h' from_) := by
  unfold State.stampNext
  split
  · exact h.stampShard
  · exact h

/-! #### Streams (Sys2Proof/Machine/Streams.lean) -/

theorem State.Keeps.strm {c : Cl} {slot : Nat} {f : Strm → Strm} : s.Keeps (t.strm c slot f) :=
  h.mod fun _ _ hk => hk.modStrm

theorem State.Keeps.putBlock {c : Cl} {x : Strm} {i : StopInfo} : s.Keeps (t.putBlock c x i) := by
  unfold State.putBlock
  exact h.mod fun _ _ hk => hk.spWrite

theorem State.Keeps.emptyStream {c : Cl} {q : QInsn} {bs : List Byte} {d : StreamD} :
    s.Keeps (t.emptyStream c q bs d) :=
  (h.acceptHead.mod (fun _ _ hk => hk.frame.also (·.spWrite))).also (·.engInc)

theorem State.Keeps.startStream {c : Cl} {q : QInsn} {bs : List Byte} {d : StreamD} {slot base fill : Nat} :
    s.Keeps (t.startStream c q bs d slot base fill) := by
  unfold State.startStream
  exact h.acceptHead.mod fun _ _ hk => hk.frame.spWrite.spWrite

theorem State.Keeps.streamAccept {c : Cl} {q : QInsn} {bs : List Byte} {base fill : Nat} :
    s.Completes (streamAccept c q bs base fill t) := by
  dsimp only [Machine.streamAccept]
  refine .ite h.waits ?_
  split
  · exact h.faultHead.next
  · exact h.emptyStream.next
  · exact h.startStream.next

theorem State.Keeps.execStreamAccept {c : Cl} : s.Completes (execStreamAccept c t) := by
  unfold Machine.execStreamAccept
  split
  · exact h.waits
  · exact h.streamAccept

theorem State.Keeps.execStreamResumeAccept {c : Cl} : s.Completes (execStreamResumeAccept c t) := by
  dsimp only [Machine.execStreamResumeAccept]
  split
  · exact h.waits
  · exact .ite h.faultHead.next h.streamAccept

theorem State.Keeps.stopHalted {x page status : Nat} : s.Keeps (t.stopHalted x page status) :=
  h.mapCls fun _ _ hk => .ite hk.frame hk

theorem State.Keeps.stopOutside {x : Nat} : s.Keeps (t.stopOutside x) :=
  h.foldl fun _ _ hu => hu.stopHalted

theorem State.Keeps.writeCancel {c : Cl} {v : Nat} : s.Keeps (t.writeCancel c v) :=
  .ite h.mod h

theorem State.Keeps.execStCancelWrite {c : Cl} {val : Word} : s.Completes (execStCancelWrite c val t) :=
  h.writeCancel.next

theorem State.Keeps.beginFill {c : Cl} {slot : Nat} {x : Strm} : s.Keeps (t.beginFill c slot x) := by
  dsimp only [State.beginFill]
  split
  · exact (h.foldl (fun _ _ hu => hu.modN (fun _ _ hj => hj.setQueue))).strm
  · exact (h.foldl (fun _ _ hu => hu.modN (fun _ _ hj => hj.setQueue))).strm

theorem State.Keeps.execStreamFillBegin {c : Cl} {slot : Fin 8} : s.Completes (execStreamFillBegin c slot t) := by
  unfold Machine.execStreamFillBegin
  split
  · exact h.waits
  · exact .ite h.beginFill.next h.waits

theorem State.Keeps.pushFill {c : Cl} {slot : Nat} {x : Strm} {f : Fill} : s.Keeps (t.pushFill c slot x f) := by
  dsimp only [State.pushFill]
  refine .strm (.ite ?_ ?_)
  · refine .dwf (.dinc (h.foldl (fun _ _ hu => ?_)))
    split
    · exact hu.pushQ
    · exact hu
  · refine h.foldl fun _ _ hu => ?_
    split
    · exact hu.pushQ
    · exact hu

theorem State.Keeps.execStreamFillPush {c : Cl} {slot : Fin 8} : s.Completes (execStreamFillPush c slot t) := by
  unfold Machine.execStreamFillPush
  split
  · exact h.waits
  · split
    · exact h.waits
    · exact .ite h.pushFill.next h.waits

theorem State.Keeps.sendStore {c : Cl} {y : Xfer} : s.Keeps (t.sendStore c y) :=
  .ite h.sendArrival h.sendWrite

theorem State.Keeps.issueXfer {c : Cl} {slot : Nat} {d : StreamD} {x : Strm} {a phys n : Nat} :
    s.Keeps (t.issueXfer c slot d x a phys n) :=
  ((h.mod (fun _ _ hk => hk.modStrm.frame)).cinc.progressed.cinc.spEncounters.also (·.tileUe)).also (·.sendStore)

theorem State.Keeps.haltStrm {c : Cl} {slot : Nat} {x : Strm} {page : Nat} : s.Keeps (t.haltStrm c slot x page) := by
  unfold State.haltStrm
  exact h.strm.putBlock.cinc.frame

theorem State.Keeps.execStreamTransferIssue {c : Cl} {slot : Fin 8} :
    s.Completes (execStreamTransferIssue c slot t) := by
  dsimp only [Machine.execStreamTransferIssue]
  split
  · exact h.waits
  · refine .ite h.waits ?_
    split
    · exact h.strm.next
    · exact h.haltStrm.next
    · exact h.issueXfer.next

theorem State.Keeps.execStreamPageResume {c : Cl} {slot : Fin 8} : s.Completes (execStreamPageResume c slot t) := by
  unfold Machine.execStreamPageResume
  -- Hidden from the kernel, which would compute an address with the literals of `translate` when it compares two arms.
  obtain ⟨g, hg⟩ := exists_eq (a' := t.translate)
  rw [← hg]
  split
  · exact h.waits
  · split
    · exact h.waits
    · split
      · exact h.strm.putBlock.next
      · exact h.waits
      · exact h.strm.next

theorem State.Keeps.ccWant {c : Cl} {line cls hint : Nat} : s.Keeps (t.ccWant c line cls hint) :=
  .ite h.ccHit h.cinc.ccFill

theorem State.Keeps.fetchBytes {c : Cl} {d : StreamD} {y : Xfer} {hostData : List Byte} {fault : XferFault} :
    s.Keeps (t.fetchBytes c d y hostData fault).1 := by
  dsimp only [State.fetchBytes]
  split
  · exact h
  · split
    · exact h.foldl fun _ _ hu => hu.ccWant
    · exact h

theorem State.Keeps.writeFetch {c : Cl} {d : StreamD} {x : Strm} {y : Xfer} {bs : List Byte} {bad : List Nat} :
    s.Keeps (t.writeFetch c d x y bs bad) := by
  dsimp only [State.writeFetch]
  split
  · split
    · refine h.foldl fun _ _ hu => ?_
      split
      · exact (hu.mod (fun _ _ hj => hj.spWrite.spPoison)).cinc
      · exact hu
    · exact h
  · exact (h.mod (fun _ _ hk => hk.spWrite.spPoison)).cinc
  · exact (h.mod (fun _ _ hk => hk.fetchTile)).cinc

theorem State.Keeps.handInject {c : Cl} {y : Xfer} {bs : List Byte} : s.Keeps (t.handInject c y bs) := by
  dsimp only [State.handInject]
  split
  · exact .ite h (.ite h.frame h.frame)
  · exact .ite (State.Keeps.ite h (.ite h.frame h.frame)).modShard.stampNext (.ite h (.ite h.frame h.frame))

theorem State.Keeps.endFetch {c : Cl} {slot : Nat} {d : StreamD} {y : Xfer} {hostData : List Byte} {fault : XferFault} :
    s.Keeps (t.endFetch c slot d y hostData fault) := by
  dsimp only [State.endFetch]
  refine .ite ?_ ?_
  · refine .handInject ?_
    split
    · exact h.fetchBytes.strm.cinc.writeFetch
    · exact h.fetchBytes.strm.cinc
  · split
    · exact h.fetchBytes.strm.cinc.writeFetch
    · exact h.fetchBytes.strm.cinc

theorem State.Keeps.endStore {c : Cl} {slot : Nat} {d : StreamD} {y : Xfer} : s.Keeps (t.endStore c slot d y) := by
  dsimp only [State.endStore]
  refine .ite h.strm ?_
  split
  · exact h.strm.cinc.ccYield.hbmWrite.foldl fun _ _ hu => hu.hbmPoison
  · exact h.strm.cinc.hostWrite
  · exact h.strm.cinc

theorem State.Keeps.execStreamTransferComplete {c : Cl} {slot : Fin 8} {hostData : List Byte} {fault : XferFault} :
    s.Completes (execStreamTransferComplete c slot hostData fault t) := by
  dsimp only [Machine.execStreamTransferComplete]
  split
  · exact (State.Keeps.ite h.progressed.mod.endFetch h.progressed.mod.endStore).next
  · exact h.waits

theorem State.Keeps.execStoreTransferTimeout {c : Cl} {xslot : Fin 8} :
    s.Completes (execStoreTransferTimeout c xslot t) := by
  dsimp only [Machine.execStoreTransferTimeout]
  split
  · exact h.waits
  · exact .ite h.mod.strm.cinc.next h.waits

theorem State.Keeps.injectEnd {whole : Bool} : s.Keeps (t.injectEnd whole) :=
  .ite h.frame (.ite h (.ite h.frame h.frame))

theorem State.Keeps.endStream {c : Cl} {slot : Nat} {x : Strm} : s.Keeps (t.endStream c slot x) := by
  dsimp only [State.endStream]
  refine .ite ?_ ?_
  · refine .engInc (.ite ?_ ?_)
    · refine .injectEnd (.mod (.putBlock (.progressed (h.foldl (fun _ _ hu => ?_)))))
      split
      · exact hu.pushQ
      · exact hu
    · refine .mod (.putBlock (.progressed (h.foldl (fun _ _ hu => ?_))))
      split
      · exact hu.pushQ
      · exact hu
  · refine .ite ?_ ?_
    · refine .injectEnd (.mod (.putBlock (.progressed (h.foldl (fun _ _ hu => ?_)))))
      split
      · exact hu.pushQ
      · exact hu
    · refine .mod (.putBlock (.progressed (h.foldl (fun _ _ hu => ?_))))
      split
      · exact hu.pushQ
      · exact hu

theorem State.Keeps.execStreamEnd {c : Cl} {slot : Fin 8} : s.Completes (execStreamEnd c slot t) := by
  unfold Machine.execStreamEnd
  split
  · exact h.waits
  · exact h.whenever h.endStream

theorem State.Keeps.execStreamStallAlarm {c : Cl} {slot : Fin 8} : s.Completes (execStreamStallAlarm c slot t) := by
  dsimp only [Machine.execStreamStallAlarm]
  split
  · exact h.waits
  · exact .ite h.strm.ccap.cinc.logErr.next h.waits

theorem State.Keeps.strmStep {c : Cl} {slot : Nat} : s.Keeps (t.strmStep c slot) := by
  dsimp only [State.strmStep]
  split
  · exact h
  · refine .strm ?_
    split
    · split
      · exact h.cinc
      · exact h
    · exact h

/-! #### The control core as a whole (Sys2Proof/Machine/CoreOps.lean) -/

theorem State.Keeps.fillI {c : Cl} {ms : List Nat} : s.Keeps (t.fillI c ms) := by
  dsimp only [State.fillI]
  refine h.foldl fun _ _ hu => ?_
  split
  · exact hu.cinc.core
  · exact hu

theorem State.Keeps.retire {c : Cl} {pc : Word} : s.Keeps (t.retire c pc) :=
  h.core.cinc.progressed

theorem State.Keeps.noteEnd {c : Cl} {e : KEnd} : s.Keeps (t.noteEnd c e) := by
  unfold State.noteEnd
  split
  · exact h
  · exact h.modCx

theorem State.Keeps.stopCore {c : Cl} : s.Keeps (t.stopCore c) :=
  (h.mod (fun _ _ hk => hk.wf)).core

theorem State.Keeps.endKernel {c : Cl} {status : Nat} : s.Keeps (t.endKernel c status) := by
  unfold State.endKernel
  exact (h.noteEnd.stopCore.mod (fun _ _ hk => hk.clearQueues.cancelAll)).core

theorem State.Keeps.exception {c : Cl} {cause : Nat} {tval : Word} : s.Keeps (t.exception c cause tval) :=
  h.core.endKernel

theorem State.Keeps.wantPage {x p : Nat} : s.Keeps (t.wantPage x p) :=
  h.frame

theorem State.Keeps.stallPage {c : Cl} {p cause : Nat} {a : Word} : s.Keeps (t.stallPage c p cause a) :=
  h.wantPage.core

theorem State.Keeps.launchCore {c : Cl} : s.Keeps (t.launchCore c) :=
  (h.ccInv.frame.mod (fun _ _ hk => hk.entry.frame)).progressed

theorem State.Keeps.denied : s.Keeps t.denied :=
  h.dinc

theorem State.Keeps.setHalt {c : Cl} : s.Keeps (t.setHalt c) := by
  unfold State.setHalt
  exact (h.mod (fun _ _ hk => hk.wf)).core

theorem State.Keeps.clearHalt {c : Cl} : s.Keeps (t.clearHalt c) :=
  (h.mod (fun _ _ hk => hk.wf)).core

theorem State.Keeps.stepCore {c : Cl} : s.Keeps (t.stepCore c) :=
  .ite h.core h

theorem State.Keeps.breakHit {c : Cl} : s.Keeps (t.breakHit c) :=
  (h.mod (fun _ _ hk => hk.wf)).core

theorem State.Keeps.clearDebug {c : Cl} : s.Keeps (t.clearDebug c) :=
  h.clearHalt.core.dw.dwf

/-! #### A cluster's register block (Sys2Proof/Machine/ClusterRegs.lean) -/

theorem State.Keeps.clearPred {c : Cl} : s.Keeps (t.clearPred c) :=
  h.core

theorem State.Keeps.clearRate {c : Cl} : s.Keeps (t.clearRate c) :=
  h.mod fun _ _ hk => hk.w.frame

theorem State.Keeps.writeRun {c : Cl} {on : Bool} : s.Keeps (t.writeRun c on) :=
  .ite (.ite h h.launchCore) ((h.mod (fun _ _ hk => hk.wf)).also (·.stopCore))

theorem State.Keeps.writeHalt {c : Cl} {on : Bool} : s.Keeps (t.writeHalt c on) :=
  .ite h (.ite h.denied (.ite h.setHalt h.clearHalt))

theorem State.Keeps.writeCoreCtrl {c : Cl} {v : Nat} : s.Keeps (t.writeCoreCtrl c v) := by
  unfold State.writeCoreCtrl
  extract_lets s1 s2 s3 s4
  have h2 : s.Keeps s2 := h.writeHalt.writeRun
  have h3 : s.Keeps s3 := .ite (.ite h2.stepCore h2.denied) h2
  have h4 : s.Keeps s4 := .ite h3.clearPred h3
  exact .ite h4.clearRate h4

theorem State.Keeps.writeRoute {c : Cl} {v : Nat} : s.Keeps (t.writeRoute c v) :=
  .ite h.cwf (h.mod (fun _ _ hk => hk.plainWrite))

theorem State.Keeps.writePush {c : Cl} {n v : Nat} : s.Keeps (t.writePush c n v) :=
  .ite h.pushQ h.cwf

theorem State.Keeps.readPop {c : Cl} {n : Nat} : s.Keeps (t.readPop c n).2 := by
  dsimp only [State.readPop]
  split
  · exact h
  · exact h.popQ

theorem State.Keeps.readResPop {c : Cl} : s.Keeps (t.readResPop c).2 := by
  unfold State.readResPop
  split
  · exact h
  · exact .snd h.mod

theorem State.Keeps.writeFlt {c : Cl} {v : Nat} : s.Keeps (t.writeFlt c v) :=
  h.mod fun _ _ hk => hk.plainWrite.also (·.w.w.w.w)

theorem State.Keeps.handLocal {c : Cl} {n v : Nat} : s.Keeps (t.handLocal c n v) :=
  h.mod.evalLocal.dinc

theorem State.Keeps.writeSetv {who : Writer} {c : Cl} {v : Nat} : s.Keeps (t.writeSetv who c v) := by
  unfold State.writeSetv
  split
  · exact h
  · exact .ite h (.ite h.denied h.handLocal)

theorem State.Keeps.execClSySetvWrite {who : Writer} {c : Cl} {val : Word} :
    s.Completes (execClSySetvWrite who c val t) :=
  h.writeSetv.next

theorem State.Keeps.clRead {c : Cl} {off : Nat} : s.Keeps (t.clRead c off).2 := by
  unfold State.clRead
  refine .snd_ite h.readPop (.snd_ite h.readResPop ?_)
  split
  · exact h.readCue
  · exact h

theorem State.Keeps.clWriteEng {c : Cl} {off v : Nat} : s.Keeps (t.clWriteEng c off v) := by
  have hp : s.Keeps (t.mod c fun k => k.plainWrite off v) := h.mod fun _ _ hk => hk.plainWrite
  refine .ite h.writeCancel (.ite h.writeOpCtrl (.ite h.writeWindow (.ite h.writeProp (.ite ?_ (.ite ?_ (.ite ?_ hp))))))
  · exact .ite hp.peakClear hp
  · exact h.mod fun _ _ hk => hk.plainWrite.also (·.w)
  · exact .ite (h.mod fun _ _ hk => hk.setTile) h

theorem State.Keeps.clWrite {who : Writer} {c : Cl} {off v : Nat} : s.Keeps (t.clWrite who c off v) := by
  unfold State.clWrite
  refine .ite h.writeCoreCtrl ?_
  refine .ite h.writeRoute ?_
  refine .ite h.writePush ?_
  refine .ite h.writeFlt ?_
  refine .ite h.writeSetv ?_
  refine .ite (.ite h.cancelSlot h) ?_
  refine .ite h.writePair ?_
  split
  · exact h.clWriteEng.mod fun _ _ hk => .ite hk.frame hk
  · exact h.clWriteEng
  · exact h.clWriteEng

theorem State.Keeps.execClQPush {c : Cl} {n : Fin 8} {val : Word} : s.Completes (execClQPush c n val t) :=
  h.writePush.next

theorem State.Keeps.execClQPop {c : Cl} {n : Fin 8} : s.Completes (execClQPop c n t) :=
  h.readPop.frame.next

theorem State.Keeps.execClQRespop {c : Cl} : s.Completes (execClQRespop c t) :=
  h.readResPop.frame.next

theorem State.Keeps.execClQRouteWrite {c : Cl} {val : Word} : s.Completes (execClQRouteWrite c val t) :=
  h.writeRoute.next

theorem State.Keeps.execCoreRunSet {c : Cl} : s.Completes (execCoreRunSet c t) :=
  h.writeRun.next

theorem State.Keeps.execCoreRunClear {c : Cl} : s.Completes (execCoreRunClear c t) :=
  h.writeRun.next

theorem State.Keeps.execDebugHalt {c : Cl} : s.Completes (execDebugHalt c t) :=
  h.writeHalt.next

theorem State.Keeps.execDebugResume {c : Cl} : s.Completes (execDebugResume c t) :=
  h.writeHalt.next

theorem State.Keeps.execDebugStep {c : Cl} : s.Completes (execDebugStep c t) :=
  (State.Keeps.ite h.stepCore h.denied).next

theorem State.Keeps.execBpclr {c : Cl} : s.Completes (execBpclr c t) :=
  h.clearPred.next

theorem State.Keeps.execRateclr {c : Cl} : s.Completes (execRateclr c t) :=
  h.clearRate.next

theorem State.Keeps.execPeakclr {c : Cl} : s.Completes (execPeakclr c t) :=
  h.peakClear.next

theorem State.Keeps.execPendClear {c : Cl} {val : Word} : s.Completes (execPendClear c val t) :=
  h.writeFlt.next

theorem State.Keeps.execStepRateWindowEnd {c : Cl} : s.Completes (execStepRateWindowEnd c t) :=
  .ite h.waits (h.mod (fun _ _ hk => hk.w.frame)).next

/-! #### The base instructions (Sys2Proof/Machine/CoreIsa.lean) -/

theorem State.Keeps.spCheck {c : Cl} {w : Nat} {ecc : Ecc} : s.Keeps (t.spCheck c w ecc).2 := by
  unfold State.spCheck
  extract_lets mine s1
  have h1 : s.Keeps s1 := .ite h.spEcc h
  exact .snd_ite h1.spEncounter h1

theorem State.Keeps.ccCheck {c : Cl} {l : CLine} {ecc : Ecc} : s.Keeps (t.ccCheck c l ecc) := by
  unfold State.ccCheck
  split
  · exact h
  · exact h
  · exact .ite h.mod h.mod.logErr

theorem State.Keeps.ccLook {c : Cl} {a : Nat} {ecc : Ecc} : s.Keeps (t.ccLook c a ecc).2 := by
  dsimp only [State.ccLook]
  split
  · exact h
  · exact h.ccCheck

theorem State.Keeps.joinMiss {c : Cl} {line : Nat} {u : MissUse} : ∀ v ∈ t.joinMiss c line u, s.Keeps v := by
  intro v hv
  unfold State.joinMiss at hv
  split at hv
  · cases hv
    exact (State.Keeps.ite h.cinc h).mod
  · split at hv <;> cases hv
    exact h.cinc.mod

theorem State.Keeps.ccGet {c : Cl} {a : Nat} : s.Keeps (t.ccGet c a) :=
  h.cinc.ccFill.mod

theorem State.Keeps.memLoad {c : Cl} {a n : Nat} {ecc : Ecc}
    {block : Bool} : s.KeepsAcc (t.memLoad c a n ecc block) := by
  unfold State.memLoad
  split
  · exact .fault h
  · exact .fault h
  · exact .ite (.fault h) (.ok h.clRead)
  · exact .ite (.fault h.spCheck) (.ok h.spCheck)
  · exact .host
  · split
    · exact .fault h
    · exact .page
    · refine .ite (.ite .wait (.miss h)) ?_
      extract_lets r hit s1
      have h1 : s.Keeps s1 := .ite h.ccLook.ccHit h.ccLook.ccGet
      refine .ite (.miss h.ccLook) ?_
      split
      · exact .ite (.fault h1) (.ok h1)
      · exact .fault h1

theorem State.Keeps.ccStore {c : Cl} {a : Nat} {bs : List Byte} : s.Keeps (t.ccStore c a bs) :=
  h.mod

theorem State.Keeps.postWord {c : Cl} {chip clus off : Nat} {amo : Option Nat} {v : Nat} :
    s.Keeps (t.postWord c chip clus off amo v) := by
  dsimp only [State.postWord]
  refine .ite h.sendArrival ?_
  split
  · exact h.sendOp
  · exact h.sendOp

theorem State.Keeps.memStore {who : Writer} {c : Cl} {a n v : Nat} {ecc : Ecc} {block : Bool} :
    s.KeepsAcc (t.memStore who c a n v ecc block) := by
  unfold State.memStore
  split
  · exact .fault h
  · exact .ite (.fault h) (.ok h.clWrite)
  · extract_lets r
    have hr : s.Keeps r.2 := .snd_ite h h.spCheck
    exact .ite (.fault hr) (.ok (hr.mod fun _ _ hk => hk.spWrite))
  · exact .ite (.ok h.postWord) (.fault h)
  · exact .ok h.hostWrite
  · split
    · exact .fault h
    · exact .page
    · refine .ite (.fault h) (.ite (.ite .wait (.miss h)) ?_)
      extract_lets r hit s1
      have h1 : s.Keeps s1 := .ite h.ccLook.ccHit h.ccLook.ccGet
      refine .ite (.miss h.ccLook) ?_
      split
      · exact .ite (.fault h1) (.ok h1.ccStore)
      · exact .fault h1

theorem State.Keeps.atomicHome {c : Cl} {a n : Nat} {write : Bool} : s.KeepsAcc (t.atomicHome c a n write) := by
  unfold State.atomicHome
  split
  · exact .fault h
  · exact .page
  · exact .ite (.fault h) (.ite .wait (.ite (.ok h.ccYield) (.fault h.ccYield)))

theorem State.Keeps.memAmo {c : Cl} {a n f v : Nat} {ecc : Ecc} : s.KeepsAcc (t.memAmo c a n f v ecc) := by
  unfold State.memAmo
  split
  · exact .fault h
  · exact .fault h
  · exact .fault h
  · exact .ite (.fault h.spCheck) (.ok (h.spCheck.mod fun _ _ hk => hk.spWrite))
  · exact .ite (.ok h.postWord) (.fault h)
  · have ha : s.KeepsAcc (t.atomicHome c a n true) := h.atomicHome
    generalize t.atomicHome c a n true = r at ha ⊢
    cases ha with
    | ok hu => exact .ok hu.hbmWrite
    | fault hu => exact .fault hu
    | page => exact .page
    | miss hu => exact .miss hu
    | wait => exact .wait
    | host => exact .host

theorem State.Keeps.memLr {c : Cl} {a n : Nat} {ecc : Ecc} : s.KeepsAcc (t.memLr c a n ecc) := by
  unfold State.memLr
  split
  · exact .ite (.fault h.spCheck) (.ok h.spCheck.core)
  · have ha : s.KeepsAcc (t.atomicHome c a n false) := h.atomicHome
    generalize t.atomicHome c a n false = r at ha ⊢
    cases ha with
    | ok hu => exact .ok hu.core
    | fault hu => exact .fault hu
    | page => exact .page
    | miss hu => exact .miss hu
    | wait => exact .wait
    | host => exact .host
  · exact .fault h

theorem State.Keeps.memSc {c : Cl} {a n v : Nat} {ecc : Ecc} : s.KeepsAcc (t.memSc c a n v ecc) := by
  unfold State.memSc
  extract_lets drop
  have hdrop : ∀ u, s.Keeps u → s.Keeps (drop u) := fun _ hu => hu.core
  split
  · extract_lets r
    have hr : s.Keeps r.2 := .snd_ite h h.spCheck
    exact .ite (.fault hr) (.ite (.ok (hdrop _ (hr.mod fun _ _ hk => hk.spWrite))) (.ok (hdrop _ hr)))
  · have ha : s.KeepsAcc (t.atomicHome c a n true) := h.atomicHome
    generalize t.atomicHome c a n true = r at ha ⊢
    cases ha with
    | ok hu => exact .ite (.ok (hdrop _ hu.hbmWrite)) (.ok (hdrop _ hu))
    | fault hu => exact .fault hu
    | page => exact .page
    | miss hu => exact .miss hu
    | wait => exact .wait
    | host => exact .host
  · exact .fault h

theorem State.Keeps.put {c : Cl} {rd : Nat} {v pc : Word} : s.Keeps (t.put c rd v pc) :=
  h.core.retire

theorem State.Keeps.finish {c : Cl} {cause a : Nat} {r : MemAcc} {k : Nat → State → Res} (hr : s.KeepsAcc r)
    (hk : ∀ v u, s.Keeps u → s.Completes (k v u)) : s.Completes (t.finish c cause a r k) := by
  cases hr with
  | ok hu => exact hk _ _ hu
  | fault hu => exact hu.exception.next
  | page => exact h.stallPage.next
  | miss hu => exact hu.next
  | wait => exact h.waits
  | host => exact h.waits

theorem State.Keeps.isaLoad {c : Cl} {w a : Nat} {ecc : Ecc} {pc : Word} :
    s.CompletesIf (t.isaLoad c w a ecc pc) := by
  unfold State.isaLoad
  extract_lets f3 n signed rd
  have hm : s.KeepsAcc (t.memLoad c a n ecc false) := h.memLoad
  refine .ite .none (.ite (.some h.exception.next) ?_)
  generalize t.memLoad c a n ecc false = r at hm ⊢
  have hf := h.finish (c := c) (cause := xcLoad) (a := a) hm
    (k := fun v u => .next (u.put c rd (extend n signed v) pc)) fun _ _ hu => hu.put.next
  cases hm with
  | miss hu =>
    refine .some ?_
    split
    · exact h.waits
    · next hj => exact (State.Keeps.ite (hu.joinMiss _ hj) (hu.joinMiss _ hj).core).retire.next
  | host => exact .some h.core.next
  | ok _ => exact .some hf
  | fault _ => exact .some hf
  | page => exact .some hf
  | wait => exact .some hf

theorem State.Keeps.isaStore {c : Cl} {w a v : Nat} {ecc : Ecc} {pc : Word} :
    s.CompletesIf (t.isaStore c w a v ecc pc) := by
  unfold State.isaStore
  extract_lets f3 n
  have hm : s.KeepsAcc (t.memStore (.core c) c a n v ecc false) := h.memStore
  refine .ite .none (.ite (.some h.exception.next) ?_)
  generalize t.memStore (.core c) c a n v ecc false = r at hm ⊢
  have hf := h.finish (c := c) (cause := xcStore) (a := a) hm
    (k := fun _ u => .next (u.retire c pc)) fun _ _ hu => hu.retire.next
  cases hm with
  | miss hu =>
    refine .some ?_
    split
    · exact h.waits
    · next hj => exact (hu.joinMiss _ hj).retire.next
  | host => exact .some hf
  | ok _ => exact .some hf
  | fault _ => exact .some hf
  | page => exact .some hf
  | wait => exact .some hf

theorem State.Keeps.isaAtomic {c : Cl} {w a v : Nat} {ecc : Ecc} {pc : Word} :
    s.CompletesIf (t.isaAtomic c w a v ecc pc) := by
  unfold State.isaAtomic
  extract_lets f n rd
  have hput : ∀ (g : Nat → Word) v u, s.Keeps u → s.Completes (.next (u.put c rd (g v) pc)) := fun _ _ _ hu => hu.put.next
  refine .ite .none (.ite (.ite .none (.ite (.some h.exception.next) ?_))
    (.ite (.ite (.some h.exception.next) ?_)
      (.ite (.ite (.some h.exception.next) ?_) .none)))
  · exact .some (h.finish h.memLr (hput _))
  · exact .some (h.finish h.memSc (hput _))
  · exact .some (h.finish h.memAmo (hput _))

theorem State.Keeps.resolve {c : Cl} {taken : Bool} {target : Word} : s.Keeps (t.resolve c taken target) := by
  unfold State.resolve
  extract_lets pc r s1
  have h1 : s.Keeps s1 := h.free.also (·.cinc)
  exact h1.core

theorem State.Keeps.isaCsr {c : Cl} {w : Nat} {a : Word} {pc : Word} : s.CompletesIf (t.isaCsr c w a pc) := by
  unfold State.isaCsr
  extract_lets n v kind writes
  split
  · exact .none
  · exact .ite .none (.some (State.Keeps.ite h.core h).put.next)

theorem State.Keeps.isaSystem {c : Cl} {w : Nat} {a : Word} {pc : Word} : s.CompletesIf (t.isaSystem c w a pc) :=
  .ite
    (.ite (.some (State.Keeps.ite h.setHalt.core h.exception).next)
      (.ite (.some h.retire.next) (.ite (.some h.core.retire.next) .none)))
    (.ite .none h.isaCsr)

theorem State.Keeps.isa {c : Cl} {w : Nat} {ecc : Ecc} {pc : Word} : s.CompletesIf (t.isa c w ecc pc) := by
  unfold State.isa
  extract_lets k a b rd at_ rel
  have hop : ∀ o : Option Word, s.CompletesIf (o.map (fun v => (.next (t.put c rd v pc) : Res))) := by
    rintro (_ | v)
    · exact .none
    · exact .some h.put.next
  split
  · exact .some h.put.next
  · exact .some h.put.next
  · exact .some h.core.put.next
  · exact .ite .none (.some h.resolve.core.put.next)
  · split
    · exact .none
    · exact .some h.resolve.retire.next
  · exact h.isaLoad
  · exact h.isaStore
  · exact h.isaAtomic
  · exact hop _
  · exact hop _
  · exact hop _
  · exact hop _
  · exact .ite (.some h.retire.next) (.ite (.some h.core.retire.next) .none)
  · exact h.isaSystem
  · exact .none

theorem State.Keeps.coreGo {c : Cl} {ecc : Ecc} : s.Completes (t.coreGo c ecc) := by
  unfold State.coreGo
  split
  · exact h.exception.next
  · exact h.stallPage.next
  · next len _ _ =>
    split
    · exact h.fillI.exception.next
    · next w _ =>
      refine .ite h.waits ?_
      extract_lets u
      have hu : s.Keeps u := h.fillI
      have hi := hu.isa (c := c) (w := w) (ecc := ecc) (pc := u.nextPc c len)
      generalize u.isa c w ecc (u.nextPc c len) = o at hi ⊢
      cases hi with
      | some hr => exact hr
      | none => exact hu.exception.next

theorem State.Keeps.execCoreInstruction {c : Cl} {ecc : Ecc} : s.Completes (execCoreInstruction c ecc t) :=
  .ite h.waits (.ite h.breakHit.next h.coreGo)

/-! #### The shared cache, the tracker and the HBM controllers (Sys2Proof/Machine/Hbm.lean) -/

theorem State.Keeps.track {sl block : Nat} {write : Bool} : s.Keeps (t.track sl block write) :=
  h.frame

theorem State.Keeps.shcEvict {sl k : Nat} {t' : Tag} : s.Keeps (t.shcEvict sl k t') := by
  unfold State.shcEvict
  extract_lets s1 s2 poisoned _ s3
  have h1 : s.Keeps s1 := .ite h.dinc h
  have h2 : s.Keeps s2 := .ite h1.dinc.track h1
  have h3 : s.Keeps s3 := .ite (h2.foldl fun _ _ hu => hu.hbmPoison) h2.frame
  exact h3.frame

theorem State.Keeps.shcFill {sl a cls hint ctx : Nat} {dirty pf : Bool} :
    s.Keeps (t.shcFill sl a cls hint ctx dirty pf) := by
  dsimp only [State.shcFill]
  refine .frame ?_
  split
  · exact h.shcEvict
  · exact h

theorem State.Keeps.shcHit {sl w : Nat} {r : ShcReq} : s.Keeps (t.shcHit sl w r) :=
  (h.dinc.also (·.dinc)).frame

theorem State.Keeps.shcMiss {sl : Nat} {r : ShcReq} : s.Keeps (t.shcMiss sl r) := by
  dsimp only [State.shcMiss]
  split
  · exact (State.Keeps.ite h.dinc h).frame
  · exact .ite h.dinc.shcFill h.dinc.frame.track

/-- R617: an access inside HBM; one past it is the model's one fault. -/
theorem State.Keeps.execSharedCacheAccess {sl : Sl} {req : ShcReq} (hreq : ¬ hbmBytes ≤ req.addr) :
    s.Completes (execSharedCacheAccess sl req t) := by
  unfold Machine.execSharedCacheAccess
  rw [if_neg hreq]
  refine .ite h.waits ?_
  split
  · exact h.shcHit.next
  · exact h.shcMiss.next

theorem State.Keeps.shcEcc {sl line : Nat} {ecc : Ecc} : s.Keeps (t.shcEcc sl line ecc) := by
  unfold State.shcEcc
  split
  · exact h
  · exact h.dinc
  · exact .ite h.dinc.frame.logErr h.dinc.frame

theorem State.Keeps.execSharedCacheMissFill {sl : Sl} {line : Nat} {ecc : Ecc} :
    s.Completes (execSharedCacheMissFill sl line ecc t) := by
  dsimp only [Machine.execSharedCacheMissFill]
  split
  · exact h.waits
  · exact .ite h.waits h.frame.shcFill.shcEcc.next

theorem State.Keeps.writeMaint {v : Nat} : s.Keeps (t.writeMaint v) :=
  h.dw.also (·.frame)

theorem State.Keeps.execShcMaintGo {val : Word} : s.Completes (execShcMaintGo val t) :=
  h.writeMaint.next

theorem State.Keeps.maintain {v : Nat} : s.Keeps (t.maintain v) :=
  h.foldl fun _ _ hu => .ite (.ite hu.dinc.track.frame hu) hu.shcEvict

theorem State.Keeps.execShcMaintDone : s.Completes (execShcMaintDone t) := by
  dsimp only [Machine.execShcMaintDone]
  split
  · exact h.waits
  · exact h.maintain.frame.dwf.next

theorem State.Keeps.execHbmRequest {sl : Sl} : s.Completes (execHbmRequest sl t) :=
  .ite h.frame.next h.waits

theorem State.Keeps.hbmOutcome {st block : Nat} {write : Bool} {o : HbmOutcome} :
    s.Keeps (t.hbmOutcome st block write o) := by
  dsimp only [State.hbmOutcome]
  split
  · exact h
  · exact .ite h h.dinc
  · exact h.dinc
  · exact .ite (h.dinc.stkErr.foldl (fun _ _ hu => hu.hbmPoison)) h.dinc.stkErr.frame
  · exact .ite h h.dinc.stkErr.hbmPoison
  · exact .ite h.dinc.stkErr.hbmPoison h.frame

theorem State.Keeps.execHbmRequestComplete {st : Stk} {i : Nat} {outcome : HbmOutcome} :
    s.Completes (execHbmRequestComplete st i outcome t) := by
  dsimp only [Machine.execHbmRequestComplete]
  split
  · exact h.waits
  · exact .ite h.waits h.frame.dinc.hbmOutcome.next

theorem State.Keeps.execHbmPatrolRead {st : Stk} {ecc : Ecc} : s.Completes (execHbmPatrolRead st ecc t) := by
  dsimp only [Machine.execHbmPatrolRead]
  refine .ite h.waits ?_
  refine .ite h.dw.next ?_
  split
  · exact h.dw.next
  · exact h.dw.dinc.next
  · exact h.dw.dinc.stkErr.hbmPoison.next

theorem State.Keeps.execHbmRefresh {st : Stk} : s.Completes (execHbmRefresh st t) :=
  h.whenever h

/-! #### Issue, environment calls, handlers and the debug path (Sys2Proof/Machine/CoreUnit.lean) -/

theorem State.Keeps.issue {c : Cl} {e : EngOp} {stall : Nat → Stall} : s.Completes (t.issue c e stall) := by
  dsimp only [State.issue]
  split
  · exact .ite h.waits (h.fillI.mod (fun _ _ hk => hk.enqueue)).core.retire.next
  · exact h.waits

theorem State.Keeps.execTileCfg {c : Cl} : s.Completes (execTileCfg c t) :=
  h.issue

theorem State.Keeps.execTileLd {c : Cl} : s.Completes (execTileLd c t) :=
  h.issue

theorem State.Keeps.execTileRel {c : Cl} : s.Completes (execTileRel c t) :=
  h.issue

theorem State.Keeps.execMxLoad {c : Cl} : s.Completes (execMxLoad c t) :=
  h.issue

theorem State.Keeps.execMxRun {c : Cl} : s.Completes (execMxRun c t) :=
  h.issue

theorem State.Keeps.execMxGauge {c : Cl} : s.Completes (execMxGauge c t) :=
  h.issue

theorem State.Keeps.execVxChain {c : Cl} : s.Completes (execVxChain c t) :=
  h.issue

theorem State.Keeps.execStPost {c : Cl} : s.Completes (execStPost c t) :=
  h.issue

theorem State.Keeps.execStResume {c : Cl} : s.Completes (execStResume c t) :=
  h.issue

theorem State.Keeps.execSySig {c : Cl} : s.Completes (execSySig c t) :=
  h.issue

theorem State.Keeps.execSyWatchInstruction {c : Cl} : s.Completes (execSyWatchInstruction c t) :=
  h.issue

theorem State.Keeps.execSyWait {c : Cl} : s.Completes (execSyWait c t) :=
  h.issue

theorem State.Keeps.execSyWaitinv {c : Cl} : s.Completes (execSyWaitinv c t) :=
  h.issue

theorem State.Keeps.ownInsn {c : Cl} {e : EngOp} {f : CoreSt → Nat → Nat → Option Stall} :
    s.Completes (t.ownInsn c e f) := by
  dsimp only [State.ownInsn]
  split
  · exact h.waits
  · split
    · exact h.fillI.exception.next
    · exact h.fillI.core.retire.next

theorem State.Keeps.execFenceEng {c : Cl} : s.Completes (execFenceEng c t) :=
  h.ownInsn

theorem State.Keeps.execFenceKern {c : Cl} : s.Completes (execFenceKern c t) :=
  h.ownInsn

theorem State.Keeps.execCacheInv {c : Cl} : s.Completes (execCacheInv c t) :=
  h.ownInsn

theorem State.Keeps.unstall {c : Cl} : s.Keeps (t.unstall c) :=
  h.core.progressed.unless (·.stopCore)

theorem State.Keeps.execFenceEngComplete {c : Cl} : s.Completes (execFenceEngComplete c t) := by
  unfold Machine.execFenceEngComplete
  split
  · exact h.whenever h.unstall
  · exact h.waits

theorem State.Keeps.exitNow {c : Cl} {code : Nat} : s.Keeps (t.exitNow c code) := by
  unfold State.exitNow
  exact h.noteEnd.stopCore.core

theorem State.Keeps.execFenceKernComplete {c : Cl} : s.Completes (execFenceKernComplete c t) := by
  unfold Machine.execFenceKernComplete
  split
  · exact h.whenever h.ccFlush.unstall
  · exact h.whenever h.ccFlush.exitNow.progressed
  · exact h.waits

theorem State.Keeps.execCacheInvComplete {c : Cl} : s.Completes (execCacheInvComplete c t) := by
  unfold Machine.execCacheInvComplete
  split
  · exact h.ccInv.unstall.next
  · exact h.waits

theorem State.Keeps.ecall {c : Cl} {p : Nat → Bool} {f : State → State} (hf : ∀ u, s.Keeps u → s.Keeps (f u)) :
    s.Completes (t.ecall c p f) := by
  dsimp only [State.ecall]
  split
  · exact h.waits
  · exact (hf _ h.fillI.core.retire).next

theorem State.Keeps.noCall {c : Cl} : s.Keeps (t.noCall c) :=
  h.core

theorem State.Keeps.execEcallExit {c : Cl} : s.Completes (execEcallExit c t) :=
  h.ecall fun _ hu => hu.core

theorem State.Keeps.execEcallHandler {c : Cl} : s.Completes (execEcallHandler c t) :=
  h.ecall fun _ hu => hu.core

theorem State.Keeps.execEcallEvent {c : Cl} : s.Completes (execEcallEvent c t) :=
  h.ecall fun _ hu => hu.event

theorem State.Keeps.execEcallUnknown {c : Cl} : s.Completes (execEcallUnknown c t) :=
  h.ecall fun _ hu => hu.noCall

theorem State.Keeps.saveWords {c : Cl} {a : Nat} {vs : List Word} : s.KeepsWords (t.saveWords c a vs) := by
  induction vs generalizing t a with
  | nil => exact .ok h
  | cons v vs ih =>
    unfold State.saveWords
    have hm : s.KeepsAcc (t.memStore (.core c) c (a % 2 ^ 64) 8 v.toNat .clean true) := h.memStore
    generalize t.memStore (.core c) c (a % 2 ^ 64) 8 v.toNat .clean true = r at hm ⊢
    cases hm with
    | ok hu => exact ih hu
    | fault hu => exact .fault hu
    | page => exact .page
    | miss _ => exact .wait
    | wait => exact .wait
    | host => exact .wait

theorem State.Keeps.loadWords {c : Cl} {a n : Nat} : s.KeepsWords (t.loadWords c a n) := by
  induction n generalizing t a with
  | zero => exact .ok h
  | succ n ih =>
    unfold State.loadWords
    extract_lets go
    have hgo : ∀ v u, s.Keeps u → s.KeepsWords (go v u) := by
      intro v u hu
      unfold go
      have hw := ih hu (a := a + 8)
      generalize u.loadWords c (a + 8) n = r at hw ⊢
      cases hw with
      | ok hv => exact .ok hv
      | fault hv => exact .fault hv
      | page => exact .page
      | wait => exact .wait
    have hm : s.KeepsAcc (t.memLoad c (a % 2 ^ 64) 8 .clean true) := h.memLoad
    generalize t.memLoad c (a % 2 ^ 64) 8 .clean true = r at hm ⊢
    cases hm with
    | ok hu => exact hgo _ _ hu
    | fault hu => exact .fault hu
    | page => exact .page
    | miss _ => exact .wait
    | wait => exact .wait
    | host => exact hgo _ _ h.free

theorem State.Keeps.enterHandler {c : Cl} {n : Nat} : s.Completes (t.enterHandler c n) := by
  unfold State.enterHandler
  extract_lets k base
  refine .ite h.exception.next ?_
  have hw := h.saveWords (c := c) (a := base) (vs := k.pc :: (upFrom 1 31).map k.get)
  generalize t.saveWords c base (k.pc :: (upFrom 1 31).map k.get) = r at hw ⊢
  cases hw with
  | ok hu => exact hu.core.next
  | fault hu => exact hu.exception.next
  | page => exact h.wantPage.next
  | wait => exact h.waits

theorem State.Keeps.execInterruptEntry {c : Cl} {cause : Fin 5} : s.Completes (execInterruptEntry c cause t) :=
  .ite h.waits (.ite (.ite h.enterHandler h.waits) (.ite h.endKernel.next h.core.next))

theorem State.Keeps.execEcallHret {c : Cl} : s.Completes (execEcallHret c t) := by
  unfold Machine.execEcallHret
  refine .ite (h.ecall fun _ hu => hu.noCall) ?_
  split
  · exact h.waits
  · extract_lets u base
    have hu : s.Keeps u := h.fillI
    have hw := hu.loadWords (c := c) (a := base) (n := 32)
    generalize u.loadWords c base 32 = r at hw ⊢
    cases hw with
    | ok hv => exact (hv.core.retire.core.unless (·.endKernel)).next
    | fault hv => exact hv.exception.next
    | page => exact hu.stallPage.next
    | wait => exact hu.waits

theorem State.Keeps.useLine {c : Cl} {u : MissUse} : s.Keeps (t.useLine c u) := by
  unfold State.useLine
  split
  · split
    · exact h
    · exact .ite h (.ite h.core.exception h.wrRd)
  · split
    · exact h
    · exact .ite (.ite h h.core.exception) h.ccStore

theorem State.Keeps.useLost {c : Cl} {u : MissUse} : s.Keeps (t.useLost c u) := by
  unfold State.useLost
  refine .ite h ?_
  split
  · exact h.core.exception
  · exact h.core.exception

theorem State.Keeps.execClusterCacheMissFill {c : Cl} {line : Nat} {ecc : Ecc} :
    s.Completes (execClusterCacheMissFill c line ecc t) := by
  dsimp only [Machine.execClusterCacheMissFill]
  split
  · exact h.waits
  · split
    · exact .ite h.mod.next h.wantPage.next
    · exact (h.mod.foldl (fun _ _ hu => hu.useLost)).next
    · exact ((h.mod.shcEcc.ccFill.foldl (fun _ _ hu => hu.useLine)).unless (·.prefetch)).next

theorem State.Keeps.execCorePageInResume {c : Cl} {broughtIn : Bool} :
    s.Completes (execCorePageInResume c broughtIn t) := by
  dsimp only [Machine.execCorePageInResume]
  split
  · refine .ite ?_ h.core.exception.next
    split
    · exact h.waits
    · exact .ite h.core.coreGo h.core.stopCore.next
  · exact h.waits

theorem State.Keeps.execHostReadCompletion {c : Cl} {data : Word} {fault : Bool} :
    s.Completes (execHostReadCompletion c data fault t) := by
  dsimp only [Machine.execHostReadCompletion]
  split
  · exact .ite h.waits (.ite h.core.exception.next h.core.put.unstall.next)
  · exact h.waits

theorem State.Keeps.dbgErr : s.Keeps t.dbgErr :=
  h.dwf.frame

theorem State.Keeps.dbgCdata {wr : Option Word} : s.Keeps (t.dbgCdata wr) := by
  dsimp only [State.dbgCdata]
  split
  · exact h.dbgErr
  · split
    · refine .ite h.dbgErr ?_
      split
      · exact .ite h.frame h.dbgErr
      · exact h.dbgErr
    · exact .ite h.denied (.ite h.core h.dbgErr)

theorem State.Keeps.execMgDbgCdataAccess {wr : Option Word} : s.Completes (execMgDbgCdataAccess wr t) :=
  h.dbgCdata.next

theorem State.Keeps.dbgLoad {c : Cl} {a : Nat} : s.Keeps (t.dbgLoad c a) := by
  unfold State.dbgLoad
  have hm : s.KeepsAcc (t.memLoad c a 8 .clean true) := h.memLoad
  generalize t.memLoad c a 8 .clean true = r at hm ⊢
  cases hm with
  | ok hu => exact hu.frame
  | host => exact h.free.frame
  | fault _ => exact h.dbgErr
  | page => exact h.dbgErr
  | miss _ => exact h.dbgErr
  | wait => exact h.dbgErr

theorem State.Keeps.dbgStore {c : Cl} {a v : Nat} : s.Keeps (t.dbgStore c a v) := by
  unfold State.dbgStore
  have hm : s.KeepsAcc (t.memStore .debugPath c a 8 v .clean true) := h.memStore
  generalize t.memStore .debugPath c a 8 v .clean true = r at hm ⊢
  cases hm with
  | ok hu => exact hu
  | host => exact h.dbgErr
  | fault _ => exact h.dbgErr
  | page => exact h.dbgErr
  | miss _ => exact h.dbgErr
  | wait => exact h.dbgErr

theorem State.Keeps.dbgMdata {wr : Option Word} : s.Keeps (t.dbgMdata wr) := by
  dsimp only [State.dbgMdata]
  split
  · exact h.dbgErr
  · split
    · exact .ite h.dbgLoad h.dbgErr
    · exact .ite h.denied (.ite h.dbgStore h.dbgErr)

theorem State.Keeps.execMgDbgMdataAccess {wr : Option Word} : s.Completes (execMgDbgMdataAccess wr t) :=
  h.dbgMdata.next

theorem State.Keeps.execHangDetect {c : Cl} : s.Completes (execHangDetect c t) :=
  .ite h.waits h.mod.dinc.logErr.next

/-! #### The handshake of links and management sessions (Sys2Proof/Machine/Handshake.lean) -/

theorem State.Keeps.hsStart : s.Keeps t.hsStart.2 :=
  h.draw.draw

theorem State.Keeps.hsFailed {step : Nat} {sig : Bool} : s.Keeps (t.hsFailed step sig) := by
  unfold State.hsFailed
  exact (h.dcap.dinc.also (·.dinc)).logErr

/-! #### One port (Sys2Proof/Machine/LinkPort.lean) -/

theorem State.Keeps.sendCtl {p ctype : Nat} {data : List Byte} : s.Keeps (t.sendCtl p ctype data) := by
  unfold State.sendCtl
  exact h.modPort

theorem State.Keeps.sendNack {p seq : Nat} : s.Keeps (t.sendNack p seq) :=
  h.sendCtl.dinc.modPort

theorem State.Keeps.sendCredit {p : Nat} : s.Keeps (t.sendCredit p) := by
  unfold State.sendCredit
  exact h.sendCtl.modPort

theorem State.Keeps.sendPortstate {p n : Nat} : s.Keeps (t.sendPortstate p n) :=
  h.sendCtl

theorem State.Keeps.sendData {p : Nat} {f : Frame} : s.Keeps (t.sendData p f) :=
  h.modPort.dinc.also (·.dwf.dcap.linkEvent)

theorem State.Keeps.execDataFrameTransmit {p : Port} : s.Completes (execDataFrameTransmit p t) := by
  dsimp only [Machine.execDataFrameTransmit]
  refine .ite h.waits ?_
  split
  · split
    · exact .ite h.waits h.modPort.dinc.next
    · exact h.modPort.next
  · split
    · exact h.waits
    · exact h.modPort.sendData.next

theorem State.Keeps.execIdleTransmit {p : Port} : s.Completes (execIdleTransmit p t) :=
  h.whenever h.sendCtl

theorem State.Keeps.freePlaces {p : Nat} {vcs : List Nat} : s.Keeps (t.freePlaces p vcs) :=
  .ite h (h.modPort.also (·.sendCredit))

theorem State.Keeps.settle {p : Nat} : s.Keeps (t.settle p) :=
  h.modPort.freePlaces

theorem State.Keeps.execCreditTimer {p : Port} : s.Completes (execCreditTimer p t) := by
  unfold Machine.execCreditTimer
  split
  · exact h.whenever h.sendCredit
  · exact h.waits

theorem State.Keeps.setPort {p st : Nat} : s.Keeps (t.setPort p st) :=
  h.dwf.dwf

theorem State.Keeps.linkDown {k : Nat} : s.Keeps (t.linkDown k) :=
  h.modLink.dw

theorem State.Keeps.orphan {p : Nat} : s.Keeps (t.orphan p) :=
  .ite (h.modPort.unless (·.dinc.linkErr)) (h.modPort.modPort.modLink.foldl (fun _ _ hu => hu.sendPortstate))

theorem State.Keeps.portDown {p st : Nat} : s.Keeps (t.portDown p st) :=
  h.setPort.also (·.dwf.orphan.frame.unless (·.linkDown))

theorem State.Keeps.portEn {p : Nat} : s.Keeps (t.portEn p) :=
  h.dwf.also (·.setPort)

theorem State.Keeps.execPortEnSet {p : Port} : s.Completes (execPortEnSet p t) :=
  h.portEn.next

theorem State.Keeps.portOff {p : Nat} : s.Keeps (t.portOff p) :=
  h.dwf.portDown

theorem State.Keeps.execPortEnClear {p : Port} : s.Completes (execPortEnClear p t) :=
  h.portOff.next

theorem State.Keeps.execLaneLoss {p : Port} {lane : Fin 64} : s.Completes (execLaneLoss p lane t) :=
  .ite h.dwf.linkErr.portDown.next h.waits

theorem State.Keeps.holdPort {p cause : Nat} : s.Keeps (t.holdPort p cause) :=
  h.linkErr.linkEvent.portDown

theorem State.Keeps.sendHs {p : Nat} {m : Nat × List Byte} : s.Keeps (t.sendHs p m) :=
  h.foldl fun _ _ hu => hu.sendCtl

theorem State.Keeps.beginHs {k p : Nat} : s.Keeps (t.beginHs k p) :=
  h.hsStart.modLink.dwf.foldl fun _ _ hu => hu.sendHs

theorem State.Keeps.execPortTrainComplete {p : Port} : s.Completes (execPortTrainComplete p t) := by
  unfold Machine.execPortTrainComplete
  extract_lets p' k v s1 s2 st
  have h1 : s.Keeps s1 := h.setPort.modPort
  have h2 : s.Keeps s2 := h1.sendCtl
  exact .ite h.waits (State.Keeps.ite h2.sendPortstate (.ite h2.setPort (.ite h2.beginHs h2))).next

theorem State.Keeps.holdLink {k p chip : Nat} : s.Keeps (t.holdLink k p chip) :=
  h.dwf.dcap.logErr.foldl fun _ _ hu => hu.portDown

theorem State.Keeps.hsDone {k p : Nat} {h' : Handshake} : s.Keeps (t.hsDone k p h') :=
  .ite (h.modLink.dinc.dw.foldl (fun _ _ hu => .ite hu.setPort hu)) h.modLink.dinc.dw.holdLink

theorem State.Keeps.hsFail {k step : Nat} {sig : Bool} : s.Keeps (t.hsFail k step sig) :=
  h.hsFailed.dwf.modLink

theorem State.Keeps.unexpected {p : Nat} : s.Keeps (t.unexpected p) :=
  h.dinc

theorem State.Keeps.execHandshakeReceive {p : Port} {payload : List Byte} :
    s.Completes (execHandshakeReceive p payload t) := by
  dsimp only [Machine.execHandshakeReceive]
  refine .ite (.ite h.unexpected.next h.waits) ?_
  refine .ite h.modLink.next ?_
  split
  · exact h.hsFail.next
  · exact ((h.modLink.foldl (fun _ _ hu => hu.sendHs)).also (·.hsDone)).next

theorem State.Keeps.execHandshakeMsgTimeout {k : Fin 4} : s.Completes (execHandshakeMsgTimeout k t) :=
  h.whenever h.hsFail

theorem State.Keeps.execHandshakeRestart {k : Fin 4} : s.Completes (execHandshakeRestart k t) := by
  unfold Machine.execHandshakeRestart
  split
  · exact h.whenever h.beginHs
  · exact h.waits

theorem State.Keeps.switchKey {k slot : Nat} : s.Keeps (t.switchKey k slot) := by
  unfold State.switchKey
  exact (h.foldl (fun _ _ hu => hu.sendCtl.modPort)).dwf.modLink

theorem State.Keeps.installKey {k : Nat} {key : BitVec 256} {salt : BitVec 32} : s.Keeps (t.installKey k key salt) :=
  h.modLink.dwf.also (·.switchKey)

theorem State.Keeps.execLinkKeyInstall {k : Fin 4} {key : BitVec 256} {salt : BitVec 32} :
    s.Completes (execLinkKeyInstall k key salt t) :=
  .ite h.waits (.ite h.modLink.next h.installKey.next)

theorem State.Keeps.switchDone {k : Nat} : s.Keeps (t.switchDone k) :=
  .ite h.modLink h

theorem State.Keeps.execOldKeyErase {k : Fin 4} : s.Completes (execOldKeyErase k t) := by
  dsimp only [Machine.execOldKeyErase]
  split
  · exact h.waits
  · refine .ite h.waits ?_
    split
    · exact (h.foldl (fun _ _ hu => hu.modPort)).dwf.modLink.installKey.next
    · exact (h.foldl (fun _ _ hu => hu.modPort)).dwf.modLink.next

theorem State.Keeps.writeVcbuf {p v : Nat} : s.Keeps (t.writeVcbuf p v) :=
  .ite h.dwf h.dw

theorem State.Keeps.execVcbufWrite {p : Port} {val : Word} : s.Completes (execVcbufWrite p val t) :=
  h.writeVcbuf.next

/-! #### Received frames (Sys2Proof/Machine/Links.lean) -/

theorem State.Keeps.ackIn {p ack : Nat} : s.Keeps (t.ackIn p ack) := by
  dsimp only [State.ackIn]
  split
  · exact h
  · exact .ite h h.modPort

theorem State.Keeps.requestResend {p seq : Nat} : s.Keeps (t.requestResend p seq) :=
  .ite h (.ite h.holdPort h.modPort)

theorem State.Keeps.execResendTimeout {p : Port} : s.Completes (execResendTimeout p t) := by
  dsimp only [Machine.execResendTimeout]
  split
  · exact h.whenever h.requestResend
  · exact h.waits

theorem State.Keeps.nackOnce {p : Nat} : s.Keeps (t.nackOnce p) :=
  .ite h h.sendNack

theorem State.Keeps.execNackRepeat {p : Port} : s.Completes (execNackRepeat p t) := by
  dsimp only [Machine.execNackRepeat]
  split
  · exact h.whenever h.sendNack
  · exact h.waits

theorem State.Keeps.damaged {p : Nat} {auth : Bool} : s.Keeps (t.damaged p auth) := by
  unfold State.damaged
  extract_lets s1 k s2 n
  have h1 : s.Keeps s1 := h.dinc
  have h2 : s.Keeps s2 := h1.dinc.linkErr
  exact .ite (.ite (h2.foldl fun _ _ hu => hu.portDown).linkDown h2.modLink.nackOnce) h1.nackOnce

theorem State.Keeps.unstomp {p : Nat} {out : Option Nat} : s.Keeps (t.unstomp p out) :=
  h.foldl fun _ _ hu => .ite hu.modPort hu

theorem State.Keeps.stompOn {p : Nat} {f : Frame} : s.Keeps (t.stompOn p f) := by
  dsimp only [State.stompOn]
  refine .ite h ?_
  split
  · exact .ite h h.modPort
  · exact h

theorem State.Keeps.dropBlock {p : Nat} : s.Keeps (t.dropBlock p) :=
  h.modPort.settle

theorem State.Keeps.rxAdmit {p : Nat} {f : Frame} {lost : Bool} {whole : Option (List Byte)} :
    s.Keeps (t.rxAdmit p f lost whole) := by
  dsimp only [State.rxAdmit]
  split
  · exact h.modPort.unstomp.rvDrop.unless (·.freePlaces)
  · split
    · exact h.modPort.unstomp.modPort.settle
    · exact h.modPort.unstomp.modPort.settle

theorem State.Keeps.takeSeq {p : Nat} {f : Frame} : s.Keeps (t.takeSeq p f) :=
  h.modPort

theorem State.Keeps.malformed {p seq cause off : Nat} : s.Keeps (t.malformed p seq cause off) :=
  h.dinc.dcap.modPort.sendNack

theorem State.Keeps.takeGood {p : Nat} {b : List Byte} : s.Keeps (t.takeGood p b) := by
  unfold State.takeGood
  extract_lets f q inB rule off accept seq
  have haccept : ∀ u lost whole, s.Keeps u → s.Keeps (accept u lost whole) :=
    fun _ _ _ hu => hu.takeSeq.rxAdmit.modPort.dinc
  clear_value off
  split
  · extract_lets s1
    have h1 : s.Keeps s1 := h.dinc.takeSeq.unstomp.linkErr
    exact .ite (.ite h1 h1.freePlaces) h.malformed
  · split
    · exact haccept _ _ _ h
    · exact haccept _ _ _ h
    · exact .ite (haccept _ _ _ h.dinc).dropBlock.linkErr (haccept _ _ _ h).dropBlock.malformed

theorem State.Keeps.takeData {p : Nat} {b : List Byte} {stomped : Bool} : s.Keeps (t.takeData p b stomped) := by
  unfold State.takeData
  extract_lets f s1 q d
  have h1 : s.Keeps s1 := .ite h.dinc h.ackIn
  exact .ite h1 (.ite h1.nackOnce (.ite h1.stompOn.takeSeq.freePlaces h1.takeGood))

theorem State.Keeps.execDataFrameReceive {p : Port} {frame : List Byte} {check : FrameCheck} :
    s.Completes (execDataFrameReceive p frame check t) := by
  dsimp only [Machine.execDataFrameReceive]
  refine .ite h.waits ?_
  split
  · exact h.takeData.next
  · exact h.takeData.next
  · exact (State.Keeps.ite h.stompOn h).next

theorem State.Keeps.execFrameFecCheck {p : Port} {frame : List Byte} {check : FrameCheck}
    {corrected uncorrectable : Nat} :
    s.Completes (execFrameFecCheck p frame check corrected uncorrectable t) := by
  dsimp only [Machine.execFrameFecCheck]
  refine .ite h.waits ?_
  refine .ite h.dinc.dinc.next ?_
  split
  · exact h.dinc.dinc.takeData.next
  · exact h.dinc.dinc.takeData.next
  · exact h.dinc.dinc.damaged.next
  · exact h.dinc.dinc.damaged.next

theorem State.Keeps.forwarded {p i : Nat} : s.Keeps (t.forwarded p i) :=
  h.modPort.settle

theorem State.Keeps.execFrameForward {p : Port} : s.Completes (execFrameForward p t) := by
  dsimp only [Machine.execFrameForward]
  split
  · exact h.waits
  · split
    · exact h.waits
    · exact .ite h.waits (h.sendData.dinc.also (·.dinc.modPort)).forwarded.next

theorem State.Keeps.execForwardGoodCopy {p : Port} : s.Completes (execForwardGoodCopy p t) := by
  dsimp only [Machine.execForwardGoodCopy]
  split
  · exact h.waits
  · split
    · exact h.waits
    · exact .ite h.waits h.modPort.sendData.dinc.forwarded.next

theorem State.Keeps.control {p : Port} {ctype : Nat} {b : List Byte} {check : FrameCheck} {f : Frame → State → State}
    (hf : ∀ a u, s.Keeps u → s.Keeps (f a u)) :
    s.Completes (control p ctype b check t f) := by
  dsimp only [Machine.control]
  refine .ite h.waits ?_
  split
  · refine .ite h.waits ?_
    split
    · exact h.ackIn.dinc.dcap.next
    · exact (hf _ _ h.ackIn).next
  · exact h.damaged.next
  · exact h.damaged.next

theorem State.Keeps.execIdleReceive {p : Port} {frame : List Byte} {check : FrameCheck} :
    s.Completes (execIdleReceive p frame check t) :=
  h.control fun _ _ hu => hu

theorem State.Keeps.execNackReceive {p : Port} {frame : List Byte} {check : FrameCheck} :
    s.Completes (execNackReceive p frame check t) :=
  h.control fun _ _ hu => hu.requestResend

theorem State.Keeps.execCreditReceive {p : Port} {frame : List Byte} {check : FrameCheck} :
    s.Completes (execCreditReceive p frame check t) :=
  h.control fun _ _ hu => hu.modPort

theorem State.Keeps.execKeyswitchReceive {p : Port} {frame : List Byte} {check : FrameCheck} :
    s.Completes (execKeyswitchReceive p frame check t) :=
  h.control fun _ _ hu => .ite hu.unexpected (State.Keeps.ite hu hu.switchKey).setPort.modPort.dwf.switchDone

theorem State.Keeps.requeue {k : Nat} {f : Frame} {from_ : Nat} : s.Keeps (t.requeue k f from_) := by
  dsimp only [State.requeue]
  split
  · exact h.modPort
  · exact h.dinc.linkErr

theorem State.Keeps.reclaim {k n last : Nat} : s.Keeps (t.reclaim k n last) := by
  dsimp only [State.reclaim]
  split
  · exact h
  · exact h.modLink.foldl fun _ _ hu => hu.requeue

theorem State.Keeps.execPortstateReceive {p : Port} {frame : List Byte} {check : FrameCheck} :
    s.Completes (execPortstateReceive p frame check t) := by
  dsimp only [Machine.execPortstateReceive]
  refine h.control fun _ _ hu => .ite hu.unexpected ?_
  refine .ite (.ite hu.setPort hu.holdLink) ?_
  split
  · exact hu.unexpected
  · exact hu.reclaim

/-! #### The ring and the revolve (Sys2Proof/Machine/Ring.lean) -/

theorem State.Keeps.enterStage {n : Nat} : s.Keeps (t.enterStage n) :=
  h.dwf.dw.frame.event

theorem State.Keeps.setSession {x : Session} : s.Keeps (t.setSession x) :=
  h.frame

theorem State.Keeps.openSession {chip : Nat} : s.Keeps (t.openSession chip) :=
  h.hsStart.setSession.foldl fun _ _ hu => hu.sendMgmt

theorem State.Keeps.applyReady : s.Keeps t.applyReady :=
  .ite h (h.dwf.frame.also (·.enterStage))

theorem State.Keeps.countJoin {chip : Nat} : s.Keeps (t.countJoin chip) :=
  h.frame.also (·.broadcast.applyReady)

theorem State.Keeps.sendJoin : s.Keeps t.sendJoin :=
  .ite h h.frame.sendOp

theorem State.Keeps.sessionIn {chip : Nat} {msg : List Byte} : s.Keeps (t.sessionIn chip msg) := by
  dsimp only [State.sessionIn]
  split
  · split
    · exact h.openSession
    · exact .ite h.openSession h
  · refine .ite ?_ ?_
    · split
      · exact h.openSession
      · exact .ite h.openSession h
    · split
      · refine .setSession (.hsFailed ?_)
        split
        · exact h.openSession
        · exact .ite h.openSession h
      · refine .ite ?_ ?_
        · refine .ite ?_ ?_
          · refine .sendJoin (.dinc (.foldl (.setSession ?_) (fun _ _ hu => hu.sendMgmt)))
            split
            · exact h.openSession
            · exact .ite h.openSession h
          · refine .dinc (.foldl (.setSession ?_) (fun _ _ hu => hu.sendMgmt))
            split
            · exact h.openSession
            · exact .ite h.openSession h
        · refine .foldl (.setSession ?_) fun _ _ hu => hu.sendMgmt
          split
          · exact h.openSession
          · exact .ite h.openSession h

theorem State.Keeps.execRingFormation : s.Completes (execRingFormation t) := by
  dsimp only [Machine.execRingFormation]
  refine .ite h.waits ?_
  refine .ite (h.frame.foldl (fun _ _ hu => hu.portEn)).next ?_
  refine .ite h.waits ?_
  refine .ite (.ite h.waits h.countJoin.next) ?_
  split
  · exact h.whenever h.openSession
  · refine .ite h.waits ?_
    split
    · exact h.whenever h.openSession
    · exact h.whenever h.hsFailed.setSession

theorem State.Keeps.ringCurtain : s.Keeps t.ringCurtain :=
  h.dw.dw

theorem State.Keeps.rxTake {p : Nat} {f : Frame} : s.Keeps (t.rxTake p f) :=
  h.modPort.settle

theorem State.Keeps.routedIn {p : Port} {op : Nat} {f : Frame → State → State}
    (hf : ∀ a u, s.Keeps u → s.Keeps (f a u)) :
    s.Completes (routedIn p op t f) := by
  unfold Machine.routedIn
  split
  · exact h.waits
  · exact (hf _ _ h.rxTake).next

theorem State.Keeps.bcastIn {p : Port} {bop : Nat} {f : Frame → State → State}
    (hf : ∀ a u, s.Keeps u → s.Keeps (f a u)) :
    s.Completes (bcastIn p bop t f) := by
  unfold Machine.bcastIn
  split
  · exact h.waits
  · exact (hf _ _ h.rxTake).next

theorem State.Keeps.execJoinReceive {p : Port} : s.Completes (execJoinReceive p t) := by
  unfold Machine.execJoinReceive
  refine h.routedIn fun _ _ hu => ?_
  split
  · exact .ite hu.countJoin hu
  · exact hu

theorem State.Keeps.execReadyReceive {p : Port} : s.Completes (execReadyReceive p t) :=
  h.bcastIn fun _ _ hu => hu.applyReady

theorem State.Keeps.takeReport {rep : List Byte} : s.Keeps (t.takeReport rep) := by
  dsimp only [State.takeReport]
  split
  · exact .ite h.frame.reply h.frame.event
  · exact h.frame.unless (·.event)

theorem State.Keeps.sendReport {rep : List Byte} : s.Keeps (t.sendReport rep) :=
  .ite h.takeReport h.sendMgmt

theorem State.Keeps.revolvePass {pass : Nat} : s.Keeps (t.revolvePass pass) :=
  h.foldl fun _ _ hu => .ite hu.reply hu.modCmd

theorem State.Keeps.takeBytes {pos num poff : Nat} {data : List Byte} : s.Keeps (t.takeBytes pos num poff data) :=
  .ite h (.ite h.frame (State.Keeps.ite h.dinc h).frame)

theorem State.Keeps.judge {pos : Nat} : s.Keeps (t.judge pos) := by
  dsimp only [State.judge]
  split
  · exact h
  · exact .ite (.ite h.frame h) (State.Keeps.ite h.frame h).frame.dinc.sendReport

theorem State.Keeps.writeFill {c : Cl} {slot : Nat} {x : Strm} {y : Piece} {bs : List Byte} :
    s.Keeps (t.writeFill c slot x y bs) := by
  dsimp only [State.writeFill]
  refine .strm (.progressed (h.foldl (fun _ _ hu => ?_)))
  split
  · exact (hu.mod (fun _ _ hj => hj.spWrite.spWrite)).cinc
  · exact hu

theorem State.Keeps.execFeedDelivery {f : Fin 16} {pos : Nat} : s.Completes (execFeedDelivery f pos t) := by
  dsimp only [Machine.execFeedDelivery]
  split
  · exact h.waits
  · split
    · exact h.waits
    · split
      · exact h.waits
      · exact .ite h.waits h.writeFill.frame.next

theorem State.Keeps.injectDir {dir num : Nat} {piece : List Byte} : s.Keeps (t.injectDir dir num piece) := by
  -- Unfolded as a constant: applied, the kernel would evaluate the port's discriminant to compare the two sides.
  generalize hf : State.injectDir = f
  delta State.injectDir at hf
  subst hf
  beta_reduce
  extract_lets r _ _
  generalize t.weightPort (t.dirLink dir) t.ringPos num = o
  cases o with
  | none => exact h
  | some p => exact .ite h (h.countCmp.dinc.foldl fun _ _ hu => hu.enqueue)

theorem State.Keeps.markDir {dir : Nat} : s.Keeps (t.markDir dir) := by
  -- Unfolded as a constant: applied, the kernel would evaluate the port's discriminant to compare the two sides.
  generalize hf : State.markDir = f
  delta State.markDir at hf
  subst hf
  beta_reduce
  extract_lets r
  generalize t.weightPort (t.dirLink dir) t.ringPos t.rv.injN = o
  cases o with
  | none => exact h
  | some p => exact .ite h h.enqueue

theorem State.Keeps.noteInjected {h' : Shard} : s.Keeps (t.noteInjected h') :=
  h.modShard.frame

theorem State.Keeps.injectFault : s.Keeps t.injectFault :=
  (h.mapCls (fun _ _ hk => hk.stopInject)).frame

theorem State.Keeps.injectPiece {recd : List Byte} : s.Keeps (t.injectPiece recd) := by
  unfold State.injectPiece
  exact h.injectDir.injectDir.frame.takeBytes

theorem State.Keeps.injectDone : s.Keeps t.injectDone :=
  h.markDir.markDir.frame.foldl fun _ _ hu => hu.noteInjected

theorem State.Keeps.execWeightInjection : s.Completes (execWeightInjection t) := by
  unfold Machine.execWeightInjection
  have hf := h.whenever (c := t.rv.injEnd) h.injectFault
  exact .ite h.waits (.ite (h.whenever h.injectDone) (.ite hf (.ite h.injectFault.next (.ite hf h.injectPiece.next))))

theorem State.Keeps.learnChip {pos chip : Nat} : s.Keeps (t.learnChip pos chip) :=
  h.frame

theorem State.Keeps.execWeightFrameReceive {p : Port} : s.Completes (execWeightFrameReceive p t) := by
  dsimp only [Machine.execWeightFrameReceive]
  split
  · exact h.waits
  · exact (State.Keeps.ite h.rxTake.learnChip.takeBytes.judge h.rxTake.learnChip.dinc).next

theorem State.Keeps.takeMark {pos pieces bytes : Nat} : s.Keeps (t.takeMark pos pieces bytes) :=
  .ite h (.ite h.frame.judge.frame (h.frame.judge.unless (·.frame)))

theorem State.Keeps.execEndMarkReceive {p : Port} : s.Completes (execEndMarkReceive p t) := by
  dsimp only [Machine.execEndMarkReceive]
  split
  · exact h.waits
  · exact (State.Keeps.ite h.rxTake.learnChip.takeMark h.rxTake.learnChip.dinc).next

theorem State.Keeps.takeRepair {f : Frame} : s.Keeps (t.takeRepair f) :=
  .ite h (.ite (h.takeMark.unless (·.frame)) h.takeBytes.judge)

theorem State.Keeps.execRepairReceive {p : Port} : s.Completes (execRepairReceive p t) := by
  dsimp only [Machine.execRepairReceive]
  split
  · exact h.waits
  · exact .ite h.waits h.rxTake.takeRepair.next

theorem State.Keeps.arrive : s.Keeps t.arrive :=
  h.setDctr.sendArrive.frame

theorem State.Keeps.execLayerCurtainArrival : s.Completes (execLayerCurtainArrival t) :=
  h.whenever h.arrive

theorem State.Keeps.execLayerIntervalArrival : s.Completes (execLayerIntervalArrival t) :=
  h.whenever h.arrive

theorem State.Keeps.nextPass : s.Keeps t.nextPass :=
  (h.frame.foldl (fun _ _ hu => hu.dwf)).dwf.notePass

theorem State.Keeps.applyRelease {k g : Nat} : s.Keeps (t.applyRelease k g) :=
  .ite h (h.raiseRel.also (·.nextPass.revolvePass))

theorem State.Keeps.release {k g : Nat} : s.Keeps (t.release k g) :=
  .ite h (.ite h h.frame.broadcast.applyRelease)

theorem State.Keeps.checkCentral : s.Keeps t.checkCentral :=
  h.foldl (fun _ _ hu => .ite (hu.foldl (fun _ _ hv => hv.release)) hu)

theorem State.Keeps.execCounterChange {i : Nat} : s.Completes (execCounterChange i t) := by
  dsimp only [Machine.execCounterChange]
  split
  · exact h.waits
  · exact h.frame.applyChange.checkCentral.next

theorem State.Keeps.writeSySetv {who : Writer} {v : Nat} : s.Keeps (t.writeSySetv who v) := by
  dsimp only [State.writeSySetv]
  split
  · exact h
  · exact .ite h (.ite h.denied h.setDctr.dinc.evalCtr.checkArr.checkCentral)

theorem State.Keeps.execSySetvWrite {who : Writer} {val : Word} : s.Completes (execSySetvWrite who val t) :=
  h.writeSySetv.next

theorem State.Keeps.execReleaseReceive {p : Port} : s.Completes (execReleaseReceive p t) :=
  h.bcastIn fun _ _ hu => hu.applyRelease

theorem State.Keeps.applyAbandon {k : Nat} : s.Keeps (t.applyAbandon k) :=
  h.dwf.abandonWatches.also (·.foldl (fun _ _ hu => hu.replyAbandoned))

theorem State.Keeps.execAbandonReceive {p : Port} : s.Completes (execAbandonReceive p t) :=
  h.bcastIn fun _ _ hu => hu.applyAbandon

theorem State.Keeps.remDrop : s.Keeps t.remDrop :=
  h.dinc.logErr

theorem State.Keeps.execArriveReceive {p : Port} : s.Completes (execArriveReceive p t) :=
  h.routedIn fun _ _ hu => .ite hu.sendChange.dinc hu.remDrop

theorem State.Keeps.execSignalReceive {p : Port} : s.Completes (execSignalReceive p t) := by
  unfold Machine.execSignalReceive
  refine h.routedIn fun _ _ hu => ?_
  split
  · exact hu.remDrop
  · split
    · exact hu.remDrop
    · exact hu.sendChange

theorem State.Keeps.linkArrival {f : Frame} {a : Arrival} : s.Keeps (t.linkArrival f a) :=
  .ite h.sendArrival (.ite h.answerXfer h)

theorem State.Keeps.execWriteReceive {p : Port} : s.Completes (execWriteReceive p t) :=
  h.routedIn fun _ _ hu => hu.linkArrival

theorem State.Keeps.execAtomicReceive {p : Port} : s.Completes (execAtomicReceive p t) :=
  h.routedIn fun _ _ hu => hu.linkArrival

theorem State.Keeps.answered {chip clus xslot : Nat} {rej : Option Nat} : s.Keeps (t.answered chip clus xslot rej) :=
  h.modN

theorem State.Keeps.execRejectReceive {p : Port} : s.Completes (execRejectReceive p t) :=
  h.routedIn fun _ _ hu => hu.answered

theorem State.Keeps.execCompleteReceive {p : Port} : s.Completes (execCompleteReceive p t) :=
  h.routedIn fun _ _ hu => hu.answered

theorem State.Keeps.execRackSyncEdge : s.Completes (execRackSyncEdge t) :=
  .ite h.frame.dwf.dw.next (State.Keeps.ite h.free h).dw.next

/-! #### Launches ended early, and understudy mode (Sys2Proof/Machine/Understudy.lean) -/

theorem State.Keeps.stopKernel {c : Cl} {status : Nat} : s.Keeps (t.stopKernel c status) :=
  .ite h (h.noteEnd.stopCore.mod (fun _ _ hk => hk.clearQueues.cancelAll))

theorem State.Keeps.endLaunch {x : Nat} {k : Cmd} {why : CmdEnd} {status : Nat} :
    s.Keeps (t.endLaunch x k why status) :=
  (h.foldl (fun _ _ hu => hu.stopKernel)).modCmd

theorem State.Keeps.setOwn {own : List UsRec} : s.Keeps (t.setOwn own) :=
  h.frame.dwf

theorem State.Keeps.usDiscard : s.Keeps t.usDiscard := by
  unfold State.usDiscard
  exact h.setOwn.frame.modCx

theorem State.Keeps.usAbandon : s.Keeps t.usAbandon :=
  .ite h.usDiscard.dwf.dwf h

theorem State.Keeps.usCtxLost {x : Nat} : s.Keeps (t.usCtxLost x) :=
  .ite h.sendMgmt.usAbandon h

theorem State.Keeps.usAgree : s.Keeps t.usAgree := by
  unfold State.usAgree
  split
  · exact h
  · extract_lets s1 mine _ s2 clear s3
    have h2 : s.Keeps s2 := h.usDiscard.frame
    have h3 : s.Keeps s3 := h2.mapCls fun _ _ hk => .ite hk.frame hk
    exact .ite h (.ite h3.dwf h2.dwf.dwf.logErr)

theorem State.Keeps.usStart : s.Keeps t.usStart :=
  h.dw.sendMgmt.usAgree

theorem State.Keeps.usStop : s.Keeps t.usStop :=
  .ite h.dwf (.ite h h.sendMgmt.usDiscard.dwf)

theorem State.Keeps.writeUsCtrl {v : Nat} : s.Keeps (t.writeUsCtrl v) :=
  .ite h (.ite h.usStop.dw (h.dw.also (·.usStart)))

theorem State.Keeps.usHalt : s.Keeps t.usHalt :=
  .ite (h.foldl (fun _ _ hu => hu.endLaunch)) h

theorem State.Keeps.usCapture {r : UsRec} {kind : Nat} : s.Keeps (t.usCapture r kind) :=
  .ite h.dwf (h.dw.dw.dw.also (·.frame.sendMgmt))

theorem State.Keeps.diverge {r : UsRec} {kind : Nat} : s.Keeps (t.diverge r kind) :=
  (h.dinc.usCapture.modCx.also (·.dwf.event.logErr)).usHalt

theorem State.Keeps.usCompare {a b : UsRec} : s.Keeps (t.usCompare a b) :=
  .ite h.dinc.diverge (h.dinc.also (·.diverge))

theorem State.Keeps.usMatch {c n : Nat} : s.Keeps (State.usMatch c n t) := by
  induction n generalizing t with
  | zero => exact h
  | succ n ih =>
    unfold State.usMatch
    split
    · exact h
    · split
      · exact h
      · exact ih h.setOwn.frame.usCompare

theorem State.Keeps.usRecord {c : Cl} {r : UsRec} : s.Keeps (t.usRecord c r) :=
  h.setOwn.mod.sendMgmt.usMatch

theorem State.Keeps.usMissing {counts : List Nat} : s.Keeps (t.usMissing counts) := by
  unfold State.usMissing
  refine h.foldl fun _ _ hu => ?_
  split
  · exact hu.diverge
  · exact hu

theorem State.Keeps.usLaunchEnd {x : Nat} : s.Keeps (t.usLaunchEnd x) := by
  dsimp only [State.usLaunchEnd]
  refine .ite ?_ h
  split
  · exact h.sendMgmt.frame.usMissing
  · exact h.sendMgmt

theorem State.Keeps.usAnswer {chip c ord : Nat} : s.Keeps (t.usAnswer chip c ord) :=
  h.sendMgmt

theorem State.Keeps.usBeat {r : UsRec} {n : Nat} : s.Keeps (t.usBeat r n) :=
  .ite h h.dwf.dwf.dwf.dwf.dw

theorem State.Keeps.takeBox {tag : Nat} : s.Keeps (t.takeBox tag) :=
  h.frame

theorem State.Keeps.execUsPairingReceive {prog : BitVec 96} {l : BitVec 32} :
    s.Completes (execUsPairingReceive prog l t) :=
  .ite h.takeBox.next h.takeBox.frame.usAgree.next

theorem State.Keeps.execUsChainRecordReceive {c : Cl} {record : BitVec 128} :
    s.Completes (execUsChainRecordReceive c record t) :=
  .ite h.takeBox.next h.takeBox.frame.usMatch.next

theorem State.Keeps.execUsBeatDigestReceive {c : Cl} {ord : BitVec 32} {digests : Option (List (BitVec 32))} :
    s.Completes (execUsBeatDigestReceive c ord digests t) := by
  dsimp only [Machine.execUsBeatDigestReceive]
  split
  · exact h.takeBox.next
  · refine .ite h.takeBox.next ?_
    split
    · split
      · exact h.takeBox.frame.usBeat.next
      · exact h.takeBox.frame.next
    · exact h.takeBox.frame.next

theorem State.Keeps.execUsRecordCountsReceive {counts : List Nat} :
    s.Completes (execUsRecordCountsReceive counts t) :=
  .ite h.takeBox.next (.ite h.takeBox.usMissing.next h.takeBox.frame.next)

theorem State.Keeps.execUsEndReceive : s.Completes (execUsEndReceive t) :=
  h.takeBox.usAbandon.next

theorem State.Keeps.execUsPartnerLost : s.Completes (execUsPartnerLost t) :=
  h.usAbandon.next

theorem State.Keeps.execUsEnClear : s.Completes (execUsEnClear t) :=
  h.writeUsCtrl.next

/-! #### HBM frames, shards, paging and repair (Sys2Proof/Machine/Weights.lean) -/

theorem State.Keeps.zeroFrame {f : Nat} : s.Keeps (t.zeroFrame f) := by
  refine h.trans (.of_stores fun w => ?_)
  rw [Memory.wf_iff] at w ⊢
  obtain ⟨hh, hm, hc, hx⟩ := w
  refine ⟨amWf_amErase 0 _ _ _ hh, hm, fun c => ?_, hx⟩
  show amWf 0 ((t.breakResv _ _).cl c).sp = true
  rw [State.breakResv_sp]
  exact hc c

theorem State.Keeps.takeFrames {n : Nat} : s.Keeps (t.takeFrames n).2 :=
  h.foldl fun _ _ hu => hu.zeroFrame

theorem State.Keeps.freeFrames {x : Nat} {fs : List Nat} {held : Bool} : s.Keeps (t.freeFrames x fs held) :=
  h.frame

theorem State.Keeps.execFrameZeroComplete {frame : Nat} : s.Completes (execFrameZeroComplete frame t) :=
  h.whenever h.zeroFrame

theorem State.Keeps.dropLines {x page n : Nat} : s.Keeps (t.dropLines x page n) :=
  h.foldl fun _ _ hu => .ite hu.ccInv hu

theorem State.Keeps.mapPages {x page n bits_ : Nat} : s.Keeps (t.mapPages x page n bits_) :=
  h.takeFrames.foldl fun _ _ hu => hu.setPage

theorem State.Keeps.unmapPages {x page n : Nat} {held : Bool} : s.Keeps (t.unmapPages x page n held) :=
  (h.dropLines.foldl (fun _ _ hu => hu.setPage)).freeFrames.stopOutside

theorem State.Keeps.mapShard {h' : Shard} : s.Keeps (t.mapShard h') :=
  .ite h (h.foldl (fun _ _ hu => hu.setPage))

theorem State.Keeps.setShard {h' : Shard} {f : Shard → Shard} : s.Keeps (t.setShard h' f) :=
  h.modShard.mapShard

theorem State.Keeps.wtFail {h' : Shard} {cause : Nat} : s.Keeps (t.wtFail h' cause) :=
  h.dcap.dinc

theorem State.Keeps.dropFrames {h' : Shard} : s.Keeps (t.dropFrames h') :=
  (State.Keeps.ite h h.dropLines).freeFrames

theorem State.Keeps.shardBad {h' : Shard} {cause : Nat} : s.Keeps (t.shardBad h' cause) := by
  unfold State.shardBad
  extract_lets s1 s2 _ s3 s4 hold _ s5 s6
  have h2 : s.Keeps s2 := h.dinc.logErr.dropFrames
  have h3 : s.Keeps s3 := h2.frame
  have h4 : s.Keeps s4 := .ite h3 (h3.foldl fun _ _ hu => hu.setPage)
  have h5 : s.Keeps s5 := .ite h4.frame.sendReport h4
  have h6 : s.Keeps s6 := h2.setShard
  split
  · exact .ite h5.reply h6.reply
  · exact h6.foldl fun _ _ hu => hu.stopHalted

theorem State.Keeps.refetch {h' : Shard} {cause : Nat} : s.Keeps (t.refetch h' cause) :=
  .ite h.shardBad (.ite h.shardBad (State.Keeps.ite h h.dropLines).setShard.dinc)

theorem State.Keeps.shardIn {h' : Shard} {bs : List Byte} : s.Keeps (t.shardIn h' bs) :=
  h.shardWrite.frame.modShard.stampNext.mapShard

theorem State.Keeps.keepFly {h' : Shard} {bs : List Byte} {gen : Nat} : s.Keeps (t.keepFly h' bs gen).2 := by
  dsimp only [State.keepFly]
  split
  · exact h
  · split
    · exact h
    · exact h.frame

theorem State.Keeps.loadDone {h' : Shard} {bs : List Byte} {gen : Nat} : s.Keeps (t.loadDone h' bs gen) := by
  dsimp only [State.loadDone]
  split
  · exact .ite h.keepFly.modShard.shardIn.reply h.keepFly.modShard.shardIn.reply
  · exact h.keepFly.modShard.shardIn

theorem State.Keeps.arrivalOf {h' : Shard} {image : List Byte} : s.Keeps (t.arrivalOf h' image).1 := by
  dsimp only [State.arrivalOf]
  split
  · exact h.wtFail
  · split
    · exact h.dinc
    · exact h.dinc.wtFail

theorem State.Keeps.execWtLoadComplete {x : Ctx} {shard : BitVec 32} {image : List Byte} :
    s.Completes (execWtLoadComplete x shard image t) := by
  dsimp only [Machine.execWtLoadComplete]
  split
  · exact h.waits
  · refine .ite h.waits ?_
    split
    · exact h.arrivalOf.loadDone.next
    · exact h.arrivalOf.refetch.next

theorem State.Keeps.demote {h' : Shard} : s.Keeps (t.demote h') :=
  h.dropFrames.setShard.frame.dinc

theorem State.Keeps.demoteUntil {x : Nat} {ok : State → Bool} {n : Nat} : s.Keeps (State.demoteUntil x ok n t) := by
  induction n generalizing t with
  | zero => exact h
  | succ n ih =>
    unfold State.demoteUntil
    refine .ite h ?_
    split
    · exact ih h.demote
    · exact h

theorem State.Keeps.startPageIn {h' : Shard} {cmd : Option Nat} {pin : Bool} : s.Keeps (t.startPageIn h' cmd pin).2 :=
  .snd_ite (.snd h.demoteUntil) (.snd h.demoteUntil.takeFrames.frame.setShard)

theorem State.Keeps.execPageInRequest {i : Nat} : s.Completes (execPageInRequest i t) := by
  dsimp only [Machine.execPageInRequest]
  split
  · exact h.waits
  · split
    · exact h.frame.stopHalted.next
    · split
      · exact .ite h.waits (h.frame.startPageIn.unless (·.stopHalted)).next
      · exact h.frame.stopHalted.next
      · exact h.frame.next

theorem State.Keeps.execPageInComplete {x : Ctx} {shard : BitVec 32} {image : List Byte} :
    s.Completes (execPageInComplete x shard image t) := by
  dsimp only [Machine.execPageInComplete]
  split
  · refine .ite h.waits ?_
    split
    · exact h.frame.dinc.modShard.arrivalOf.loadDone.next
    · exact h.frame.dinc.modShard.arrivalOf.refetch.next
  · exact h.waits

theorem State.Keeps.execRefetchComplete {x : Ctx} {shard : BitVec 32} {image : List Byte} :
    s.Completes (execRefetchComplete x shard image t) := by
  dsimp only [Machine.execRefetchComplete]
  split
  · refine .ite h.waits ?_
    split
    · exact h.arrivalOf.loadDone.next
    · exact h.arrivalOf.modShard.refetch.next
  · exact h.waits

theorem State.Keeps.execShardCheckComplete : s.Completes (execShardCheckComplete t) := by
  unfold Machine.execShardCheckComplete
  -- Hidden from the kernel, which would count a shard's pages in unary when it compares two arms.
  obtain ⟨u, hu⟩ := exists_eq (a' := upFrom)
  rw [← hu]
  split
  · exact h.waits
  · extract_lets _ s1 s2 tick _ s3
    have h1 : s.Keeps s1 := h.frame
    have h2 : s.Keeps s2 := h1.dinc
    have h3 : s.Keeps s3 := h2.frame
    split
    · exact h1.next
    · extract_lets bad cause
      clear_value cause
      split
      · exact h3.modShard.next
      · extract_lets s4 _ s5
        have h4 : s.Keeps s4 := h2.wtFail
        have h5 : s.Keeps s5 := h4.also fun _ => h4.frame.sendReport
        exact h5.refetch.next

theorem State.Keeps.execIdleScrubCheck : s.Completes (execIdleScrubCheck t) := by
  dsimp only [Machine.execIdleScrubCheck]
  split
  · exact h.waits
  · exact .ite h.modShard.frame.next h.waits

theorem State.Keeps.execShardReportReceive {report : BitVec 128} : s.Completes (execShardReportReceive report t) :=
  h.whenever h.takeReport

theorem State.Keeps.askRepair {pos : Nat} : s.Keeps (t.askRepair pos) := by
  dsimp only [State.askRepair]
  split
  · exact h.frame.dinc.sendMgmt
  · exact h.frame.dinc

theorem State.Keeps.execRepairWaitExpiry {pos : Nat} : s.Completes (execRepairWaitExpiry pos t) := by
  unfold Machine.execRepairWaitExpiry
  refine .ite h.waits ?_
  split
  · exact h.whenever h.askRepair
  · exact h.whenever h.askRepair

theorem State.Keeps.giveUp {pos : Nat} : s.Keeps (t.giveUp pos) :=
  h.frame.dcap.logErr.sendReport

theorem State.Keeps.execShardGiveUp {pos : Nat} : s.Completes (execShardGiveUp pos t) :=
  .ite h.waits (h.whenever h.giveUp)

theorem State.Keeps.resendSlice {chip : Nat} : s.Keeps (t.resendSlice chip) :=
  (h.foldl (fun _ _ hu => hu.foldl (fun _ _ hv => hv.sendOp))).sendOp.dinc

theorem State.Keeps.execRepairRequestReceive {chip : BitVec 12} {slice : Byte} {pass : BitVec 16} :
    s.Completes (execRepairRequestReceive chip slice pass t) :=
  h.whenever h.resendSlice

theorem State.Keeps.swap {h' old : Shard} : s.Keeps (t.swap h' old) :=
  (h.dropLines.freeFrames.frame.setShard.foldl (fun _ _ hu => hu.setPage)).dinc

theorem State.Keeps.execReplacementSwap {x : Ctx} {shard : BitVec 32} :
    s.Completes (execReplacementSwap x shard t) := by
  unfold Machine.execReplacementSwap
  split
  · exact h.waits
  · exact h.whenever h.swap

theorem State.Keeps.execStandaloneSwap {x : Ctx} {shard : BitVec 32} :
    s.Completes (execStandaloneSwap x shard t) := by
  unfold Machine.execStandaloneSwap
  split
  · exact h.waits
  · exact h.whenever h.swap

theorem State.Keeps.quotaEvent {x : Nat} {done : Bool} : s.Keeps (t.quotaEvent x done) :=
  h.event

theorem State.Keeps.reclaimEnd {x : Nat} : s.Keeps (t.reclaimEnd x) :=
  .ite h.modCx.quotaEvent h.quotaEvent

theorem State.Keeps.execQuotaReclaim {x : Ctx} : s.Completes (execQuotaReclaim x t) :=
  .ite h.waits ((h.foldl (fun _ _ hu => hu.reclaimCluster)).unless (·.maintain)).demoteUntil.reclaimEnd.next

theorem State.Keeps.execScratchpadReclaim {x : Ctx} {c : Cl} : s.Completes (execScratchpadReclaim x c t) :=
  h.whenever h.reclaimCluster

/-! #### The device registers (Sys2Proof/Machine/RegOps.lean) -/

theorem State.Keeps.devRead {a : Nat} : s.Keeps (t.devRead a).2 := by
  unfold State.devRead
  split
  · exact h.clRead
  · exact .snd_ite (.snd h.dbgCdata) (.snd_ite (.snd h.dbgMdata) h)

theorem State.Keeps.devPlain {a v : Nat} : s.Keeps (t.devPlain a v) := by
  dsimp only [State.devPlain]
  split
  · exact h
  · exact h.dw

theorem State.Keeps.writeUsDiv {v : Nat} : s.Keeps (t.writeUsDiv v) :=
  h.devPlain.also (·.dw.dw.dw)

theorem State.Keeps.cxEnable {x : Nat} : s.Keeps (t.cxEnable x) := by
  unfold State.cxEnable
  exact h.dwf.dwf.dw.modCx

theorem State.Keeps.writeCxCtrl {x v : Nat} : s.Keeps (t.writeCxCtrl x v) :=
  h.devPlain.also (·.cxEnable)

theorem State.Keeps.writeCxRing {x r v : Nat} : s.Keeps (t.writeCxRing x r v) :=
  h.devPlain

theorem State.Keeps.cxRestart {x : Nat} : s.Keeps (t.cxRestart x) :=
  h.dw.modCx

theorem State.Keeps.closeDebug : s.Keeps t.closeDebug :=
  .ite h (h.dwf.foldl (fun _ _ hu => hu.clearHalt.dw)).dw.logErr

theorem State.Keeps.clearLog : s.Keeps t.clearLog :=
  h.frame

theorem State.Keeps.kick : s.Keeps t.kick :=
  h.frame

theorem State.Keeps.dbgWrite {a v : Nat} : s.Keeps (t.dbgWrite a v) :=
  .ite h.devPlain h.denied

theorem State.Keeps.writePortCtrl {p v : Nat} : s.Keeps (t.writePortCtrl p v) :=
  .ite h.devPlain (.ite h.devPlain.portEn h.devPlain.portOff)

theorem State.Keeps.writeRow {a v : Nat} : s.Keeps (t.writeRow a v) := by
  unfold State.writeRow
  split
  · exact h.writeDevPair
  · exact h.writeVmap
  · exact h.writeCurCfg
  · exact h.writePortCtrl
  · split
    · exact h.writeVcbuf
    · exact h.writeCxCtrl
    · exact h.writeCxRing
    · exact h.writeCxRing
    · split
      · exact .ite h.cxRestart h
      · exact h.dbgWrite
      · exact h.devPlain

theorem State.Keeps.writeCsel {v : Nat} : s.Keeps (t.writeCsel v) :=
  h.devPlain.also (·.modN)

theorem State.Keeps.devWriteOut {who : Writer} {a v : Nat} : s.Keeps (t.devWriteOut who a v) := by
  have h1 : s.Keeps (t.devPlain a v) := h.devPlain
  refine .ite h.writeMaint (.ite h.writeSySetv (.ite h.writeUsCtrl (.ite h.writeUsDiv ?_)))
  refine .ite (h1.also (·.kick)) (.ite (h1.also (·.clearLog)) (.ite (h1.also (·.closeDebug)) ?_))
  exact .ite h.dbgWrite (.ite h.writeCsel (.ite h.dbgCdata (.ite h.dbgMdata h.writeRow)))

theorem State.Keeps.devWrite {who : Writer} {a v : Nat} : s.Keeps (t.devWrite who a v) := by
  unfold State.devWrite
  split
  · exact h.clWrite
  · exact h.devWriteOut

theorem State.Keeps.execRegisterWrite {who : Writer} {addr : Nat} {val : Word} :
    s.Completes (execRegisterWrite who addr val t) := by
  dsimp only [Machine.execRegisterWrite]
  split
  · exact h.devWrite.next
  · exact .ite h.denied.next (.ite h.next h.devWrite.next)
  · split
    · exact .ite h.clWrite.next h.next
    · exact h.next

theorem State.Keeps.execMgCxEnSet {x : Ctx} {val : Word} : s.Completes (execMgCxEnSet x val t) :=
  h.writeCxCtrl.next

theorem State.Keeps.execMgCxEnClear {x : Ctx} {val : Word} : s.Completes (execMgCxEnClear x val t) :=
  h.writeCxCtrl.next

theorem State.Keeps.execIntakeRestart {x : Ctx} : s.Completes (execIntakeRestart x t) :=
  h.cxRestart.next

theorem State.Keeps.execDebugClose : s.Completes (execDebugClose t) :=
  h.closeDebug.next

theorem State.Keeps.execFreezeWrite {on : Bool} : s.Completes (execFreezeWrite on t) :=
  h.dwf.next

theorem State.Keeps.execMgElClr : s.Completes (execMgElClr t) :=
  h.clearLog.next

theorem State.Keeps.execWdogKick {val : Word} : s.Completes (execWdogKick val t) :=
  h.devPlain.kick.next

/-! #### Run blocks and playbills (Sys2Proof/Machine/Playbill.lean) -/

theorem State.Keeps.fwWrite {x a : Nat} {bs : List Byte} : s.Keeps (t.fwWrite x a bs) := by
  unfold State.fwWrite
  split
  · refine h.foldl fun _ _ hu => ?_
    split
    · exact hu.hbmWrite
    · exact hu
  · exact h.modN fun _ _ hk => hk.spWrite
  · exact h.hostWrite
  · exact h

theorem State.Keeps.writeBills {x : Nat} {k : Cmd} {incomplete : Bool} : s.Keeps (t.writeBills x k incomplete) :=
  .ite (h.foldl (fun _ _ hu => hu.fwWrite.dinc)) h

theorem State.Keeps.abandonCmd {x : Nat} {k : Cmd} : s.Keeps (t.abandonCmd x k) :=
  .ite h.writeBills.reply h.replyAbandoned

/-! #### What resets wipe (Sys2Proof/Machine/Resets.lean) -/

theorem State.Keeps.dropWatches {c : Cl} : s.Keeps (t.dropWatches c) :=
  h.frame

theorem State.Keeps.dropInject {c : Cl} : s.Keeps (t.dropInject c) :=
  .ite h.injectEnd h

theorem State.Keeps.beforeWipe {c : Cl} : s.Keeps (t.beforeWipe c) :=
  h.ccFlush.abandonLocal.dropWatches.dropInject.clearDebug

theorem State.Keeps.wipeCluster {c : Cl} : s.Keeps (t.wipeCluster c) :=
  h.beforeWipe.mod fun _ _ _ => .of_sp_nil

theorem State.Keeps.passCluster {c : Cl} {x : Nat} : s.Keeps (t.passCluster c x) :=
  h.beforeWipe.mod fun _ _ _ => .of_sp_nil

theorem State.Keeps.replyResets {kind obj : Nat} : s.Keeps (t.replyResets kind obj) :=
  h.foldl (fun _ _ hu => hu.foldl (fun _ _ hv => hv.reply))

theorem State.Keeps.resetCluster {c : Cl} {status : Nat} : s.Keeps (t.resetCluster c status) :=
  .ite h (h.noteEnd.stopCore.mod (fun _ _ hk => hk.clearQueues.cancelAll.frame)).dinc

theorem State.Keeps.execClusterWipeComplete {c : Cl} : s.Completes (execClusterWipeComplete c t) :=
  h.whenever h.wipeCluster.replyResets

theorem State.Keeps.resetPort {p : Nat} : s.Keeps (t.resetPort p) :=
  (h.portDown.also (·.linkDown)).frame.dwf.modPort.dinc

theorem State.Keeps.execLinkResetOffExpiry {p : Port} : s.Completes (execLinkResetOffExpiry p t) := by
  dsimp only [Machine.execLinkResetOffExpiry]
  split
  · exact h.waits
  · exact .ite h.waits (h.modPort.also (·.portEn)).replyResets.next

theorem State.Keeps.portsOff : s.Keeps t.portsOff :=
  h.foldl fun _ _ hu => hu.portDown

theorem State.Keeps.abandonCurtain {k : Nat} : s.Keeps (t.abandonCurtain k) :=
  (State.Keeps.ite h.broadcast h).applyAbandon

theorem State.Keeps.wipeSync {x : Nat} : s.Keeps (t.wipeSync x) :=
  (h.abandonWatches.foldl (fun _ _ hu => hu.abandonCurtain)).frame

theorem State.Keeps.wipeMemory {x : Nat} {held : Bool} : s.Keeps (t.wipeMemory x held) :=
  h.freeFrames.frame

theorem State.Keeps.wipeClusters {x : Nat} : s.Keeps (t.wipeClusters x) :=
  h.foldl (fun _ _ hu => (hu.wipeCluster.mod (fun _ _ hj => hj.frame)).replyResets)

theorem State.Keeps.resetCxPage {x : Nat} : s.Keeps (t.resetCxPage x) :=
  h.frame

theorem State.Keeps.resetUs {x : Nat} : s.Keeps (t.resetUs x) :=
  .ite h.usCtxLost.frame h

theorem State.Keeps.flrCtx {x : Nat} : s.Keeps (t.flrCtx x) := by
  unfold State.flrCtx
  extract_lets s1 s2 _ _ s3 s4 s5 s6 s7 _
  have h1 : s.Keeps s1 := h.modCx fun _ => .of_saved_nil
  have h2 : s.Keeps s2 := h1.resetCxPage
  have h3 : s.Keeps s3 := h2.frame
  have h7 : s.Keeps s7 := h3.resetUs.wipeClusters.wipeSync.wipeMemory
  exact h7.frame.dinc

theorem State.Keeps.resetFn {fn : Nat} : s.Keeps (t.resetFn fn) :=
  h.frame

theorem State.Keeps.dropVfs : s.Keeps t.dropVfs :=
  h.frame.foldl fun _ _ hu => hu.flrCtx.resetFn

theorem State.Keeps.flr {fn : Nat} : s.Keeps (t.flr fn) :=
  .ite h.dropVfs.flrCtx.resetFn.frame h.flrCtx.resetFn

theorem State.Keeps.execPcieFlr {fn : Fn} : s.Completes (execPcieFlr fn t) :=
  h.whenever h.flr

theorem State.Keeps.execFlrZeroingComplete {x : Ctx} : s.Completes (execFlrZeroingComplete x t) :=
  .ite (h.foldl (fun _ _ hu => hu.zeroFrame)).frame.next h.waits

/-! #### Starting up and fatal errors (Sys2Proof/Machine/Startup.lean) -/

theorem State.Keeps.scErr {source step off : Nat} : s.Keeps (t.scErr source step off) :=
  h.dcap

theorem State.Keeps.startFail {code unit cls : Nat} : s.Keeps (t.startFail code unit cls) :=
  (State.Keeps.ite (State.Keeps.ite h h.dwf).frame (.ite h h.dwf)).event.logErr

theorem State.Keeps.newFlashKey : s.Keeps t.newFlashKey :=
  h.draw.draw.frame

theorem State.Keeps.bootSlot {n : Nat} {fromPend : Bool} : s.Keeps (t.bootSlot n fromPend) :=
  h.frame.dw

theorem State.Keeps.bootRom {pick : Option (Option BootPick)} : s.Keeps (t.bootRom pick) := by
  unfold State.bootRom
  extract_lets s1 fails noteFail usePend other first _ s2
  have h1 : s.Keeps s1 := .ite h h.newFlashKey
  have h2 : s.Keeps s2 := h1.frame (hs := by split <;> exact ⟨rfl, rfl, rfl, rfl⟩)
  have hnote : ∀ u f, s.Keeps u → s.Keeps (noteFail u f) := fun _ _ hu => hu.free.scErr
  split
  · exact h2.bootSlot
  · extract_lets s3 _ s4
    have h3 : s.Keeps s3 := hnote _ _ h2
    have h4 : s.Keeps s4 := h3.also fun _ => h3.frame.dwf
    split
    · exact h4.bootSlot
    · exact (hnote _ _ h4).startFail

theorem State.Keeps.setCtxAtStart : s.Keeps { t with ctx := ctxAtStart } := by
  have hc : ∀ x ∈ ctxAtStart.toList, ∀ p ∈ x.saved, amWf 0 p.2.sp = true := by decide
  refine h.trans (.of_stores fun w => ?_)
  rw [Memory.wf_iff] at w ⊢
  obtain ⟨hh, hm, hk, -⟩ := w
  exact ⟨hh, hm, hk, hc⟩

theorem State.Keeps.wiped {keep : Nat → Bool} : s.Keeps (t.wiped keep) := by
  refine h.trans ⟨fun w => ?_, rfl, rfl, rfl, Nat.le_refl _, fun _ => id⟩
  rw [Memory.wf_iff] at w ⊢
  obtain ⟨-, hm, -, -⟩ := w
  obtain ⟨hh, -, hc, hx⟩ := (Memory.wf_iff _).mp Memory.wf_reset
  exact ⟨hh, hm, hc, hx⟩

theorem State.Keeps.sampleStraps : s.Keeps t.sampleStraps :=
  h.dw.dwf.dwf

theorem State.Keeps.begin0 {cause : Nat} {pick : Option (Option BootPick)} : s.Keeps (t.begin0 cause pick) := by
  unfold State.begin0
  extract_lets s1 n _ _ s2 clock s3
  have h1 : s.Keeps s1 := h.sampleStraps.dwf.dwf
  have hn : s.Keeps n.2 := h1.draw
  clear_value n
  have h2 : s.Keeps s2 := hn.setCtxAtStart.frame
  have h3 : s.Keeps s3 := h2.mapCls
  exact h3.enterStage.bootRom

theorem State.Keeps.relockAll : s.Keeps t.relockAll :=
  .ite h h.frame.dw

theorem State.Keeps.warmReset {cause : Nat} : s.Keeps (t.warmReset cause) := by
  unfold State.warmReset
  exact h.closeDebug.relockAll.dinc.wiped.begin0

theorem State.Keeps.powerOn {cause : Nat} {pick : Option (Option BootPick)} : s.Keeps (t.powerOn cause pick) :=
  h.frame.wiped.frame.dw.begin0

theorem State.Keeps.powerOff : s.Keeps t.powerOff :=
  h.frame.wiped.frame

theorem State.Keeps.standbyOff : s.Keeps t.standbyOff :=
  h.frame

theorem State.Keeps.execPowerGood {straps : BitVec 5} {fwVerifies : Option BootPick} :
    s.Completes (execPowerGood straps fwVerifies t) :=
  .ite h.waits h.frame.powerOn.next

theorem State.Keeps.execInputLoss {standbyLost : Bool} : s.Completes (execInputLoss standbyLost t) :=
  (h.powerOff.frame.also (·.standbyOff)).next

theorem State.Keeps.execPllLock : s.Completes (execPllLock t) :=
  .ite h.frame.dwf.dw.next h.waits

theorem State.Keeps.tryStage2 : s.Keeps t.tryStage2 :=
  .ite (h.enterStage.also (·.enterStage)) h

theorem State.Keeps.commitFw : s.Keeps t.commitFw := by
  have hb : ∀ w n, bit w n = w.testBit n := fun w n => by
    simp [bit, Nat.testBit_eq_decide_div_mod_eq, beq_eq_decide]
  unfold State.commitFw
  split
  · refine h.trans ⟨id, rfl, rfl, rfl, Nat.le_max_left _ _, fun n hn => ?_⟩
    rw [hb] at hn ⊢
    exact (Nat.testBit_lor _ _ n).trans (by rw [hn]; rfl)
  · exact h

theorem State.Keeps.execStage1Enter : s.Completes (execStage1Enter t) :=
  .ite (h.commitFw.enterStage.dwf.kick.unless (·.foldl (fun _ _ hu => hu.dwf))).next h.waits

theorem State.Keeps.execHbmTrainingComplete {st : Stk} {ok : Bool} : s.Completes (execHbmTrainingComplete st ok t) :=
  .ite h.waits (.ite (h.dwf.also (·.frame)).next (h.frame.unless (·.dwf.startFail)).next)

theorem State.Keeps.execHbmWipeComplete : s.Completes (execHbmWipeComplete t) := by
  refine .ite (State.Keeps.next ?_) h.waits
  refine (h.trans (.of_stores fun w => ?_) : s.Keeps _).tryStage2
  rw [Memory.wf_iff] at w ⊢
  obtain ⟨-, hm, hc, hx⟩ := w
  exact ⟨rfl, hm, hc, hx⟩

theorem State.Keeps.execFliesMountComplete {ok : Bool} : s.Completes (execFliesMountComplete ok t) :=
  .ite h.waits (.ite h.frame.tryStage2.next (h.frame.unless (·.startFail)).next)

theorem State.Keeps.execStageDeadlineExpiry {n : Fin 4} : s.Completes (execStageDeadlineExpiry n t) :=
  .ite (h.frame.also (·.dwf)).startFail.next h.waits

theorem State.Keeps.execWatchdogExpiry : s.Completes (execWatchdogExpiry t) :=
  h.whenever h.warmReset

theorem State.Keeps.perstRing : s.Keeps t.perstRing :=
  (State.Keeps.ite h.dinc (h.foldl (fun _ _ hu => hu.flrCtx))).frame.dw

theorem State.Keeps.execPerstFall : s.Completes (execPerstFall t) :=
  .ite h.waits (State.Keeps.ite (.ite h.frame.warmReset h.frame.perstRing) h.frame).next

theorem State.Keeps.execPerstRise : s.Completes (execPerstRise t) :=
  .ite h.waits h.frame.next

theorem State.Keeps.fatalError {e : ErrRec} : s.Keeps (t.fatalError e) := by
  unfold State.fatalError
  extract_lets s1 _ _ s2 s3 s4 s5 _ s6
  have h1 : s.Keeps s1 := h.logErr
  have h2 : s.Keeps s2 := h1.frame
  have h3 : s.Keeps s3 := h2.portsOff
  have h4 : s.Keeps s4 := h3.foldl fun _ _ hu => .ite hu.applyAbandon hu
  have h5 : s.Keeps s5 := h4.foldl fun _ _ hu => hu.stopKernel
  have h6 : s.Keeps s6 := h5.frame
  exact h6.foldl fun _ _ hu => hu.foldl fun _ _ hv => hv.writeBills.reply

/-! #### The vector engine (Sys2Proof/Machine/VectorUnit.lean) -/

theorem State.Keeps.vxm {c : Cl} {f : Vx → Vx} : s.Keeps (t.vxm c f) :=
  h.mod

theorem State.Keeps.vxEcc {c : Cl} {e : Ecc} {blocks : List Nat} : s.Keeps (t.vxEcc c e blocks) := by
  dsimp only [State.vxEcc]
  split
  · exact h
  · exact .ite h.spEcc (.ite h.tileEcc h.accEcc)
  · exact .ite h.spEcc (.ite h.tileEcc h.accEcc)

theorem State.Keeps.execVxBeat {c : Cl} {ecc : Ecc} : s.Completes (execVxBeat c ecc t) := by
  unfold Machine.execVxBeat
  extract_lets k lost
  split
  · exact h.waits
  · extract_lets d k1 x1 ps acc s1 k2 bad tl f s2 k' ue _ s3 s4 s5
    have hk1 : k.Keeps k1 := .ite (.refl _) (Cluster.Keeps.refl _).loadTables
    have h1 : s.Keeps s1 := (h.mod_cl hk1.frame).vxEcc
    have h2 : s.Keeps s2 := .ite h1.free h1
    have hcl : s2.cl c = k2 := by unfold s2 f; split <;> rfl
    have hk' : (s2.cl c).Keeps k' := hcl ▸ (Cluster.Keeps.refl k2).beat
    have h3 : s.Keeps s3 := h2.mod_cl hk'.frame
    have h5 : s.Keeps s5 := h3.cinc.cinc.spEncounters
    exact .ite h.waits (.ite h1.vxm.next (h5.foldl fun _ _ hu => hu.tileUe).next)

/-! #### Vector chains (Sys2Proof/Machine/VectorChain.lean) -/

theorem State.Keeps.acceptChain {c : Cl} {q : QInsn} {d : List Byte} : s.Keeps (t.acceptChain c q d) := by
  unfold State.acceptChain
  exact (h.acceptHead.mod (fun _ _ hk => hk.popChain)).vxm

theorem State.Keeps.execVxChainAccept {c : Cl} : s.Completes (execVxChainAccept c t) := by
  dsimp only [Machine.execVxChainAccept]
  split
  · exact h.waits
  · refine .ite h.waits ?_
    split
    · exact h.faultHead.next
    · exact h.acceptChain.next

theorem State.Keeps.endChain {c : Cl} {x : Chain} : s.Keeps (t.endChain c x) := by
  dsimp only [State.endChain]
  split
  · exact (h.progressed.vxm.cinc.cinc.cinc.also (·.irq)).engInc
  · exact h.progressed.vxm.cinc.cinc.cinc.also (·.irq)

theorem State.Keeps.execVxChainComplete {c : Cl} : s.Completes (execVxChainComplete c t) := by
  dsimp only [Machine.execVxChainComplete]
  split
  · exact h.waits
  · exact .ite h.waits ((h.foldl (fun _ _ hu => hu.pushQ)).endChain.also (·.usRecord)).next

/-! #### A cluster's steps (Sys2Proof/Machine/ClusterStep.lean) -/

theorem State.Keeps.execMxRunAccept {c : Cl} {parityError : Bool} : s.Completes (execMxRunAccept c parityError t) :=
  .ite (.ite h.waits h.logErr.resetCluster.next) h.mxRunAccept

theorem State.Keeps.countStep {c : Cl} : s.Keeps (t.countStep c) :=
  h.cinc.cinc.cinc.cinc.cinc.cinc.cinc.cinc.dinc

theorem State.Keeps.vectorStep {c : Cl} : s.Keeps (t.vectorStep c) :=
  h.mod

theorem State.Keeps.execArrayPipelineStep {c : Cl} {slip : Option Slip} {ecc : Ecc} :
    s.Completes (execArrayPipelineStep c slip ecc t) :=
  .ite (h.countStep.arrayStep.vectorStep.foldl (fun _ _ hu => hu.strmStep)).mod.next h.waits

/-! #### The intake of packets (Sys2Proof/Machine/Intake.lean) -/

theorem State.Keeps.opcodeRow {x : Ctx} {op : Nat} {zero : Cmd → Bool} {bad : Cmd → List (Bool × Nat)}
    {f none_ : Cmd → State → State} (hf : ∀ k u, s.Keeps u → s.Keeps (f k u))
    (hnone : ∀ k u, s.Keeps u → s.Keeps (none_ k u) := by exact fun _ _ hu => hu.reply) :
    s.Completes (opcodeRow x op t zero bad f none_) := by
  refine h.command fun _ _ hu => ?_
  split
  · exact hu.replyMal
  · exact .ite (hnone _ _ hu) (hf _ _ hu)

theorem State.Keeps.takePkt {x seq : Nat} {p : List Byte} {origin : Option (Nat × Nat)} :
    s.Keeps (t.takePkt x seq p origin) := by
  dsimp only [State.takePkt]
  split
  · exact h.dinc.answer
  · exact h.dinc.modCx

theorem State.Keeps.pastPkt {x len : Nat} : s.Keeps (t.pastPkt x len) := by
  unfold State.pastPkt
  exact h.dw.modCx

theorem State.Keeps.execPacketIntake {x : Ctx} : s.Completes (execPacketIntake x t) := by
  dsimp only [Machine.execPacketIntake]
  split
  · exact h.waits
  · exact .ite h.answer.dwf.next h.waits
  · exact .ite (.ite h.takePkt.pastPkt.next h.waits) (.ite h.waits h.modCx.next)

theorem State.Keeps.execIntakeSealTimeout {x : Ctx} : s.Completes (execIntakeSealTimeout x t) := by
  dsimp only [Machine.execIntakeSealTimeout]
  split
  · exact .ite h.waits h.answer.pastPkt.next
  · exact h.waits

theorem State.Keeps.execMsixCoalesceExpiry {x : Ctx} {vec : Fin 64} :
    s.Completes (execMsixCoalesceExpiry x vec t) := by
  dsimp only [Machine.execMsixCoalesceExpiry]
  split
  · exact h.waits
  · exact .ite h.waits (h.modCx.also (·.msix)).next

theorem State.Keeps.takeRelay {mgr : Nat} {msg : List Byte} : s.Keeps (t.takeRelay mgr msg) := by
  dsimp only [State.takeRelay]
  split
  · exact h
  · exact .ite h.answer (.ite h.answer h.modCx.takePkt)

theorem State.Keeps.takeAnswer {chip : Nat} {msg : List Byte} : s.Keeps (t.takeAnswer chip msg) := by
  dsimp only [State.takeAnswer]
  split
  · exact h
  · split
    · exact h.frame
    · exact h.frame.dropCmd.unless (·.writeReply)

theorem State.Keeps.mgmtMsg {chip : Nat} {msg : List Byte} : s.Keeps (t.mgmtMsg chip msg) :=
  .ite h.takeRelay (.ite h.takeAnswer (.ite h.sessionIn (.ite h.usAnswer h.frame)))

theorem State.Keeps.execMgmtReceive {p : Port} : s.Completes (execMgmtReceive p t) :=
  h.routedIn fun _ _ hu => .ite hu.frame.mgmtMsg hu.frame

theorem State.Keeps.execRelayTimeout {id : Nat} : s.Completes (execRelayTimeout id t) := by
  dsimp only [Machine.execRelayTimeout]
  split
  · exact h.waits
  · split
    · exact h.frame.next
    · exact h.frame.reply.next

/-! #### Context commands (Sys2Proof/Machine/ContextCmds.lean) -/

theorem State.Keeps.assign : s.Keeps t.assign :=
  h.foldl fun _ _ hu => .ite hu.passCluster hu

theorem State.Keeps.settleQuota {x : Nat} : s.Keeps (t.settleQuota x) :=
  .ite h h.modCx.quotaEvent

theorem State.Keeps.execCtxQuery {x : Ctx} : s.Completes (execCtxQuery x t) :=
  h.opcodeRow fun _ _ hu => .ite hu.reply hu.reply

theorem State.Keeps.execCtxEnable {x : Ctx} : s.Completes (execCtxEnable x t) :=
  h.opcodeRow fun _ _ hu => .ite hu.reply (.ite hu.reply hu.modCx.assign.reply)

theorem State.Keeps.execQuotaSet {x : Ctx} : s.Completes (execQuotaSet x t) :=
  h.opcodeRow fun _ _ hu => .ite hu.reply hu.modCx.assign.settleQuota.reply

theorem State.Keeps.mapDests {f : CueDest → CueDest} : s.Keeps (t.mapDests f) :=
  h.frame

theorem State.Keeps.unbind {x : Nat} : s.Keeps (t.unbind x) :=
  h.foldl fun _ _ hu => .ite hu.dw hu

theorem State.Keeps.disable {t' : Nat} : s.Keeps (t.disable t') := by
  unfold State.disable
  extract_lets s1 _ s2 s3 s4 fs s5 s6
  have h1 : s.Keeps s1 := h.usCtxLost.foldl fun _ _ hu => hu.abandonCmd
  have h2 : s.Keeps s2 := h1.frame
  have h3 : s.Keeps s3 := h2.foldl fun _ _ hu => hu.passCluster.replyResets
  have h4 : s.Keeps s4 := h3.wipeSync
  have h5 : s.Keeps s5 := h4.wipeMemory
  have h6 : s.Keeps s6 := h5.foldl fun _ _ hu => hu.zeroFrame
  exact h6.unbind.modCx fun _ => .of_saved_nil

theorem State.Keeps.execCtxDisable {x : Ctx} : s.Completes (execCtxDisable x t) :=
  h.opcodeRow fun _ _ hu => hu.disable.assign.reply

theorem State.Keeps.tellPreempted {t' : Nat} : s.Keeps (t.tellPreempted t') :=
  (h.abandonWatches.foldl (fun _ _ hu => .ite hu.abandonCurtain hu)).usCtxLost

theorem State.Keeps.execCtxPreempt {x : Ctx} : s.Completes (execCtxPreempt x t) := by
  refine h.opcodeRow fun k u hu => ?_
  extract_lets t' s1 cs s2
  have h1 : s.Keeps s1 := hu.tellPreempted
  have h2 : s.Keeps s2 := h1.modCx_of_wf fun w _ => ⟨fun _ p hp => by
    obtain ⟨c, -, rfl⟩ := List.mem_map.mp hp
    exact Memory.wf_cl w c⟩
  exact .ite hu.reply (h2.foldl fun _ _ hv => hv.mod fun _ _ hk => hk.hold)

theorem State.Keeps.out {c : Cl} : s.Keeps (t.out c) := by
  unfold State.out
  exact h.ccFlush.dropInject.clearDebug.mod fun _ _ _ => .of_sp_nil

theorem State.Keeps.savedBytes {t' : Nat} : s.Keeps (t.savedBytes t').2 :=
  h.free

theorem State.Keeps.execCtxPreemptComplete {x : Ctx} : s.Completes (execCtxPreemptComplete x t) := by
  unfold Machine.execCtxPreemptComplete
  extract_lets x' cs local_ s1 before s2 n s3 s4 s5
  have h1 : s.Keeps s1 := h.foldl fun _ _ hu => hu.ccFlush
  have h2 : s.Keeps s2 := h1.modCx fun _ => ⟨fun _ p hp => by
    obtain ⟨c, -, rfl⟩ := List.mem_map.mp hp
    exact Cluster.save_sp_wf⟩
  have h3 : s.Keeps s3 := h2.savedBytes
  have h5 : s.Keeps s5 := h3.mapDests.foldl fun _ _ hu => hu.out
  split
  · exact h.waits
  · exact .ite h.waits h5.reply.next

theorem State.Keeps.restore {c : Cl} {k : Cluster} {m : List (Nat × Byte)}
    (hk : Memory.wf s = true → amWf 0 k.sp = true) : s.Keeps (t.restore c k m) := by
  unfold State.restore
  extract_lets s1 k1
  have h1 : s.Keeps s1 := h.beforeWipe
  have hk1 : k.Keeps k1 := (Cluster.Keeps.refl k).fromImage
  exact h1.mod_of_wf fun w => ⟨fun _ => hk1.sp (hk w)⟩

theorem State.Keeps.resume {x : Nat} : s.Keeps (t.resume x) := by
  unfold State.resume
  extract_lets saved images s1 s2
  have h1 : s.Keeps s1 := h.modCx fun _ => .of_saved_nil
  have h2 : s.Keeps s2 := List.foldlRecOn _ _ h1 fun u hu p hp => by
    split
    · exact hu
    · exact .ite (hu.restore fun w => Memory.wf_saved (h.wf w) x p hp) hu.modCx
  exact h2.mapDests

theorem State.Keeps.execCtxResume {x : Ctx} : s.Completes (execCtxResume x t) :=
  .ite h.waits (h.opcodeRow (fun _ _ hu => .ite hu.reply hu.resume.assign.reply) (fun _ _ hu => hu.reply))

theorem State.Keeps.execPowerCap {x : Ctx} : s.Completes (execPowerCap x t) :=
  h.opcodeRow fun _ _ hu => hu.dw.reply

/-! #### Memory commands (Sys2Proof/Machine/MemoryCmds.lean) -/

theorem State.Keeps.opcodeWhen {x : Ctx} {op : Nat} {hold zero : Cmd → Bool} {bad : Cmd → List (Bool × Nat)}
    {f : Cmd → State → State} (hf : ∀ a u, s.Keeps u → s.Keeps (f a u)) :
    s.Completes (opcodeWhen x op t hold zero bad f) := by
  unfold Machine.opcodeWhen
  split
  · exact .ite h.waits (h.opcodeRow (fun _ _ hu => hf _ _ hu) (fun _ _ hu => hu.reply))
  · exact h.waits

theorem State.Keeps.replyPartial {x : Nat} {k : Cmd} {cause : Nat} : s.Keeps (t.replyPartial x k cause) :=
  h.reply

theorem State.Keeps.lineWrite {c : Cl} {off : Nat} {bs : List Byte} : s.Keeps (t.lineWrite c off bs).2 := by
  unfold State.lineWrite
  extract_lets a
  split
  · exact .snd h.cinc.arrivalWrite.incLocal
  · exact .snd h.winReject

theorem State.Keeps.dstWrite {x a : Nat} {bs : List Byte} : s.Keeps (t.dstWrite x a bs).2.2 := by
  unfold State.dstWrite
  split
  · refine .foldl_of (fun r : Nat × Nat × State => r.2.2) h fun d _ hd => ?_
    refine .snd_snd_ite hd ?_
    split
    · exact hd.hbmWrite
    · exact hd
    · exact hd
  · split
    · exact h
    · refine .foldl_of (fun r : Nat × Nat × State => r.2.2) h fun d _ hd => ?_
      exact .snd_snd_ite hd (.snd_snd_ite hd.lineWrite hd.lineWrite)
  · exact h.hostWrite

theorem State.Keeps.execMemMap {x : Ctx} : s.Completes (execMemMap x t) :=
  h.opcodeWhen fun _ _ hu => .ite hu.reply (.ite hu.reply (.ite hu.reply hu.mapPages.reply))

theorem State.Keeps.execMemUnmap {x : Ctx} : s.Completes (execMemUnmap x t) :=
  h.opcodeRow fun _ _ hu => .ite hu.reply (.ite hu.reply (.ite hu.reply hu.unmapPages.settleQuota.reply))

theorem State.Keeps.execMemCopy {x : Ctx} : s.Completes (execMemCopy x t) :=
  h.opcodeRow fun _ _ hu => .ite hu hu.reply

theorem State.Keeps.execMemFill {x : Ctx} : s.Completes (execMemFill x t) :=
  h.opcodeRow fun _ _ hu => .ite hu hu.reply

theorem State.Keeps.endMove {x : Nat} {k : Cmd} {bs : List Byte} {bad : List Nat} {stoppedAt : Option Nat} :
    s.Keeps (t.endMove x k bs bad stoppedAt) :=
  .ite h.dstWrite.replyPartial (.ite h.dstWrite.replyPartial h.dstWrite.reply)

theorem State.Keeps.execMemCopyComplete {x : Ctx} {seq : BitVec 32} {hostData : List Byte} {stoppedAt : Option Nat} :
    s.Completes (execMemCopyComplete x seq hostData stoppedAt t) := by
  dsimp only [Machine.execMemCopyComplete]
  split
  · exact h.waits
  · refine .ite h.waits ?_
    refine .ite h.replyPartial.next ?_
    split
    · exact h.wantPage.next
    · exact h.wantPage.next
    · split
      · exact h.endMove.next
      · exact h.waits

theorem State.Keeps.execMemFillComplete {x : Ctx} {seq : BitVec 32} {stoppedAt : Option Nat} :
    s.Completes (execMemFillComplete x seq stoppedAt t) := by
  dsimp only [Machine.execMemFillComplete]
  split
  · exact h.waits
  · refine .ite h.waits ?_
    refine .ite h.replyPartial.next ?_
    split
    · exact h.wantPage.next
    · exact h.endMove.next

theorem State.Keeps.execHostwinGrant {x : Ctx} : s.Completes (execHostwinGrant x t) :=
  h.opcodeRow fun _ _ hu => .ite hu.reply hu.modCx.reply

theorem State.Keeps.execHostwinRevoke {x : Ctx} : s.Completes (execHostwinRevoke x t) :=
  h.opcodeRow fun _ _ hu => hu.modCx

theorem State.Keeps.execHostwinRevokeComplete {x : Ctx} {seq : BitVec 32} :
    s.Completes (execHostwinRevokeComplete x seq t) := by
  unfold Machine.execHostwinRevokeComplete
  split
  · exact h.waits
  · exact h.whenever h.reply

theorem State.Keeps.execBar4Map {x : Ctx} : s.Completes (execBar4Map x t) :=
  h.opcodeRow fun _ _ hu => .ite hu.reply hu.modCx.reply

theorem State.Keeps.loadProg {x : Nat} {k : Cmd} {n : Nat} {bs : List Byte} : s.Keeps (t.loadProg x k n bs) := by
  unfold State.loadProg
  extract_lets a np s1 s2 prog
  have h1 : s.Keeps s1 := h.mapPages
  have h2 : s.Keeps s2 := h1.foldl fun _ _ hu => by
    split
    · exact hu.hbmWrite
    · exact hu
  exact h2.modCx.reply

theorem State.Keeps.execProgLoad {x : Ctx} {hostData : List Byte} : s.Completes (execProgLoad x hostData t) := by
  dsimp only [Machine.execProgLoad]
  split
  · exact h.wantPage.next
  · refine h.opcodeWhen fun _ _ hu => ?_
    split
    · exact hu.reply
    · refine .ite hu.reply ?_
      refine .ite hu.reply ?_
      refine .ite hu.reply ?_
      split
      · exact .ite hu.loadProg hu.replyPartial
      · exact hu.reply

theorem State.Keeps.execProgUnload {x : Ctx} : s.Completes (execProgUnload x t) := by
  dsimp only [Machine.execProgUnload]
  refine h.opcodeRow fun _ _ hu => ?_
  split
  · exact hu.reply
  · exact .ite hu.reply hu.modCx.unmapPages.settleQuota.reply

/-! #### Launches (Sys2Proof/Machine/LaunchCmds.lean) -/

theorem State.Keeps.execLaunch {x : Ctx} : s.Completes (execLaunch x t) :=
  h.opcodeRow fun _ _ hu => .ite hu.reply (.ite hu.reply hu)

theorem State.Keeps.startOn {x : Nat} {k : Cmd} {c : Cl} {n : Nat} : s.Keeps (t.startOn x k c n) :=
  ((State.Keeps.ite h h.passCluster).mod (fun _ _ hk => hk.w.w.w.w.w.frame)).launchCore

theorem State.Keeps.startLaunch {x : Nat} {k : Cmd} : s.Keeps (t.startLaunch x k) :=
  (h.fwWrite.foldl (fun _ _ hu => hu.startOn)).modCmd

theorem State.Keeps.execLaunchStart {x : Ctx} {seq : BitVec 32} : s.Completes (execLaunchStart x seq t) := by
  unfold Machine.execLaunchStart
  split
  · exact h.waits
  · refine .ite h.waits ?_
    split
    · exact h.wantPage.next
    · exact h.startLaunch.next

theorem State.Keeps.replyLaunch {x : Nat} {k : Cmd} {strms : List (Nat × EndedStrm)} :
    s.Keeps (t.replyLaunch x k strms) := by
  dsimp only [State.replyLaunch]
  split
  · exact h.reply
  · exact h.reply
  · exact h.reply
  · exact h.reply
  · exact h.reply

theorem State.Keeps.finishLaunch {x : Nat} {k : Cmd} : s.Keeps (t.finishLaunch x k) := by
  unfold State.finishLaunch
  extract_lets k' cs s1 bad s2 s3 s4 s5
  have h1 : s.Keeps s1 := h.foldl fun _ _ hu => hu.ccFlush
  have h3 : s.Keeps s3 := h1.writeBills.replyLaunch
  have h4 : s.Keeps s4 := h3.foldl fun _ _ hu => hu.mod
  exact h4.modCx.usLaunchEnd.assign.settleQuota

theorem State.Keeps.execLaunchComplete {x : Ctx} {seq : BitVec 32} : s.Completes (execLaunchComplete x seq t) := by
  unfold Machine.execLaunchComplete
  split
  · exact h.waits
  · refine .ite h.waits ?_
    split
    · exact h.wantPage.next
    · exact h.finishLaunch.next

theorem State.Keeps.execLaunchTimeout {x : Ctx} {seq : BitVec 32} : s.Completes (execLaunchTimeout x seq t) := by
  unfold Machine.execLaunchTimeout
  split
  · exact h.waits
  · exact h.whenever h.endLaunch

theorem State.Keeps.execLaunchCancel {x : Ctx} : s.Completes (execLaunchCancel x t) := by
  dsimp only [Machine.execLaunchCancel]
  refine h.opcodeRow fun _ _ hu => ?_
  split
  · exact hu.reply
  · exact .ite hu.modCx.replyAbandoned.reply (.ite hu.endLaunch.reply hu.reply)

theorem State.Keeps.execLaunchQuery {x : Ctx} : s.Completes (execLaunchQuery x t) :=
  h.opcodeRow fun _ _ hu => hu.reply

theorem State.Keeps.execRevolve {x : Ctx} : s.Completes (execRevolve x t) := by
  unfold Machine.execRevolve
  refine h.opcodeRow (fun _ _ hu => ?_) fun _ _ hu => hu.free.reply
  split
  · exact hu.reply
  · exact hu.checkCentral

/-! #### Weight commands (Sys2Proof/Machine/WeightCmds.lean) -/

theorem State.Keeps.beginLoad {h' : Shard} : s.Keeps (t.beginLoad h') :=
  h.takeFrames.frame.mapShard

theorem State.Keeps.execWtLoad {x : Ctx} : s.Completes (execWtLoad x t) :=
  h.opcodeWhen fun _ _ hu => .ite hu.reply (.ite hu.reply (.ite hu.reply (.ite hu.reply hu.beginLoad)))

theorem State.Keeps.shardRow {x : Ctx} {op : Nat} {hold : Cmd → Bool} {f : Cmd → Shard → State → State}
    (hf : ∀ a b u, s.Keeps u → s.Keeps (f a b u)) :
    s.Completes (shardRow x op t hold f) := by
  unfold Machine.shardRow
  refine h.opcodeWhen fun _ _ hu => ?_
  split
  · exact hu.reply
  · exact hf _ _ _ hu

theorem State.Keeps.execWtUnload {x : Ctx} : s.Completes (execWtUnload x t) :=
  h.shardRow fun _ _ _ hu => hu

theorem State.Keeps.dropShard {h' : Shard} : s.Keeps (t.dropShard h') :=
  (h.dropFrames.unless (·.foldl (fun _ _ hu => hu.setPage))).frame

theorem State.Keeps.execWtUnloadComplete {x : Ctx} {seq : BitVec 32} :
    s.Completes (execWtUnloadComplete x seq t) := by
  unfold Machine.execWtUnloadComplete
  split
  · exact h.waits
  · split
    · exact h.reply.next
    · exact .ite h.waits h.dropShard.settleQuota.reply.next

theorem State.Keeps.execWtReside {x : Ctx} : s.Completes (execWtReside x t) := by
  dsimp only [Machine.execWtReside]
  refine h.shardRow fun _ _ _ hu => ?_
  split
  · exact hu.startPageIn.unless (·.reply)
  · exact hu.reply
  · exact hu.setShard.reply

theorem State.Keeps.execWtDemote {x : Ctx} : s.Completes (execWtDemote x t) :=
  h.shardRow fun _ _ _ hu => .ite hu.reply (.ite hu.demote.settleQuota.reply hu.reply)

theorem State.Keeps.redigest {h' : Shard} : s.Keeps (t.redigest h').2 := by
  dsimp only [State.redigest]
  split
  · exact h.modShard
  · exact h.free.free.free.free.modShard

theorem State.Keeps.execWtDigest {x : Ctx} : s.Completes (execWtDigest x t) := by
  dsimp only [Machine.execWtDigest]
  refine h.shardRow fun _ _ _ hu => .reply ?_
  split
  · exact hu.redigest
  · exact hu

theorem State.Keeps.execWtQuery {x : Ctx} : s.Completes (execWtQuery x t) :=
  h.shardRow fun _ _ _ hu => hu.reply

theorem State.Keeps.execFlyDelete {x : Ctx} : s.Completes (execFlyDelete x t) := by
  dsimp only [Machine.execFlyDelete]
  refine h.opcodeRow fun _ _ hu => ?_
  split
  · exact hu.reply
  · exact .ite hu.reply hu.frame.settleQuota.reply

/-! #### Synchronisation commands (Sys2Proof/Machine/SyncCmds.lean) -/

theorem State.Keeps.mapCtrs {x v : Nat} {ps : List Nat} : s.Keeps (t.mapCtrs x v ps) :=
  h.foldl fun _ _ hu => hu.dw.setDctr

theorem State.Keeps.execSyMap {x : Ctx} : s.Completes (execSyMap x t) :=
  h.opcodeRow fun _ _ hu => .ite hu.reply (.ite hu.reply hu.mapCtrs.reply)

theorem State.Keeps.unmapCtr {x v : Nat} : s.Keeps (t.unmapCtr x v) := by
  unfold State.unmapCtr
  split
  · exact h
  · exact h.abandonWatches.dw

theorem State.Keeps.execSyUnmap {x : Ctx} : s.Completes (execSyUnmap x t) :=
  h.opcodeRow (fun _ _ hu => .ite hu.reply (.ite hu.reply (hu.foldl (fun _ _ hv => hv.unmapCtr)).settleQuota.reply))

theorem State.Keeps.ctrRow {x : Ctx} {op : Nat} {bad : Cmd → List (Bool × Nat)} {f : Cmd → Nat → State → State}
    (hf : ∀ a b u, s.Keeps u → s.Keeps (f a b u)) :
    s.Completes (ctrRow x op t bad f) := by
  unfold Machine.ctrRow
  refine h.opcodeRow fun _ _ hu => ?_
  split
  · exact hu.reply
  · exact hf _ _ _ hu

theorem State.Keeps.execSySignal {x : Ctx} : s.Completes (execSySignal x t) :=
  h.ctrRow fun _ _ _ hu => hu.applyDev.checkCentral.reply

theorem State.Keeps.execSyWatch {x : Ctx} : s.Completes (execSyWatch x t) :=
  h.ctrRow fun _ _ _ hu => .ite hu.reply hu.frame.modCx.reply

theorem State.Keeps.execSyWcancel {x : Ctx} : s.Completes (execSyWcancel x t) :=
  h.opcodeRow fun _ _ hu => hu.frame.reply

theorem State.Keeps.execSyRead {x : Ctx} : s.Completes (execSyRead x t) :=
  h.ctrRow fun _ _ _ hu => hu.reply

theorem State.Keeps.execSyPair {x : Ctx} : s.Completes (execSyPair x t) := by
  unfold Machine.execSyPair
  refine h.opcodeRow fun _ _ hu => ?_
  split
  · exact hu.writeDevPair.reply
  · exact hu.reply

theorem State.Keeps.setCurtain {x k arr rel central : Nat} {c : Cmd} : s.Keeps (t.setCurtain x k arr rel central c) :=
  h.dw.writeCurCfg.checkCentral

theorem State.Keeps.execSyCurtain {x : Ctx} : s.Completes (execSyCurtain x t) := by
  dsimp only [Machine.execSyCurtain]
  refine h.opcodeRow fun _ _ hu => .ite hu.reply ?_
  split
  · exact hu.setCurtain.reply
  · exact hu.reply

/-! #### Ring commands (Sys2Proof/Machine/RingCmds.lean) -/

theorem State.Keeps.takeDesc {d : List Byte} : s.Keeps (t.takeDesc d) :=
  (h.foldl (fun _ _ hu => hu.dw)).dwf.dwf.dwf.ringCurtain

theorem State.Keeps.giveDesc {d : List Byte} : s.Keeps (t.giveDesc d).2.2 := by
  dsimp only [State.giveDesc]
  split
  · exact h
  · split
    · exact h
    · split
      · exact h
      · exact h.takeDesc

theorem State.Keeps.execRingDesc {x : Ctx} : s.Completes (execRingDesc x t) :=
  h.opcodeRow fun _ _ hu => .ite hu.replyMal hu.giveDesc.reply

theorem State.Keeps.execRtWrite {x : Ctx} : s.Completes (execRtWrite x t) :=
  h.opcodeRow (fun _ _ hu => .ite hu.reply (hu.foldl (fun _ _ hv => hv.dw)).reply)

theorem State.Keeps.execSliceBind {x : Ctx} : s.Completes (execSliceBind x t) :=
  h.opcodeRow fun _ _ hu => .ite hu.reply (hu.dw.also (·.ringCurtain)).reply

theorem State.Keeps.execRingStatus {x : Ctx} : s.Completes (execRingStatus x t) :=
  h.opcodeRow fun _ _ hu => hu.reply

theorem State.Keeps.installWKey {x gen : Nat} {key : BitVec 256} : s.Keeps (t.installWKey x gen key).2 := by
  dsimp only [State.installWKey]
  split
  · exact h
  · split
    · exact h.modCx.dinc
    · split
      · exact h.modCx.dinc
      · exact h

theorem State.Keeps.hostBytes {n : Nat} : s.Keeps (t.hostBytes n).2 :=
  .foldl_of (fun r : List Byte × State => r.2) h fun _ _ hd => hd.free

theorem State.Keeps.rewrap {x dst : Nat} {inner : List Byte} : ∀ r ∈ t.rewrap x dst inner, s.Keeps r.2 := by
  intro r hr
  unfold State.rewrap at hr
  split at hr
  · cases hr
  · extract_lets q bs at hr
    split at hr
    · split at hr <;> cases hr
      exact h.hostBytes.draw
    · cases hr

theorem State.Keeps.sendRelay {x : Nat} {k : Cmd} {extra : List Byte} : s.Keeps (t.sendRelay x k extra) :=
  h.frame.sendMgmt

theorem State.Keeps.execRelay {x : Ctx} : s.Completes (execRelay x t) := by
  refine h.opcodeWhen fun _ _ hu => .ite hu.reply (.ite ?_ hu.sendRelay)
  split
  · next hr => exact (hu.rewrap _ hr).sendRelay
  · exact hu.reply

theorem State.Keeps.execDevStatus {x : Ctx} : s.Completes (execDevStatus x t) :=
  h.opcodeRow fun _ _ hu => hu.reply

theorem State.Keeps.execRegRead {x : Ctx} : s.Completes (execRegRead x t) :=
  h.opcodeRow fun _ _ hu => .ite hu.devRead.reply hu.reply

theorem State.Keeps.execRegWrite {x : Ctx} : s.Completes (execRegWrite x t) :=
  h.opcodeRow fun _ _ hu => hu.devWrite.reply

theorem State.Keeps.execUsPair {x : Ctx} : s.Completes (execUsPair x t) :=
  h.opcodeRow fun _ _ hu => hu.writeUsCtrl.reply

/-! #### Security commands (Sys2Proof/Machine/SecurityCmds.lean) -/

theorem State.Keeps.execIdentity {x : Ctx} : s.Completes (execIdentity x t) :=
  h.opcodeRow fun _ _ hu => .ite hu.reply hu.hostWrite.reply

theorem State.Keeps.execAttest {x : Ctx} : s.Completes (execAttest x t) :=
  h.opcodeRow fun _ _ hu => .ite hu.reply hu.hostWrite.dinc.reply

theorem State.Keeps.scFail {x source step off : Nat} : s.Keeps (t.scFail x source step off) := by
  unfold State.scFail
  exact h.scErr.logErr

theorem State.Keeps.execWkeyInstall {x : Ctx} {hostData : List Byte} :
    s.Completes (execWkeyInstall x hostData t) := by
  dsimp only [Machine.execWkeyInstall]
  refine h.opcodeWhen fun _ _ hu => .ite hu.reply ?_
  refine .ite hu.replyPartial ?_
  split
  · exact hu.scFail.reply
  · exact .ite hu.scFail.reply (hu.installWKey.also (·.scFail)).reply

theorem State.Keeps.storeImage {b : List Byte} : s.Keeps (t.storeImage b) :=
  h.frame (hs := by split <;> exact ⟨rfl, rfl, rfl, rfl⟩)

theorem State.Keeps.updateImage {b : List Byte} : s.Keeps (t.updateImage b).2 := by
  dsimp only [State.updateImage]
  split
  · exact h.scFail.also (·.dinc)
  · exact h.storeImage

theorem State.Keeps.execFwUpdate {x : Ctx} {hostData : List Byte} : s.Completes (execFwUpdate x hostData t) :=
  h.opcodeWhen fun _ _ hu => .ite hu.reply (.ite hu.replyPartial (.ite hu.replyMal hu.updateImage.reply))

theorem State.Keeps.execLcQuery {x : Ctx} : s.Completes (execLcQuery x t) :=
  h.opcodeRow fun _ _ hu => hu.reply

theorem State.Keeps.resetRow {x : Ctx} {kind : Nat → Bool} {bad : Cmd → List (Bool × Nat)} {f : Cmd → State → State}
    (hf : ∀ a u, s.Keeps u → s.Keeps (f a u)) :
    s.Completes (resetRow x t kind bad f) := by
  unfold Machine.resetRow
  split
  · exact .ite (h.opcodeRow (fun _ _ hu => hf _ _ hu) (fun _ _ hu => hu.reply)) h.waits
  · exact h.waits

theorem State.Keeps.execResetWarm {x : Ctx} : s.Completes (execResetWarm x t) :=
  h.resetRow fun _ _ hu => hu.reply.warmReset

theorem State.Keeps.execResetCluster {x : Ctx} : s.Completes (execResetCluster x t) := by
  unfold Machine.execResetCluster
  refine h.resetRow fun _ _ hu => ?_
  split
  · exact hu
  · exact .ite hu.reply hu.resetCluster

theorem State.Keeps.execResetLink {x : Ctx} : s.Completes (execResetLink x t) :=
  h.resetRow fun _ _ hu => hu.resetPort

theorem State.Keeps.execRngHealthFail : s.Completes (execRngHealthFail t) :=
  h.dwf.dinc.next

theorem State.Keeps.execRngHealthRecover : s.Completes (execRngHealthRecover t) :=
  h.dwf.next

/-! #### SPDM (Sys2Proof/Machine/Spdm.lean) -/

theorem State.Keeps.setMailbox {fn : Nat} {m : Mailbox} : s.Keeps (t.setMailbox fn m) :=
  h.frame

theorem State.Keeps.doeAnswer {fn : Nat} {m : Mailbox} {obj : List Byte} : s.Keeps (t.doeAnswer fn m obj) :=
  h.setMailbox.frame.also (·.msixSend)

theorem State.Keeps.execDoeDiscovery {fn : Fn} {index : Byte} : s.Completes (execDoeDiscovery fn index t) :=
  h.whenever h.doeAnswer

theorem State.Keeps.spdmRow {fn : Fn} {conn : Nat → Bool} {f : Mailbox → State → State}
    (hf : ∀ a u, s.Keeps u → s.Keeps (f a u)) :
    s.Completes (spdmRow fn t conn f) :=
  h.whenever (.ite (hf _ _ h) h.doeAnswer)

theorem State.Keeps.execGetVersion {fn : Fn} : s.Completes (execGetVersion fn t) :=
  h.spdmRow fun _ _ hu => hu.doeAnswer

theorem State.Keeps.execGetCapabilities {fn : Fn} : s.Completes (execGetCapabilities fn t) :=
  h.spdmRow fun _ _ hu => hu.doeAnswer

theorem State.Keeps.execNegotiateAlgorithms {fn : Fn} : s.Completes (execNegotiateAlgorithms fn t) :=
  h.spdmRow fun _ _ hu => hu.doeAnswer

theorem State.Keeps.signedAnswer {fn : Nat} {m : Mailbox} {req obj : List Byte} :
    s.Keeps (t.signedAnswer fn m req obj) :=
  h.doeAnswer.dinc

theorem State.Keeps.execChallenge {fn : Fn} {nonce : BitVec 256} : s.Completes (execChallenge fn nonce t) :=
  .ite h.waits (h.spdmRow (fun _ _ hu => hu.draw.signedAnswer))

theorem State.Keeps.execGetMeasurements {fn : Fn} {index : Fin 256} {nonce : BitVec 256} :
    s.Completes (execGetMeasurements fn index nonce t) :=
  .ite h.waits (h.spdmRow (fun _ _ hu => .ite hu.doeAnswer hu.draw.signedAnswer))

theorem State.Keeps.execKeyExchange {fn : Fn} {reqSession : BitVec 16} {pub : BitVec 776} {hbeat : Bool} :
    s.Completes (execKeyExchange fn reqSession pub hbeat t) :=
  .ite h.waits (h.spdmRow (fun _ _ hu => .ite hu.doeAnswer hu.draw.draw.doeAnswer.dinc))

theorem State.Keeps.sessRow {fn : Fn} {session : Nat} {done : Bool} {f : Mailbox → SpdmSess → State → State}
    (hf : ∀ a b u, s.Keeps u → s.Keeps (f a b u)) :
    s.Completes (sessRow fn session done t f) := by
  dsimp only [Machine.sessRow]
  refine h.whenever ?_
  split
  · exact h.doeAnswer
  · exact hf _ _ _ h

theorem State.Keeps.execFinish {fn : Fn} {session : BitVec 32} {mac : BitVec 256} :
    s.Completes (execFinish fn session mac t) :=
  h.sessRow fun _ _ _ hu => .ite hu.doeAnswer hu.doeAnswer

theorem State.Keeps.execKeyUpdate {fn : Fn} {session : BitVec 32} {both : Bool} :
    s.Completes (execKeyUpdate fn session both t) :=
  h.sessRow fun _ _ _ hu => hu.doeAnswer

theorem State.Keeps.execHeartbeat {fn : Fn} {session : BitVec 32} : s.Completes (execHeartbeat fn session t) :=
  h.sessRow fun _ _ _ hu => .ite hu.doeAnswer hu.doeAnswer

theorem State.Keeps.execEndSession {fn : Fn} {session : BitVec 32} : s.Completes (execEndSession fn session t) :=
  h.sessRow fun _ _ _ hu => hu.doeAnswer

theorem State.Keeps.execVendorDefinedRequest {fn : Fn} {session : BitVec 32} {key : BitVec 256} :
    s.Completes (execVendorDefinedRequest fn session key t) :=
  h.sessRow fun _ _ _ hu => hu.frame.doeAnswer

theorem State.Keeps.execSpdmUnsupportedRequest {fn : Fn} {code : Byte} :
    s.Completes (execSpdmUnsupportedRequest fn code t) :=
  h.whenever h.doeAnswer

theorem State.Keeps.execSpdmHeartbeatTimeout {fn : Fn} {session : BitVec 32} :
    s.Completes (execSpdmHeartbeatTimeout fn session t) :=
  h.whenever h.setMailbox

/-! #### PCI Express (Sys2Proof/Machine/Pcie.lean) -/

theorem State.Keeps.sendHeld {h' : HeldWrite} : s.Keeps (t.sendHeld h') := by
  unfold State.sendHeld
  split
  · exact h.frame
  · exact h.setHostMem

theorem State.Keeps.releaseHeld {fn : Nat} : s.Keeps (t.releaseHeld fn) :=
  .ite (h.frame.foldl (fun _ _ hu => hu.sendHeld)) h

theorem State.Keeps.setBme {fn : Nat} {v : Bool} : s.Keeps (t.setBme fn v) :=
  h.frame.releaseHeld

theorem State.Keeps.setDState {fn : Nat} {d : DState} : s.Keeps (t.setDState fn d) :=
  h.frame.releaseHeld

theorem State.Keeps.msixFlush {fn v : Nat} : s.Keeps (t.msixFlush fn v) :=
  .ite h.frame.msixSend h

theorem State.Keeps.msixFlushAll {fn : Nat} : s.Keeps (t.msixFlushAll fn) :=
  h.foldl fun _ _ hu => hu.msixFlush

theorem State.Keeps.setMsixEnt {fn v e : Nat} : s.Keeps (t.setMsixEnt fn v e) :=
  h.frame.msixFlush

theorem State.Keeps.execMsixUnmask {fn : Fn} {vec : Fin 64} : s.Completes (execMsixUnmask fn vec t) :=
  h.whenever h.setMsixEnt

theorem State.Keeps.execPcieLinkChange {rate : Fin 7} {width : Fin 9} {flit : Bool} :
    s.Completes (execPcieLinkChange rate width flit t) :=
  .ite h.waits (h.dw.also (·.dinc)).event.next

theorem State.Keeps.writeVfe {v : Bool} : s.Keeps (t.writeVfe v) :=
  .ite (.ite h.frame h) (.ite h.dropVfs h)

theorem State.Keeps.writeNumVfs {n : Nat} : s.Keeps (t.writeNumVfs n) :=
  .ite h h.frame

theorem State.Keeps.execVfEnableWrite {val : Bool} : s.Completes (execVfEnableWrite val t) :=
  h.whenever h.writeVfe

theorem State.Keeps.execNumvfsWrite {n : BitVec 16} : s.Completes (execNumvfsWrite n t) :=
  h.whenever h.writeNumVfs

theorem State.Keeps.cfgSet {fn off v : Nat} : s.Keeps (t.cfgSet fn off v) :=
  h.frame

theorem State.Keeps.cfgCommand {fn v : Nat} : s.Keeps (t.cfgCommand fn v) :=
  h.frame.setBme

theorem State.Keeps.cfgMsix {fn v : Nat} : s.Keeps (t.cfgMsix fn v) :=
  h.frame.msixFlushAll

theorem State.Keeps.cfgSriov {v : Nat} : s.Keeps (t.cfgSriov v) :=
  h.cfgSet.writeVfe.frame

theorem State.Keeps.cfgPlain {fn off v : Nat} : s.Keeps (t.cfgPlain fn off v) := by
  dsimp only [State.cfgPlain]
  split
  · exact h.cfgSet
  · exact h.cfgSet
  · exact h

theorem State.Keeps.cfgWrite {fn off v : Nat} : s.Keeps (t.cfgWrite fn off v) := by
  refine .ite h.cfgCommand (.ite h.cfgMsix (.ite ?_ (.ite h.cfgSriov (.ite h.writeNumVfs (.ite h ?_)))))
  · exact .ite h.setDState (.ite h.setDState h)
  · exact h.cfgPlain.also (·.flr)

theorem State.Keeps.complete {cpl : Nat} : s.Keeps (t.complete cpl) :=
  h.frame

theorem State.Keeps.execConfigRequest {fn : Fn} {req : CfgReq} : s.Completes (execConfigRequest fn req t) := by
  dsimp only [Machine.execConfigRequest]
  refine .ite h.waits ?_
  refine .ite h.complete.frame.next ?_
  refine .ite h.complete.next ?_
  split
  · exact h.complete.frame.next
  · exact h.complete.cfgWrite.next

theorem State.Keeps.execBusMasterEnable {fn : Fn} : s.Completes (execBusMasterEnable fn t) :=
  h.whenever h.setBme

theorem State.Keeps.execPowerStateChange {fn : Fn} {dst : DState} : s.Completes (execPowerStateChange fn dst t) := by
  unfold Machine.execPowerStateChange
  split
  · exact h.whenever h.powerOff
  · exact h.whenever h.setDState

theorem State.Keeps.barRow {fn size off bytes : Nat} {ok : Bool} {f : State → Res}
    (hf : ∀ u, s.Keeps u → s.Completes (f u)) :
    s.Completes (barRow fn size off bytes ok t f) :=
  .ite h.waits (.ite h.complete.next (hf _ h.complete))

theorem State.Keeps.rsvd : s.Keeps t.rsvd :=
  h.dinc

theorem State.Keeps.bar0Word {fn off : Nat} : s.Keeps (t.bar0Word fn off).2 := by
  dsimp only [State.bar0Word]
  split
  · exact h.devRead
  · split
    · exact h.devRead
    · split
      · exact h
      · split
        · exact h
        · exact h.rsvd

theorem State.Keeps.bar0Write {fn off bytes v : Nat} : s.Keeps (t.bar0Write fn off bytes v) := by
  dsimp only [State.bar0Write]
  split
  · exact h.devWrite
  · exact .ite h.setMsixEnt (.ite h h.rsvd)

theorem State.Keeps.execBar0Access {fn : Fn} {off bytes : Nat} {wr : Option Word} :
    s.Completes (execBar0Access fn off bytes wr t) := by
  dsimp only [Machine.execBar0Access]
  refine h.barRow fun _ hu => ?_
  split
  · exact hu.bar0Word.frame.next
  · exact hu.bar0Write.next

theorem State.Keeps.execBar2Access {fn : Fn} {off bytes : Nat} {wr : Option (List Byte)} {ide : Bool} :
    s.Completes (execBar2Access fn off bytes wr ide t) := by
  dsimp only [Machine.execBar2Access]
  refine h.barRow fun _ hu => ?_
  split
  · exact (State.Keeps.ite hu.rsvd hu).frame.next
  · exact (State.Keeps.ite hu.rsvd hu).modCx.next

theorem State.Keeps.execBar4Access {fn : Fn} {off bytes : Nat} {wr : Option (List Byte)} {ide : Bool} :
    s.Completes (execBar4Access fn off bytes wr ide t) := by
  unfold Machine.execBar4Access
  refine h.barRow fun u hu => ?_
  extract_lets ps r _
  split
  · exact h.wantPage.next
  · split
    · have hr : s.Keeps r.2 := .foldl_of (fun r : List Byte × State => r.2) hu fun _ _ hd => by
        split
        · exact hd
        · exact hd.rsvd
      exact hr.frame.next
    · refine (hu.foldl fun _ _ hv => ?_).next
      split
      · exact hv.hbmWrite
      · exact hv.rsvd

theorem State.Keeps.aerLog {fn : Nat} {cor : Bool} {b header : Nat} : s.Keeps (t.aerLog fn cor b header) :=
  .ite h.cfgSet (State.Keeps.ite h.cfgSet h).cfgSet

theorem State.Keeps.pcieRec {fn cls cause : Nat} : s.Keeps (t.pcieRec fn cls cause) :=
  h.logErr

theorem State.Keeps.pcieCor {fn b : Nat} : s.Keeps (t.pcieCor fn b) :=
  .ite h.aerLog.dinc.pcieRec h.aerLog.dinc.dinc

theorem State.Keeps.pcieUncor {fn b header cls cause : Nat} : s.Keeps (t.pcieUncor fn b header cls cause) :=
  h.aerLog.dinc.pcieRec

theorem State.Keeps.loseCmd {x : Ctx} {seq : BitVec 32} : ∀ u ∈ t.loseCmd x seq, s.Keeps u := by
  intro u hu
  unfold State.loseCmd at hu
  split at hu
  · exact h.execWtLoadComplete.keeps_of_mem u hu
  · split at hu
    · cases hu
    · split at hu <;> cases hu
      exact h.replyPartial

theorem State.Keeps.loseRead {fn : Nat} {v : HostRead} : ∀ u ∈ t.loseRead fn v, s.Keeps u := by
  intro u hu
  unfold State.loseRead at hu
  split at hu
  · cases hu
  · split at hu
    · split at hu
      · split at hu
        · exact h.execStreamTransferComplete.keeps_of_mem u hu
        · cases hu
      · cases hu
    · split at hu
      · split at hu
        · exact h.execHostReadCompletion.keeps_of_mem u hu
        · cases hu
      · cases hu
    · split at hu
      · exact h.loseCmd _ hu
      · cases hu

theorem State.Keeps.poisonBar4 {x off n : Nat} : s.Keeps (t.poisonBar4 x off n) := by
  unfold State.poisonBar4
  refine h.foldl fun _ _ hu => ?_
  split
  · exact hu.foldl fun _ _ hv => hv.hbmPoison
  · exact hu

theorem State.Keeps.execPcieError {fn : Option Fn} {e : PcieError} {header : BitVec 32} :
    s.Completes (execPcieError fn e header t) := by
  unfold Machine.execPcieError
  extract_lets f h'
  refine .ite h.waits ?_
  split
  · exact h.pcieCor.next
  · exact h.pcieUncor.next
  · exact h.poisonBar4.pcieUncor.next
  · split
    · next hu => exact (h.loseRead _ hu).pcieUncor.next
    · exact h.waits
  · split
    · next hu => exact (h.loseRead _ hu).pcieUncor.next
    · exact h.waits
  · exact h.dinc.pcieUncor.next
  · exact h.pcieUncor.next

theorem State.Keeps.execCompletionTimeout {fn : Fn} {victim : HostRead} :
    s.Completes (execCompletionTimeout fn victim t) := by
  refine .ite h.waits ?_
  split
  · next hu => exact (h.loseRead _ hu).pcieUncor.next
  · exact h.waits

theorem State.Keeps.ideEnd {x : Nat} {k : Cmd} : s.Keeps (t.ideEnd x k) := by
  dsimp only [State.ideEnd]
  split
  · exact h.reply.dropFrames.frame.unless (·.foldl (fun _ _ hu => hu.setPage))
  · exact .ite h.reply h

theorem State.Keeps.execIdeCheckFailure {fn : Fn} : s.Completes (execIdeCheckFailure fn t) :=
  .ite h.waits (h.frame.dwf.foldl (fun _ _ hu => hu.ideEnd)).logErr.next

/-! #### Power, clocks and sensors (Sys2Proof/Machine/Power.lean) -/

theorem State.Keeps.powerEvent : s.Keeps t.powerEvent :=
  h.event

theorem State.Keeps.putGov {v : Nat} : s.Keeps (t.putGov v) :=
  (h.dw.also (·.frame)).unless (·.powerEvent)

theorem State.Keeps.execCapTakesEffect : s.Completes (execCapTakesEffect t) :=
  .ite h.frame.powerEvent.next h.waits

theorem State.Keeps.execPowerSample {vin : Byte} {watts milliamps : BitVec 16} :
    s.Completes (execPowerSample vin watts milliamps t) :=
  .ite h.waits h.frame.dw.dinc.next

theorem State.Keeps.execGovernorTick : s.Completes (execGovernorTick t) :=
  .ite h.waits h.frame.putGov.next

theorem State.Keeps.powerRec {cls cause unit : Nat} : s.Keeps (t.powerRec cls cause unit) :=
  h.logErr

theorem State.Keeps.execOvercurrentClamp : s.Completes (execOvercurrentClamp t) :=
  .ite h.waits h.frame.putGov.dinc.powerRec.next

theorem State.Keeps.execClampRelease : s.Completes (execClampRelease t) := by
  dsimp only [Machine.execClampRelease]
  split
  · exact h.waits
  · exact .ite h.frame.putGov.next h.waits

theorem State.Keeps.faultAlert : s.Keeps t.faultAlert :=
  h.frame

theorem State.Keeps.execInputSwitchOpen : s.Completes (execInputSwitchOpen t) :=
  .ite h.frame.powerOff.faultAlert.next h.waits

theorem State.Keeps.execInputSwitchClose : s.Completes (execInputSwitchClose t) :=
  h.whenever h.frame

theorem State.Keeps.readSensor {n : Nat} {t' : Int} : s.Keeps (t.readSensor n t') :=
  h.dw

theorem State.Keeps.readStack {st : Nat} {t' : Int} : s.Keeps (t.readStack st t') :=
  h.dw

theorem State.Keeps.thermLimits {hot : Int} : s.Keeps (t.thermLimits hot) :=
  h.frame.putGov

theorem State.Keeps.readOptics {p : Nat} {t' : Int} : s.Keeps (t.readOptics p t') :=
  .ite (.ite h h.frame.powerRec) h.frame

theorem State.Keeps.eachReading {xs : List Int} {f : State → Nat → Int → State}
    (hf : ∀ u b c', s.Keeps u → s.Keeps (f u b c')) :
    s.Keeps (eachReading xs f t) :=
  h.foldl fun _ _ hu => hf _ _ _ hu

theorem State.Keeps.thermalShutdown : s.Keeps t.thermalShutdown :=
  h.frame.powerOff.faultAlert

theorem State.Keeps.execSensorReading {junction : Vector Int 64} {hbmTemps optics : Vector Int 8} :
    s.Completes (execSensorReading junction hbmTemps optics t) := by
  unfold Machine.execSensorReading
  extract_lets above _ s1 s2 s3 a b o s4 s5
  have h1 : s.Keeps s1 := h.frame
  have h2 : s.Keeps s2 := h1.eachReading fun _ _ _ hu => hu.readSensor
  have h3 : s.Keeps s3 := h2.eachReading fun _ _ _ hu => hu.readStack
  have h5 : s.Keeps s5 := h3.dw.thermLimits
  exact .ite h.waits (.ite h.thermalShutdown.next (h5.eachReading fun _ _ _ hu => hu.readOptics).next)

theorem State.Keeps.execThermalRestart {junction : Vector Int 64} {hbmTemps optics : Vector Int 8} :
    s.Completes (execThermalRestart junction hbmTemps optics t) :=
  .ite (.ite h.dinc.powerOn.next h.frame.next) h.waits

theorem State.Keeps.execReferenceLoss : s.Completes (execReferenceLoss t) :=
  .ite h.dw.dinc.powerRec.next h.waits

theorem State.Keeps.execReferenceReturn : s.Completes (execReferenceReturn t) :=
  h.whenever h.dwf

theorem State.Keeps.execDomainLockLoss {d : Fin 60} : s.Completes (execDomainLockLoss d t) :=
  .ite h.frame.dwf.dwf.dinc.powerRec.next h.waits

theorem State.Keeps.execDomainRelock {d : Fin 60} : s.Completes (execDomainRelock d t) :=
  .ite (h.frame.dwf.foldl (fun _ _ hu => hu.releaseHeld)).next h.waits

theorem State.Keeps.execRelockTimeout {d : Fin 60} : s.Completes (execRelockTimeout d t) :=
  .ite h.frame.powerRec.next h.waits

/-! #### Debug access (Sys2Proof/Machine/Debug.lean) -/

theorem State.Keeps.execErrorMergeExpiry {i : Nat} : s.Completes (execErrorMergeExpiry i t) := by
  dsimp only [Machine.execErrorMergeExpiry]
  split
  · exact h.waits
  · exact .ite h.waits (.ite h.frame.next h.frame.putErr.next)

theorem State.Keeps.execNetworkPacketReceive {i : Nat} {parity : NetParity} :
    s.Completes (execNetworkPacketReceive i parity t) := by
  unfold Machine.execNetworkPacketReceive
  split
  · exact h.next
  · exact h.waits
  · extract_lets bad
    split
    · exact h.waits
    · next hk => exact (h.mod_cl ((Cluster.Keeps.refl _).onPacket _ hk)).logErr.next
  · split
    · exact h.waits
    · next hk => exact (h.mod_cl ((Cluster.Keeps.refl _).onPacket _ hk)).fatalError.next

theorem State.Keeps.endToken {t' : List Byte} : s.Keeps (t.endToken t').2 := by
  unfold State.endToken
  extract_lets ok n _ _ s1 s2 s3
  have h1 : s.Keeps s1 := (h.draw : s.Keeps n.2).frame
  have h2 : s.Keeps s2 := h1.dwf
  have h3 : s.Keeps s3 := .ite h2.dwf h2
  exact .snd h3.logErr

theorem State.Keeps.execDebugTokenVerified : s.Completes (execDebugTokenVerified t) := by
  unfold Machine.execDebugTokenVerified
  split
  · exact h.waits
  · exact .ite h.waits h.endToken.next

theorem State.Keeps.jtagIr {ir : Nat} : s.Keeps (t.jtagIr ir) :=
  h.frame

theorem State.Keeps.execJtagTrst : s.Completes (execJtagTrst t) :=
  h.jtagIr.next

theorem State.Keeps.execExtest {drive : BitVec 64} : s.Completes (execExtest drive t) :=
  h.whenever (.ite h.jtagIr.frame h.jtagIr.frame)

theorem State.Keeps.execSamplePreload {pins preload : BitVec 64} : s.Completes (execSamplePreload pins preload t) :=
  h.whenever h.jtagIr.frame

theorem State.Keeps.execIdcode : s.Completes (execIdcode t) :=
  h.whenever h.jtagIr.frame

theorem State.Keeps.execDbgStat : s.Completes (execDbgStat t) :=
  h.whenever h.jtagIr.frame

theorem State.Keeps.execDbgNonce : s.Completes (execDbgNonce t) :=
  h.whenever h.jtagIr.frame

theorem State.Keeps.execDbgAuth {token : List Byte} : s.Completes (execDbgAuth token t) :=
  h.whenever (.ite h.jtagIr.frame (h.jtagIr.unless (·.frame)))

theorem State.Keeps.execDbgReg {dr : BitVec 96} : s.Completes (execDbgReg dr t) :=
  .ite h.waits (.ite h.jtagIr.frame.next (.ite h.jtagIr.frame.frame.next h.jtagIr.frame.frame.next))

theorem State.Keeps.execDbgRegAccessDone : s.Completes (execDbgRegAccessDone t) := by
  unfold Machine.execDbgRegAccessDone
  split
  · exact h.waits
  · extract_lets a done r u
    have hdone : ∀ v st, s.Keeps v → s.Completes (.next (done v st)) := fun _ _ hv => hv.frame.next
    refine .ite (.ite (hdone _ _ h.denied) (.ite (hdone _ _ h) (hdone _ _ h.devWrite))) (.ite (hdone _ _ ?_) (hdone _ _ h))
    exact (h.devRead : s.Keeps r.2).frame

theorem State.Keeps.execBypass {bit : Bool} : s.Completes (execBypass bit t) :=
  h.whenever h.jtagIr.frame

/-! #### The management bus (Sys2Proof/Machine/MgmtBusCmds.lean) -/

theorem State.Keeps.busRow {t' : State} (ht' : s.Keeps t') : s.Completes (busRow t t') :=
  h.whenever ht'

theorem State.Keeps.busStatus {st : Nat} : s.Keeps (t.busStatus st) :=
  h.frame

theorem State.Keeps.busAnswer {bs : List Byte} : s.Keeps (t.busAnswer bs) :=
  h.frame

theorem State.Keeps.busNeeds {stage : Nat} {t' : State} (ht' : s.Keeps t') : s.Completes (busNeeds stage t t') :=
  h.busRow (.ite h.busStatus ht')

theorem State.Keeps.busWrite {stage : Nat} {pecOk : Bool} {t' : State} (ht' : s.Keeps t') :
    s.Completes (busWrite stage pecOk t t') :=
  .ite (h.busNeeds ht') h.waits

theorem State.Keeps.execIdent : s.Completes (execIdent t) :=
  h.busRow h.busAnswer

theorem State.Keeps.execTelem : s.Completes (execTelem t) :=
  h.busRow h.busAnswer.frame

theorem State.Keeps.execStatus : s.Completes (execStatus t) :=
  h.busRow h.busAnswer

theorem State.Keeps.execNonce : s.Completes (execNonce t) :=
  h.busNeeds h.busAnswer

theorem State.Keeps.execRegrd {addr8 : BitVec 32} : s.Completes (execRegrd addr8 t) :=
  h.busNeeds (.ite h.devRead.busStatus.busAnswer h.busStatus.busAnswer)

theorem State.Keeps.execRackcap {watts : BitVec 16} {pecOk : Bool} : s.Completes (execRackcap watts pecOk t) :=
  h.busWrite (.ite h.busStatus h.dw.busStatus)

theorem State.Keeps.execRingdesc {desc : BitVec 256} {pecOk : Bool} : s.Completes (execRingdesc desc pecOk t) :=
  h.busWrite h.giveDesc.busStatus

theorem State.Keeps.execWarmrst {data : Byte} {pecOk : Bool} : s.Completes (execWarmrst data pecOk t) :=
  h.busWrite (.ite h.busStatus.warmReset h.busStatus)

theorem State.Keeps.bulkDrop : s.Keeps t.bulkDrop :=
  h.frame.also (·.frame)

theorem State.Keeps.execBulkbegin {obj : Byte} {len : BitVec 32} {pecOk : Bool} :
    s.Completes (execBulkbegin obj len pecOk t) :=
  h.busWrite (h.bulkDrop.busStatus.also (·.frame))

theorem State.Keeps.execBulkdata {off : BitVec 32} {data : List Byte} {pecOk : Bool} :
    s.Completes (execBulkdata off data pecOk t) :=
  h.busWrite (.ite h.busStatus (.ite h.busStatus (.ite h.busStatus h.busStatus.frame)))

theorem State.Keeps.execBulkend {data : Byte} {pecOk : Bool} : s.Completes (execBulkend data pecOk t) :=
  h.busWrite (.ite h.busStatus (.ite h.busStatus (.ite h.busStatus (h.frame.also (·.frame)))))

theorem State.Keeps.bootRecovery {b : List Byte} : s.Keeps (t.bootRecovery b).2 := by
  dsimp only [State.bootRecovery]
  split
  · exact h.scErr
  · exact h.frame.dw.dwf

theorem State.Keeps.execBulkCheckDone : s.Completes (execBulkCheckDone t) := by
  dsimp only [Machine.execBulkCheckDone]
  refine .ite h.waits ?_
  refine .next (.frame (.busStatus ?_))
  split
  · exact h.bootRecovery
  · split
    · exact h.endToken
    · exact h

theorem State.Keeps.i3cRow {f : State → State} (hf : ∀ u, s.Keeps u → s.Keeps (f u)) : s.Completes (i3cRow t f) :=
  h.busRow (hf _ h.frame)

theorem State.Keeps.takeAddr {a : Nat} : s.Keeps (t.takeAddr a) :=
  .ite h h.frame

theorem State.Keeps.execSetdasa {addr : BitVec 7} : s.Completes (execSetdasa addr t) :=
  h.i3cRow fun _ hu => hu.takeAddr

theorem State.Keeps.execSetaasa : s.Completes (execSetaasa t) :=
  h.i3cRow fun _ hu => hu.takeAddr

theorem State.Keeps.execEntdaa {addr : BitVec 7} : s.Completes (execEntdaa addr t) :=
  h.i3cRow fun _ hu => hu.takeAddr

theorem State.Keeps.execGetpid : s.Completes (execGetpid t) :=
  h.i3cRow fun _ hu => hu.busAnswer

theorem State.Keeps.execGetbcr : s.Completes (execGetbcr t) :=
  h.i3cRow fun _ hu => hu.busAnswer

theorem State.Keeps.execGetdcr : s.Completes (execGetdcr t) :=
  h.i3cRow fun _ hu => hu.busAnswer

theorem State.Keeps.execGetstatus : s.Completes (execGetstatus t) :=
  h.i3cRow fun _ hu => hu.busAnswer

theorem State.Keeps.execRstact : s.Completes (execRstact t) :=
  h.busRow h.frame

theorem State.Keeps.execAlertResponse : s.Completes (execAlertResponse t) := by
  dsimp only [Machine.execAlertResponse]
  split
  · exact h.waits
  · exact h.busRow h.busAnswer.frame

/-! #### The idle step (Sys2Proof/Machine/Tick.lean) -/

theorem State.Keeps.countWhere {n : Nat} {test : State → Nat → Bool} {reg : Nat → Nat} :
    s.Keeps (countWhere n test reg t) :=
  h.foldl fun _ _ hu => .ite hu.dinc hu

theorem State.Keeps.limitTicks : s.Keeps t.limitTicks :=
  .ite h h.dinc.dinc

theorem State.Keeps.tick : s.Keeps t.tick :=
  h.frame.also (·.frame.countWhere.countWhere.limitTicks)

end

end Sys2Proof.Machine
end

section
/-! Every command, by its own rule above, and the two exceptions: the change of the life cycle, and an access of the shared
cache past HBM, which is the model's one fault. -/

namespace Sys2Proof.Machine

/-! #### Every command, and the idle step -/

/-- Every command but a change of the life cycle completes, inside HBM, and keeps what a command keeps. -/
theorem exec_completes {c : Instr} {s t : State} (h : s.Keeps t) (hlc : ∀ x host, c ≠ .lcChange x host)
    (hsc : ∀ sl req, c = .sharedCacheAccess sl req → req.addr < hbmBytes) : s.Completes (exec c t) := by
  cases c with
  | registerWrite => exact h.execRegisterWrite
  | coreInstruction => exact h.execCoreInstruction
  | corePageInResume => exact h.execCorePageInResume
  | clusterCacheMissFill => exact h.execClusterCacheMissFill
  | ecallExit => exact h.execEcallExit
  | ecallHandler => exact h.execEcallHandler
  | ecallHret => exact h.execEcallHret
  | ecallEvent => exact h.execEcallEvent
  | ecallUnknown => exact h.execEcallUnknown
  | interruptEntry => exact h.execInterruptEntry
  | tileCfg => exact h.execTileCfg
  | tileLd => exact h.execTileLd
  | tileRel => exact h.execTileRel
  | mxLoad => exact h.execMxLoad
  | mxRun => exact h.execMxRun
  | mxGauge => exact h.execMxGauge
  | vxChain => exact h.execVxChain
  | stPost => exact h.execStPost
  | stResume => exact h.execStResume
  | sySig => exact h.execSySig
  | syWait => exact h.execSyWait
  | syWatchInstruction => exact h.execSyWatchInstruction
  | syWaitinv => exact h.execSyWaitinv
  | fenceEng => exact h.execFenceEng
  | fenceKern => exact h.execFenceKern
  | cacheInv => exact h.execCacheInv
  | fenceEngComplete => exact h.execFenceEngComplete
  | fenceKernComplete => exact h.execFenceKernComplete
  | cacheInvComplete => exact h.execCacheInvComplete
  | instructionDiscard => exact h.execInstructionDiscard
  | tileCfgAccept => exact h.execTileCfgAccept
  | tileLdAccept => exact h.execTileLdAccept
  | tileRelAccept => exact h.execTileRelAccept
  | tileLdRowArrive => exact h.execTileLdRowArrive
  | mxLoadAccept => exact h.execMxLoadAccept
  | mxRunAccept => exact h.execMxRunAccept
  | mxGaugeAccept => exact h.execMxGaugeAccept
  | mxLoadTransferStart => exact h.execMxLoadTransferStart
  | mxLoadComplete => exact h.execMxLoadComplete
  | arrayRowAdmit => exact h.execArrayRowAdmit
  | arrayPipelineStep => exact h.execArrayPipelineStep
  | arrayHandlePush => exact h.execArrayHandlePush
  | runComplete => exact h.execRunComplete
  | peakclr => exact h.execPeakclr
  | vxChainAccept => exact h.execVxChainAccept
  | vxBeat => exact h.execVxBeat
  | vxChainComplete => exact h.execVxChainComplete
  | clQPush => exact h.execClQPush
  | clQPop => exact h.execClQPop
  | clQRespop => exact h.execClQRespop
  | clQRouteWrite => exact h.execClQRouteWrite
  | coreRunSet => exact h.execCoreRunSet
  | coreRunClear => exact h.execCoreRunClear
  | debugHalt => exact h.execDebugHalt
  | debugResume => exact h.execDebugResume
  | debugStep => exact h.execDebugStep
  | bpclr => exact h.execBpclr
  | rateclr => exact h.execRateclr
  | stepRateWindowEnd => exact h.execStepRateWindowEnd
  | pendClear => exact h.execPendClear
  | scrubWordCheck => exact h.execScrubWordCheck
  | correctedWordWriteback => exact h.execCorrectedWordWriteback
  | fillCopyGo => exact h.execFillCopyGo
  | fillCopyComplete => exact h.execFillCopyComplete
  | propTableWrite => exact h.execPropTableWrite
  | windowWrite => exact h.execWindowWrite
  | arrivalCheck => exact h.execArrivalCheck
  | arrivalComplete => exact h.execArrivalComplete
  | scratchpadReclaim => exact h.execScratchpadReclaim
  | sharedCacheAccess sl req => exact h.execSharedCacheAccess (Nat.not_le_of_lt (hsc sl req rfl))
  | sharedCacheMissFill => exact h.execSharedCacheMissFill
  | shcMaintGo => exact h.execShcMaintGo
  | shcMaintDone => exact h.execShcMaintDone
  | streamAccept => exact h.execStreamAccept
  | streamResumeAccept => exact h.execStreamResumeAccept
  | streamFillBegin => exact h.execStreamFillBegin
  | streamTransferIssue => exact h.execStreamTransferIssue
  | streamTransferComplete => exact h.execStreamTransferComplete
  | streamFillPush => exact h.execStreamFillPush
  | streamPageResume => exact h.execStreamPageResume
  | streamEnd => exact h.execStreamEnd
  | streamStallAlarm => exact h.execStreamStallAlarm
  | storeTransferTimeout => exact h.execStoreTransferTimeout
  | stCancelWrite => exact h.execStCancelWrite
  | sySigAccept => exact h.execSySigAccept
  | syWaitAccept => exact h.execSyWaitAccept
  | syWaitinvAccept => exact h.execSyWaitinvAccept
  | syWatchAccept => exact h.execSyWatchAccept
  | counterChange => exact h.execCounterChange
  | watchRegister => exact h.execWatchRegister
  | watchTimerExpiry => exact h.execWatchTimerExpiry
  | cueDelivery => exact h.execCueDelivery
  | clSyWcancelWrite => exact h.execClSyWcancelWrite
  | clSyCueRead => exact h.execClSyCueRead
  | clSySetvWrite => exact h.execClSySetvWrite
  | sySetvWrite => exact h.execSySetvWrite
  | clSyPairWrite => exact h.execClSyPairWrite
  | syPairWrite => exact h.execSyPairWrite
  | syVmapWrite => exact h.execSyVmapWrite
  | syCurCfgWrite => exact h.execSyCurCfgWrite
  | ringFormation => exact h.execRingFormation
  | layerCurtainArrival => exact h.execLayerCurtainArrival
  | layerIntervalArrival => exact h.execLayerIntervalArrival
  | weightInjection => exact h.execWeightInjection
  | weightFrameReceive => exact h.execWeightFrameReceive
  | feedDelivery => exact h.execFeedDelivery
  | endMarkReceive => exact h.execEndMarkReceive
  | frameForward => exact h.execFrameForward
  | forwardGoodCopy => exact h.execForwardGoodCopy
  | writeReceive => exact h.execWriteReceive
  | atomicReceive => exact h.execAtomicReceive
  | signalReceive => exact h.execSignalReceive
  | mgmtReceive => exact h.execMgmtReceive
  | arriveReceive => exact h.execArriveReceive
  | joinReceive => exact h.execJoinReceive
  | rejectReceive => exact h.execRejectReceive
  | completeReceive => exact h.execCompleteReceive
  | repairReceive => exact h.execRepairReceive
  | readyReceive => exact h.execReadyReceive
  | releaseReceive => exact h.execReleaseReceive
  | abandonReceive => exact h.execAbandonReceive
  | relayTimeout => exact h.execRelayTimeout
  | rackSyncEdge => exact h.execRackSyncEdge
  | portEnSet => exact h.execPortEnSet
  | portEnClear => exact h.execPortEnClear
  | portTrainComplete => exact h.execPortTrainComplete
  | laneLoss => exact h.execLaneLoss
  | handshakeReceive => exact h.execHandshakeReceive
  | handshakeMsgTimeout => exact h.execHandshakeMsgTimeout
  | handshakeRestart => exact h.execHandshakeRestart
  | dataFrameReceive => exact h.execDataFrameReceive
  | frameFecCheck => exact h.execFrameFecCheck
  | idleReceive => exact h.execIdleReceive
  | nackReceive => exact h.execNackReceive
  | creditReceive => exact h.execCreditReceive
  | keyswitchReceive => exact h.execKeyswitchReceive
  | portstateReceive => exact h.execPortstateReceive
  | dataFrameTransmit => exact h.execDataFrameTransmit
  | idleTransmit => exact h.execIdleTransmit
  | resendTimeout => exact h.execResendTimeout
  | nackRepeat => exact h.execNackRepeat
  | creditTimer => exact h.execCreditTimer
  | oldKeyErase => exact h.execOldKeyErase
  | linkKeyInstall => exact h.execLinkKeyInstall
  | vcbufWrite => exact h.execVcbufWrite
  | wtLoadComplete => exact h.execWtLoadComplete
  | pageInRequest => exact h.execPageInRequest
  | pageInComplete => exact h.execPageInComplete
  | shardCheckComplete => exact h.execShardCheckComplete
  | idleScrubCheck => exact h.execIdleScrubCheck
  | refetchComplete => exact h.execRefetchComplete
  | shardReportReceive => exact h.execShardReportReceive
  | repairWaitExpiry => exact h.execRepairWaitExpiry
  | repairRequestReceive => exact h.execRepairRequestReceive
  | shardGiveUp => exact h.execShardGiveUp
  | replacementSwap => exact h.execReplacementSwap
  | standaloneSwap => exact h.execStandaloneSwap
  | quotaReclaim => exact h.execQuotaReclaim
  | usPairingReceive => exact h.execUsPairingReceive
  | usChainRecordReceive => exact h.execUsChainRecordReceive
  | usBeatDigestReceive => exact h.execUsBeatDigestReceive
  | usRecordCountsReceive => exact h.execUsRecordCountsReceive
  | usEndReceive => exact h.execUsEndReceive
  | usPartnerLost => exact h.execUsPartnerLost
  | usEnClear => exact h.execUsEnClear
  | packetIntake => exact h.execPacketIntake
  | intakeRestart => exact h.execIntakeRestart
  | mgCxEnSet => exact h.execMgCxEnSet
  | mgCxEnClear => exact h.execMgCxEnClear
  | msixCoalesceExpiry => exact h.execMsixCoalesceExpiry
  | ctxQuery => exact h.execCtxQuery
  | ctxEnable => exact h.execCtxEnable
  | ctxDisable => exact h.execCtxDisable
  | quotaSet => exact h.execQuotaSet
  | ctxPreempt => exact h.execCtxPreempt
  | ctxPreemptComplete => exact h.execCtxPreemptComplete
  | ctxResume => exact h.execCtxResume
  | powerCap => exact h.execPowerCap
  | capTakesEffect => exact h.execCapTakesEffect
  | memMap => exact h.execMemMap
  | memUnmap => exact h.execMemUnmap
  | memCopy => exact h.execMemCopy
  | memCopyComplete => exact h.execMemCopyComplete
  | memFill => exact h.execMemFill
  | memFillComplete => exact h.execMemFillComplete
  | hostwinGrant => exact h.execHostwinGrant
  | hostwinRevoke => exact h.execHostwinRevoke
  | hostwinRevokeComplete => exact h.execHostwinRevokeComplete
  | bar4Map => exact h.execBar4Map
  | progLoad => exact h.execProgLoad
  | progUnload => exact h.execProgUnload
  | launch => exact h.execLaunch
  | launchStart => exact h.execLaunchStart
  | launchComplete => exact h.execLaunchComplete
  | launchTimeout => exact h.execLaunchTimeout
  | launchCancel => exact h.execLaunchCancel
  | launchQuery => exact h.execLaunchQuery
  | revolve => exact h.execRevolve
  | wtLoad => exact h.execWtLoad
  | wtUnload => exact h.execWtUnload
  | wtUnloadComplete => exact h.execWtUnloadComplete
  | wtReside => exact h.execWtReside
  | wtDemote => exact h.execWtDemote
  | wtDigest => exact h.execWtDigest
  | wtQuery => exact h.execWtQuery
  | flyDelete => exact h.execFlyDelete
  | syMap => exact h.execSyMap
  | syUnmap => exact h.execSyUnmap
  | sySignal => exact h.execSySignal
  | syWatch => exact h.execSyWatch
  | syWcancel => exact h.execSyWcancel
  | syRead => exact h.execSyRead
  | syPair => exact h.execSyPair
  | syCurtain => exact h.execSyCurtain
  | ringDesc => exact h.execRingDesc
  | rtWrite => exact h.execRtWrite
  | sliceBind => exact h.execSliceBind
  | relay => exact h.execRelay
  | ringStatus => exact h.execRingStatus
  | devStatus => exact h.execDevStatus
  | regRead => exact h.execRegRead
  | regWrite => exact h.execRegWrite
  | usPair => exact h.execUsPair
  | identity => exact h.execIdentity
  | attest => exact h.execAttest
  | wkeyInstall => exact h.execWkeyInstall
  | fwUpdate => exact h.execFwUpdate
  | lcQuery => exact h.execLcQuery
  | lcChange x host => exact absurd rfl (hlc x host)
  | resetWarm => exact h.execResetWarm
  | resetCluster => exact h.execResetCluster
  | clusterWipeComplete => exact h.execClusterWipeComplete
  | resetLink => exact h.execResetLink
  | linkResetOffExpiry => exact h.execLinkResetOffExpiry
  | pcieLinkChange => exact h.execPcieLinkChange
  | configRequest => exact h.execConfigRequest
  | bar0Access => exact h.execBar0Access
  | bar2Access => exact h.execBar2Access
  | bar4Access => exact h.execBar4Access
  | vfEnableWrite => exact h.execVfEnableWrite
  | numvfsWrite => exact h.execNumvfsWrite
  | pcieFlr => exact h.execPcieFlr
  | flrZeroingComplete => exact h.execFlrZeroingComplete
  | powerStateChange => exact h.execPowerStateChange
  | pcieError => exact h.execPcieError
  | completionTimeout => exact h.execCompletionTimeout
  | ideCheckFailure => exact h.execIdeCheckFailure
  | msixUnmask => exact h.execMsixUnmask
  | busMasterEnable => exact h.execBusMasterEnable
  | getVersion => exact h.execGetVersion
  | getCapabilities => exact h.execGetCapabilities
  | negotiateAlgorithms => exact h.execNegotiateAlgorithms
  | challenge => exact h.execChallenge
  | getMeasurements => exact h.execGetMeasurements
  | keyExchange => exact h.execKeyExchange
  | finish => exact h.execFinish
  | keyUpdate => exact h.execKeyUpdate
  | heartbeat => exact h.execHeartbeat
  | endSession => exact h.execEndSession
  | vendorDefinedRequest => exact h.execVendorDefinedRequest
  | spdmUnsupportedRequest => exact h.execSpdmUnsupportedRequest
  | hbmRequest => exact h.execHbmRequest
  | hbmRequestComplete => exact h.execHbmRequestComplete
  | hbmPatrolRead => exact h.execHbmPatrolRead
  | hbmRefresh => exact h.execHbmRefresh
  | hbmTrainingComplete => exact h.execHbmTrainingComplete
  | hbmWipeComplete => exact h.execHbmWipeComplete
  | frameZeroComplete => exact h.execFrameZeroComplete
  | powerGood => exact h.execPowerGood
  | inputLoss => exact h.execInputLoss
  | pllLock => exact h.execPllLock
  | stage1Enter => exact h.execStage1Enter
  | fliesMountComplete => exact h.execFliesMountComplete
  | stageDeadlineExpiry => exact h.execStageDeadlineExpiry
  | wdogKick => exact h.execWdogKick
  | watchdogExpiry => exact h.execWatchdogExpiry
  | perstFall => exact h.execPerstFall
  | perstRise => exact h.execPerstRise
  | rngHealthFail => exact h.execRngHealthFail
  | rngHealthRecover => exact h.execRngHealthRecover
  | debugTokenVerified => exact h.execDebugTokenVerified
  | debugClose => exact h.execDebugClose
  | freezeWrite => exact h.execFreezeWrite
  | mgDbgCdataAccess => exact h.execMgDbgCdataAccess
  | mgDbgMdataAccess => exact h.execMgDbgMdataAccess
  | mgElClr => exact h.execMgElClr
  | errorMergeExpiry => exact h.execErrorMergeExpiry
  | hangDetect => exact h.execHangDetect
  | networkPacketReceive => exact h.execNetworkPacketReceive
  | jtagTrst => exact h.execJtagTrst
  | extest => exact h.execExtest
  | samplePreload => exact h.execSamplePreload
  | idcode => exact h.execIdcode
  | dbgStat => exact h.execDbgStat
  | dbgNonce => exact h.execDbgNonce
  | dbgAuth => exact h.execDbgAuth
  | dbgReg => exact h.execDbgReg
  | dbgRegAccessDone => exact h.execDbgRegAccessDone
  | bypass => exact h.execBypass
  | powerSample => exact h.execPowerSample
  | governorTick => exact h.execGovernorTick
  | overcurrentClamp => exact h.execOvercurrentClamp
  | clampRelease => exact h.execClampRelease
  | inputSwitchOpen => exact h.execInputSwitchOpen
  | inputSwitchClose => exact h.execInputSwitchClose
  | sensorReading => exact h.execSensorReading
  | thermalRestart => exact h.execThermalRestart
  | referenceLoss => exact h.execReferenceLoss
  | referenceReturn => exact h.execReferenceReturn
  | domainLockLoss => exact h.execDomainLockLoss
  | domainRelock => exact h.execDomainRelock
  | relockTimeout => exact h.execRelockTimeout
  | ident => exact h.execIdent
  | telem => exact h.execTelem
  | rackcap => exact h.execRackcap
  | ringdesc => exact h.execRingdesc
  | warmrst => exact h.execWarmrst
  | regrd => exact h.execRegrd
  | nonce => exact h.execNonce
  | bulkbegin => exact h.execBulkbegin
  | bulkdata => exact h.execBulkdata
  | bulkend => exact h.execBulkend
  | bulkCheckDone => exact h.execBulkCheckDone
  | status => exact h.execStatus
  | setdasa => exact h.execSetdasa
  | setaasa => exact h.execSetaasa
  | entdaa => exact h.execEntdaa
  | getpid => exact h.execGetpid
  | getbcr => exact h.execGetbcr
  | getdcr => exact h.execGetdcr
  | getstatus => exact h.execGetstatus
  | rstact => exact h.execRstact
  | alertResponse => exact h.execAlertResponse
  | intakeSealTimeout => exact h.execIntakeSealTimeout
  | doeDiscovery => exact h.execDoeDiscovery
  | hostReadCompletion => exact h.execHostReadCompletion
  | spdmHeartbeatTimeout => exact h.execSpdmHeartbeatTimeout

/-! #### The change of the life cycle (R658), and the idle step -/

/-- Fusing a new life-cycle state changes no byte store. -/
theorem State.changeLc_wf {s : State} {a : List Byte} {target : Nat} (w : Memory.wf s = true) :
    Memory.wf (s.changeLc a target) = true := by
  unfold State.changeLc
  extract_lets owner _ s1
  have h : s1.Keeps (s1.newFlashKey.warmReset 5) := (State.Keeps.refl s1).newFlashKey.warmReset
  exact h.wf w

/-- What an opcode's row leaves is kept, or its own function's result on a kept state. -/
theorem State.Keeps.opcodeWhen_next {s t u : State} (h : s.Keeps t) {x : Ctx} {op : Nat} {hold zero : Cmd → Bool}
    {bad : Cmd → List (Bool × Nat)} {f : Cmd → State → State}
    (hu : Machine.opcodeWhen x op t hold zero bad f = .next u) :
    s.Keeps u ∨ ∃ k v, s.Keeps v ∧ u = f k v := by
  unfold Machine.opcodeWhen Machine.opcodeRow Machine.command at hu
  split at hu
  · split at hu
    · cases hu
      exact .inl h
    · split at hu
      · cases hu
        exact .inl h
      · split at hu <;> cases hu
        · beta_reduce
          split
          · exact .inl h.modCmd.replyMal
          · split
            · exact .inl h.modCmd.reply
            · exact .inr ⟨_, _, h.modCmd, rfl⟩
        · exact .inl h
  · cases hu
    exact .inl h

/-- R658: a command that asks for a change of the life cycle keeps what every command keeps, or its authorisation held
and the change is made. -/
theorem State.Keeps.execLcChange_next {s t u : State} (h : s.Keeps t) {x : Ctx} {host : List Byte}
    (hu : Machine.execLcChange x host t = .next u) :
    s.Keeps u ∨ ∃ k v, s.Keeps v ∧ v.lcFails host (k.f 16 1) = none
      ∧ u = (v.reply x.val k OK).changeLc host (k.f 16 1) := by
  obtain hk | ⟨k, v, hv, rfl⟩ := h.opcodeWhen_next hu
  · exact .inl hk
  · extract_lets n target nsig refuse
    have hrefuse : ∀ w off, s.Keeps w → s.Keeps (refuse w off) := fun _ _ hw => hw.scFail.reply
    split
    · exact .inl (hrefuse _ _ hv)
    · split
      · exact .inl hv.reply
      · split
        · exact .inl hv.replyPartial
        · split
          · exact .inl hv.replyMal
          · split
            · exact .inl (hrefuse _ _ (.ite hv.dinc hv))
            · next hok => exact .inr ⟨k, v, hv, hok, rfl⟩

theorem execLcChange_wf {s t : State} {x : Ctx} {host : List Byte} (w : Memory.wf s = true)
    (ht : execLcChange x host s = .next t) : Memory.wf t = true := by
  obtain h | ⟨k, v, hv, -, rfl⟩ := (State.Keeps.refl s).execLcChange_next ht
  · exact h.wf w
  · exact State.changeLc_wf (hv.reply.wf w)

theorem execSharedCacheAccess_of_le {s : State} {sl : Sl} {req : ShcReq} (hreq : hbmBytes ≤ req.addr) :
    execSharedCacheAccess sl req s = .fault .noSuchAddress := by
  unfold execSharedCacheAccess
  exact if_pos hreq

theorem exec_wf {c : Instr} {s t : State} (w : Memory.wf s = true) (ht : exec c s = .next t) : Memory.wf t = true := by
  by_cases hlc : ∃ x host, c = .lcChange x host
  · obtain ⟨x, host, rfl⟩ := hlc
    exact execLcChange_wf w ht
  · have hsc : ∀ sl req, c = .sharedCacheAccess sl req → req.addr < hbmBytes := by
      rintro sl req rfl
      by_contra hreq
      cases (execSharedCacheAccess_of_le (Nat.le_of_not_lt hreq)).symm.trans ht
    have hc := exec_completes (.refl s) (fun x host e => hlc ⟨x, host, e⟩) hsc
    rw [ht] at hc
    cases hc with
    | next h => exact h.wf w

/-- Settles O57: the idle step writes no byte store, and every command writes them only through the writes that keep the
form. -/
theorem memoryStaysCanonical : Obligations.MemoryStaysCanonical := by
  intro s t w ht
  cases hp : s.pending with
  | nil =>
    cases (step_of_pending_nil hp).symm.trans ht
    exact (State.Keeps.refl s).tick.wf w
  | cons c rest =>
    have w' : Memory.wf { s with pending := rest } = true := w
    exact exec_wf w' ((step_of_pending_cons hp).symm.trans ht)

end Sys2Proof.Machine
end

/-! ### Every command completes -/

section
namespace Sys2Proof.Machine

/-- A row of an opcode answers a next state whose queue is as it was, if its function keeps the queue. -/
theorem opcodeWhen_pending {x : Ctx} {op : Nat} {s : State} {hold zero : Cmd → Bool} {bad : Cmd → List (Bool × Nat)}
    {f : Cmd → State → State} (hf : ∀ k t, (f k t).pending = t.pending) :
    ∃ t, opcodeWhen x op s hold zero bad f = .next t ∧ t.pending = s.pending := by
  have hreply : ∀ k off t, (State.replyMal t x.val k off).pending = t.pending :=
    fun _ _ t => (State.Keeps.refl t).replyMal.pending
  have hok : ∀ k t, (State.reply t x.val k OK).pending = t.pending := fun _ t => (State.Keeps.refl t).reply.pending
  have hstart : ∀ k g, (s.modCmd x.val k g).pending = s.pending := fun _ _ => State.modCx_pending s x.val _
  unfold opcodeWhen opcodeRow command
  split
  · split
    · exact ⟨s, rfl, rfl⟩
    · split
      · exact ⟨s, rfl, rfl⟩
      · split
        · refine ⟨_, rfl, ?_⟩
          beta_reduce
          split
          · exact (hreply _ _ _).trans (hstart _ _)
          · split
            · exact (hok _ _).trans (hstart _ _)
            · exact (hf _ _).trans (hstart _ _)
        · exact ⟨s, rfl, rfl⟩
  · exact ⟨s, rfl, rfl⟩

@[simp] theorem State.changeLc_pending (s : State) (a : List Byte) (target : Nat) :
    (s.changeLc a target).pending = s.pending := by
  unfold State.changeLc
  extract_lets owner _ s1
  exact (State.Keeps.refl s1).newFlashKey.warmReset.pending

theorem execLcChange_completes (x : Ctx) (host : List Byte) (s : State) :
    ∃ t, execLcChange x host s = .next t ∧ t.pending = s.pending := by
  refine opcodeWhen_pending fun k t => ?_
  have h : t.Keeps t := .refl t
  extract_lets n target nsig refuse
  split
  · exact h.scFail.reply.pending
  · split
    · exact h.reply.pending
    · split
      · exact h.replyPartial.pending
      · split
        · exact h.replyMal.pending
        · split
          · exact (State.Keeps.ite h.dinc h).scFail.reply.pending
          · exact (State.changeLc_pending _ _ _).trans h.reply.pending

/-- Settles O59: the change of the life cycle completes too, and past HBM the shared cache answers its fault by name. -/
theorem everyCommandCompletes : Obligations.EveryCommandCompletes := by
  refine ⟨fun c s => ?_, fun s sl req hreq => execSharedCacheAccess_of_le hreq⟩
  by_cases hlc : ∃ x host, c = .lcChange x host
  · obtain ⟨x, host, rfl⟩ := hlc
    exact .inl (execLcChange_completes x host s)
  by_cases hsc : ∃ sl req, c = .sharedCacheAccess sl req ∧ hbmBytes ≤ req.addr
  · obtain ⟨sl, req, rfl, hreq⟩ := hsc
    exact .inr ⟨sl, req, rfl, hreq, execSharedCacheAccess_of_le hreq⟩
  have hc : s.Completes (exec c s) := exec_completes (.refl s) (fun x host e => hlc ⟨x, host, e⟩) fun sl req e =>
    Nat.lt_of_not_le fun hreq => hsc ⟨sl, req, e, hreq⟩
  generalize exec c s = r at hc
  cases hc with
  | next h => exact .inl ⟨_, rfl, h.pending⟩

end Sys2Proof.Machine
end

/-! ### Bit fields and registers -/

section
/-! What a field of a word is after a field of it is written, said once by the bits of the word; and the same for device
registers. -/

namespace Sys2Proof.Machine

theorem bit_eq_testBit (w n : Nat) : bit w n = w.testBit n := by
  simp [bit, Nat.testBit_eq_decide_div_mod_eq, beq_eq_decide]

theorem testBit_bits (w hi lo i : Nat) : (bits w hi lo).testBit i = (decide (i < hi + 1 - lo) && w.testBit (lo + i)) := by
  simp [bits, Nat.testBit_mod_two_pow, Nat.testBit_div_two_pow, Nat.add_comm]

theorem bits_lt (w hi lo : Nat) : bits w hi lo < 2 ^ (hi + 1 - lo) := Nat.mod_lt _ (Nat.two_pow_pos _)

/-- A word with a field replaced: what stands above it, the new value, and what stands below it. -/
theorem setBits_eq (w v : Nat) {hi lo : Nat} (h : lo ≤ hi) :
    setBits w hi lo v
      = 2 ^ (hi + 1) * (w / 2 ^ (hi + 1)) + (2 ^ lo * (v % 2 ^ (hi + 1 - lo)) + w % 2 ^ lo) := by
  have hsplit : w = 2 ^ (hi + 1) * (w / 2 ^ (hi + 1)) + (bits w hi lo * 2 ^ lo + w % 2 ^ lo) := by
    have hpow : 2 ^ (hi + 1) = 2 ^ lo * 2 ^ (hi + 1 - lo) := by rw [← Nat.pow_add]; congr 1; omega
    have e1 := Nat.div_add_mod w (2 ^ lo)
    have e2 := Nat.div_add_mod (w / 2 ^ lo) (2 ^ (hi + 1 - lo))
    rw [bits, hpow, ← Nat.div_div_eq_div_mul]
    calc w = 2 ^ lo * (w / 2 ^ lo) + w % 2 ^ lo := e1.symm
      _ = 2 ^ lo * (2 ^ (hi + 1 - lo) * (w / 2 ^ lo / 2 ^ (hi + 1 - lo)) + w / 2 ^ lo % 2 ^ (hi + 1 - lo)) + w % 2 ^ lo := by
        rw [e2]
      _ = _ := by ring
  unfold setBits place
  rw [Nat.mul_comm (v % _)]
  generalize bits w hi lo * 2 ^ lo = m at hsplit ⊢
  omega

theorem testBit_setBits (w v i : Nat) {hi lo : Nat} (h : lo ≤ hi) :
    (setBits w hi lo v).testBit i = if lo ≤ i ∧ i ≤ hi then v.testBit (i - lo) else w.testBit i := by
  have hlow : 2 ^ lo * (v % 2 ^ (hi + 1 - lo)) + w % 2 ^ lo < 2 ^ (hi + 1) := by
    have hpow : 2 ^ (hi + 1) = 2 ^ lo * 2 ^ (hi + 1 - lo) := by rw [← Nat.pow_add]; congr 1; omega
    have hv : v % 2 ^ (hi + 1 - lo) + 1 ≤ 2 ^ (hi + 1 - lo) := Nat.mod_lt _ (Nat.two_pow_pos _)
    have hw : w % 2 ^ lo < 2 ^ lo := Nat.mod_lt _ (Nat.two_pow_pos _)
    have := Nat.mul_le_mul_left (2 ^ lo) hv
    rw [hpow]
    rw [Nat.mul_add, Nat.mul_one] at this
    omega
  rw [setBits_eq w v h, Nat.testBit_two_pow_mul_add _ hlow,
    Nat.testBit_two_pow_mul_add _ (Nat.mod_lt w (Nat.two_pow_pos lo))]
  simp only [Nat.testBit_mod_two_pow, Nat.testBit_div_two_pow]
  by_cases hhi : i ≤ hi
  · by_cases hlo : lo ≤ i
    · simp [hhi, hlo, show i < hi + 1 by omega, show ¬ i < lo by omega, show i - lo < hi + 1 - lo by omega]
    · simp [hlo, show i < hi + 1 by omega, show i < lo by omega]
  · rw [if_neg (show ¬ i < hi + 1 by omega), if_neg (by omega), show i - (hi + 1) + (hi + 1) = i by omega]

/-- A field read where it was written. -/
@[simp] theorem bits_setBits_same (w v : Nat) {hi lo : Nat} (h : lo ≤ hi) :
    bits (setBits w hi lo v) hi lo = v % 2 ^ (hi + 1 - lo) := by
  apply Nat.eq_of_testBit_eq
  intro i
  rw [testBit_bits, testBit_setBits _ _ _ h, Nat.testBit_mod_two_pow]
  by_cases hi' : i < hi + 1 - lo
  · rw [if_pos (by omega), Nat.add_sub_cancel_left]
  · simp [hi']

/-- A field read apart from where another was written. -/
theorem bits_setBits_other (w v : Nat) {hi lo hi' lo' : Nat} (h : lo ≤ hi) (hd : hi' < lo ∨ hi < lo') :
    bits (setBits w hi lo v) hi' lo' = bits w hi' lo' := by
  apply Nat.eq_of_testBit_eq
  intro i
  rw [testBit_bits, testBit_bits, testBit_setBits _ _ _ h]
  by_cases hi : i < hi' + 1 - lo'
  · rw [if_neg (by omega)]
  · simp [hi]

theorem bit_setBits_same (w v n : Nat) : bit (setBits w n n v) n = v.testBit 0 := by
  rw [bit_eq_testBit, testBit_setBits _ _ _ (Nat.le_refl n), if_pos ⟨Nat.le_refl n, Nat.le_refl n⟩, Nat.sub_self]

@[simp] theorem bit_setBits_b2n (w n : Nat) (b : Bool) : bit (setBits w n n (b2n b)) n = b := by
  rw [bit_setBits_same]
  cases b <;> rfl

theorem bit_setBits_other (w v : Nat) {hi lo n : Nat} (h : lo ≤ hi) (hd : n < lo ∨ hi < n) :
    bit (setBits w hi lo v) n = bit w n := by
  rw [bit_eq_testBit, bit_eq_testBit, testBit_setBits _ _ _ h, if_neg (by omega)]

theorem setBits_lt (v : Nat) {w hi lo n : Nat} (h : lo ≤ hi) (hw : w < 2 ^ n) (hn : hi < n) : setBits w hi lo v < 2 ^ n := by
  refine Nat.lt_pow_two_of_testBit _ fun i hi' => ?_
  rw [testBit_setBits _ _ _ h, if_neg (by omega)]
  exact Nat.testBit_lt_two_pow (Nat.lt_of_lt_of_le hw (Nat.pow_le_pow_right (by decide) hi'))

/-- A field written with the value it has. -/
@[simp] theorem setBits_bits (w hi lo : Nat) (h : lo ≤ hi) : setBits w hi lo (bits w hi lo) = w := by
  apply Nat.eq_of_testBit_eq
  intro i
  rw [testBit_setBits _ _ _ h, testBit_bits]
  by_cases hi' : lo ≤ i ∧ i ≤ hi
  · rw [if_pos hi', decide_eq_true (by omega), Bool.true_and, show lo + (i - lo) = i by omega]
  · rw [if_neg hi']

theorem bit_eq_bits (w n : Nat) : bits w n n = b2n (bit w n) := by
  have := Nat.mod_two_eq_zero_or_one (w / 2 ^ n)
  simp only [bits, bit, b2n, Nat.add_sub_cancel_left, Nat.pow_one]
  rcases this with h | h <;> simp [h]

theorem State.dr_lt (s : State) (a : Nat) : s.dr a < 2 ^ 64 := BitVec.isLt _

/-- A register whose field was written. -/
theorem State.dr_dwf_same (s : State) (a v : Nat) {hi lo : Nat} (h : lo ≤ hi) (hhi : hi < 64) :
    (s.dwf a hi lo v).dr a = setBits (s.dr a) hi lo v := by
  rw [State.dwf, State.dr_dw_same, Nat.mod_eq_of_lt (setBits_lt v h (s.dr_lt a) hhi)]

theorem State.dr_dwf_other (s : State) {a b : Nat} (hi lo v : Nat) (h : b ≠ a) : (s.dwf a hi lo v).dr b = s.dr b :=
  State.dr_dw_other s a b _ h

theorem State.dr_dinc_other (s : State) {a b : Nat} (n : Nat) (h : b ≠ a) : (s.dinc a n).dr b = s.dr b := by
  unfold State.dinc
  split
  · rfl
  · exact State.dr_dw_other s a b _ h

/-- FREEZE is kept in a register of its own (R730). -/
theorem State.frozen_dw (s : State) {a : Nat} (v : Nat) (h : MG_DBG_CTRL ≠ a) : (s.dw a v).frozen = s.frozen := by
  unfold State.frozen State.dw
  rw [amGet_default_other _ _ _ _ _ _ h]

theorem State.dr_dinc_same (s : State) (a n : Nat) (h : s.frozen = false) : (s.dinc a n).dr a = (s.dr a + n) % 2 ^ 48 := by
  rw [State.dinc, if_neg (by simp [h]), State.dr_dw_same, Nat.mod_eq_of_lt]
  exact Nat.lt_of_lt_of_le (Nat.mod_lt _ (by decide)) (by decide)

end Sys2Proof.Machine
end

/-! ### What reports leave alone -/

section
/-! Events, error records, messages to other chips and replies to commands reach few parts of the state: the contexts'
rings and counters, the error log, what waits for the host, the ports' queues, host memory, and some registers.
`State.Leaves R` says that nothing else differs, and no register outside R; `State.Tells R` says it of what leaves the
commands in flight alone too. Both are carried along a chain of operations as `State.Keeps` is. -/

namespace Sys2Proof.Machine

/-- Registers that an event of context x changes (R555, R565). -/
def eventReg (x a : Nat) : Prop :=
  a = cxReg MG_CX_ERHEAD x ∨ a = cxReg MG_CX_CNT_EVENTS x ∨ a = cxReg MG_CX_CNT_EVLOST x

/-- Registers that an error record of context x changes (R724, R728). -/
def errReg (x a : Nat) : Prop := eventReg x a ∨ (MG_EL_CNT ≤ a ∧ a < MG_EL_CNT + 256)

/-- Registers that a message to another chip changes: without a route it is dropped and recorded (R417). -/
def sendReg (a : Nat) : Prop := errReg 0 a ∨ a = LK_RV_CNT_NOROUTE

/-- Registers that a reply to context x changes (R555). -/
def replyReg (x a : Nat) : Prop :=
  sendReg a ∨ a = cxReg MG_CX_RRHEAD x ∨ a = cxReg MG_CX_CNT_REPLIES x ∨ a = cxReg MG_CX_CNT_MALFORMED x

/-- From s to t nothing but reports and the commands in flight differs, and no register outside R. -/
structure State.Leaves (R : Nat → Prop) (s t : State) : Prop where
  frame : t = { s with
    ctx := t.ctx, err := t.err, pcie := t.pcie, ports := t.ports, links := t.links, mb := t.mb, regs := t.regs
    hostMem := t.hostMem }
  pcie : t.pcie = { s.pcie with pba := t.pcie.pba, sent := t.pcie.sent, held := t.pcie.held }
  alerts : ∀ n ∈ s.mb.alerts, n ∈ t.mb.alerts
  offAt : ∀ p, (t.port p).offAt = (s.port p).offAt
  regs : ∀ a, ¬ R a → t.dr a = s.dr a

/-- From s to t nothing but reports differs, and no register outside R. -/
structure State.Tells (R : Nat → Prop) (s t : State) : Prop extends State.Leaves R s t where
  cmds : ∀ y, t.cmds y = s.cmds y

section
variable {R : Nat → Prop} {s t u : State}

theorem State.Leaves.refl (R : Nat → Prop) (s : State) : State.Leaves R s s := ⟨rfl, rfl, fun _ => id, fun _ => rfl, fun _ _ => rfl⟩

theorem State.Leaves.trans (h : State.Leaves R s t) (h' : State.Leaves R t u) : State.Leaves R s u where
  frame := by rw [h'.frame, h.frame]
  pcie := by rw [h'.pcie, h.pcie]
  alerts n hn := h'.alerts n (h.alerts n hn)
  offAt p := (h'.offAt p).trans (h.offAt p)
  regs a ha := (h'.regs a ha).trans (h.regs a ha)

theorem State.Leaves.mono {R' : Nat → Prop} (h : State.Leaves R s t) (hR : ∀ a, R a → R' a) : State.Leaves R' s t :=
  ⟨h.frame, h.pcie, h.alerts, h.offAt, fun a ha => h.regs a fun hr => ha (hR a hr)⟩

theorem State.Tells.refl (R : Nat → Prop) (s : State) : State.Tells R s s := ⟨.refl R s, fun _ => rfl⟩

theorem State.Tells.trans (h : State.Tells R s t) (h' : State.Tells R t u) : State.Tells R s u :=
  ⟨h.toLeaves.trans h'.toLeaves, fun y => (h'.cmds y).trans (h.cmds y)⟩

theorem State.Tells.mono {R' : Nat → Prop} (h : State.Tells R s t) (hR : ∀ a, R a → R' a) : State.Tells R' s t :=
  ⟨h.toLeaves.mono hR, h.cmds⟩

end

/-! #### The parts left alone -/

section
variable {R : Nat → Prop} {s t : State} (h : State.Leaves R s t)
include h

theorem State.Leaves.cls : t.cls = s.cls := by rw [h.frame]
theorem State.Leaves.sy : t.sy = s.sy := by rw [h.frame]
theorem State.Leaves.mem : t.mem = s.mem := by rw [h.frame]
theorem State.Leaves.pages : t.pages = s.pages := by rw [h.frame]
theorem State.Leaves.rv : t.rv = s.rv := by rw [h.frame]
theorem State.Leaves.us : t.us = s.us := by rw [h.frame]
theorem State.Leaves.wt : t.wt = s.wt := by rw [h.frame]
theorem State.Leaves.sec : t.sec = s.sec := by rw [h.frame]
theorem State.Leaves.pw : t.pw = s.pw := by rw [h.frame]
theorem State.Leaves.boot : t.boot = s.boot := by rw [h.frame]
theorem State.Leaves.timebase : t.timebase = s.timebase := by rw [h.frame]
theorem State.Leaves.pll : t.pll = s.pll := by rw [h.frame]

theorem State.Leaves.domStopped (d : Nat) : t.domStopped d = s.domStopped d := by
  unfold State.domStopped
  rw [h.pw]

theorem State.Leaves.mayMaster (x : Nat) : t.mayMaster x = s.mayMaster x := by
  unfold State.mayMaster
  rw [h.domStopped, h.domStopped, h.pcie]

theorem State.Leaves.frozen (hR : ¬ R MG_DBG_CTRL) : t.frozen = s.frozen := by
  have := h.regs _ hR
  have hd : word (devReset MG_DBG_CTRL) = 0 := by decide
  unfold State.dr at this
  unfold State.frozen
  rw [hd] at this
  rw [this]

theorem State.Leaves.stage (hR : ¬ R MG_SU_STATUS) : t.stage = s.stage := by
  unfold State.stage
  rw [h.regs _ hR]

theorem State.Leaves.role (hR : ¬ R LK_RV_STATUS) : t.role = s.role := by
  unfold State.role
  rw [h.regs _ hR]

end

/-! #### The operations that report -/

theorem mem_nsIns_self (m : List Nat) (k : Nat) : k ∈ nsIns m k := by
  induction m with
  | nil => simp [nsIns]
  | cons j t ih => simp only [nsIns]; split_ifs <;> simp_all

theorem mem_nsIns_of_mem {m : List Nat} {k n : Nat} (h : n ∈ m) : n ∈ nsIns m k := by
  induction m with
  | nil => cases h
  | cons j t ih =>
    simp only [nsIns]
    split_ifs
    · exact List.mem_cons_of_mem _ h
    · exact h
    · obtain rfl | h := List.mem_cons.mp h
      · exact List.mem_cons_self
      · exact List.mem_cons_of_mem _ (ih h)

theorem State.cmds_modCx_of {s : State} {x : Nat} {f : CtxSt → CtxSt} (hf : ∀ y, (f y).cmds = y.cmds) (y : Nat) :
    (s.modCx x f).cmds y = s.cmds y := by
  unfold State.cmds
  by_cases hy : y = x
  · subst hy
    by_cases hlt : y < 16
    · rw [State.cx_modCx_same _ _ _ hlt, hf]
    · simp [State.cx, hlt]
  · rw [State.cx_modCx_other _ _ _ _ hy]

theorem State.port_modPort (s : State) (p q : Nat) (f : PortSt → PortSt) :
    (s.modPort p f).port q = if p = q ∧ p < 8 then f (s.port q) else s.port q := by
  unfold State.modPort State.port
  by_cases hp : p < 8
  · by_cases hq : q < 8
    · by_cases he : p = q
      · subst he; simp [hp]
      · simp [hp, hq, he]
    · simp [hp, hq, show ¬ p = q by omega]
  · simp [hp]

section
variable {R : Nat → Prop} {s t : State} (h : State.Leaves R s t)
include h

theorem State.Leaves.modCx {x : Nat} {f : CtxSt → CtxSt} : State.Leaves R s (t.modCx x f) := by
  refine h.trans ⟨?_, by simp, by simp, fun p => ?_, fun a _ => ?_⟩
  · unfold State.modCx; split <;> rfl
  · simp [State.port]
  · simp [State.dr]

theorem State.Leaves.modCmd {x : Nat} {k : Cmd} {f : Cmd → Cmd} : State.Leaves R s (t.modCmd x k f) := h.modCx

theorem State.Leaves.dropCmd {x : Nat} {k : Cmd} : State.Leaves R s (t.dropCmd x k) := h.modCx

end

section
variable {R : Nat → Prop} {s t : State} (h : State.Tells R s t)
include h

theorem State.Tells.dw {a v : Nat} (ha : R a) : State.Tells R s (t.dw a v) := by
  refine h.trans ⟨⟨rfl, rfl, fun _ => id, fun _ => rfl, fun b hb => ?_⟩, fun _ => rfl⟩
  exact State.dr_dw_other t a b v fun e => hb (e ▸ ha)

theorem State.Tells.dwf {a hi lo v : Nat} (ha : R a) : State.Tells R s (t.dwf a hi lo v) := h.dw ha

theorem State.Tells.ite {p : Prop} [Decidable p] {u : State} (h' : State.Tells R s u) :
    State.Tells R s (if p then t else u) := by
  split
  · exact h
  · exact h'

theorem State.Tells.dinc {a n : Nat} (ha : R a) : State.Tells R s (t.dinc a n) := .ite h (h.dw ha)

theorem State.Tells.dcap {a v val : Nat} (ha : R a) : State.Tells R s (t.dcap a v val) := .ite (h.dwf ha) (h.dw ha)

theorem State.Tells.foldl {α : Type} {l : List α} {f : State → α → State}
    (hf : ∀ u a, State.Tells R s u → State.Tells R s (f u a)) : State.Tells R s (l.foldl f t) :=
  List.foldlRecOn l f h fun u hu a _ => hf u a hu

theorem State.Tells.modCx {x : Nat} {f : CtxSt → CtxSt} (hf : ∀ y, (f y).cmds = y.cmds := by exact fun _ => rfl) :
    State.Tells R s (t.modCx x f) :=
  ⟨h.toLeaves.modCx, fun y => (State.cmds_modCx_of hf y).trans (h.cmds y)⟩

theorem State.Tells.putHost {pba : List Nat} {sent : List (Nat × Nat)} {held : List HeldWrite} {hostMem : List (Nat × Byte)} :
    State.Tells R s { t with pcie := { t.pcie with pba, sent, held }, hostMem } :=
  h.trans ⟨⟨rfl, rfl, fun _ => id, fun _ => rfl, fun _ _ => rfl⟩, fun _ => rfl⟩

theorem State.Tells.putLog {err : ErrLog} : State.Tells R s { t with err } :=
  h.trans ⟨⟨rfl, rfl, fun _ => id, fun _ => rfl, fun _ _ => rfl⟩, fun _ => rfl⟩

theorem State.Tells.alert {n : Nat} : State.Tells R s { t with mb := { t.mb with alerts := nsIns t.mb.alerts n } } :=
  h.trans ⟨⟨rfl, rfl, fun _ hm => mem_nsIns_of_mem hm, fun _ => rfl, fun _ _ => rfl⟩, fun _ => rfl⟩

theorem State.Tells.modPort {p : Nat} {f : PortSt → PortSt} (hf : ∀ q, (f q).offAt = q.offAt := by exact fun _ => rfl) :
    State.Tells R s (t.modPort p f) := by
  refine h.trans ⟨⟨?_, by simp, by simp, fun q => ?_, fun a _ => ?_⟩, fun y => ?_⟩
  · unfold State.modPort; split <;> rfl
  · rw [State.port_modPort]
    split
    · exact hf _
    · rfl
  · simp [State.dr]
  · simp [State.cmds, State.cx]

theorem State.Tells.modLink {k : Nat} {f : LinkSt → LinkSt} : State.Tells R s (t.modLink k f) := by
  refine h.trans ⟨⟨?_, by simp, by simp, fun q => ?_, fun a _ => ?_⟩, fun y => ?_⟩
  · unfold State.modLink; split <;> rfl
  · simp [State.port]
  · simp [State.dr]
  · simp [State.cmds, State.cx]

theorem State.Tells.hostWrite {fn a : Nat} {bs : List Byte} : State.Tells R s (t.hostWrite fn a bs) :=
  .ite h.putHost h.putHost

theorem State.Tells.msixSend {fn v : Nat} : State.Tells R s (t.msixSend fn v) := .ite (.ite h.putHost h.putHost) h.putHost

theorem State.Tells.msix {x v : Nat} : State.Tells R s (t.msix x v) := by
  dsimp only [State.msix]
  refine .ite h.msixSend ?_
  split
  · exact h.modCx
  · exact h.modCx.msixSend

theorem State.Tells.eventPut {x kind status time : Nat} {payload : List Byte} (hR : ∀ a, eventReg x a → R a) :
    State.Tells R s (t.eventPut x kind status time payload) :=
  ((h.hostWrite.dwf (hR _ (.inl rfl))).modCx.dinc (hR _ (.inr (.inl rfl)))).msix

theorem State.Tells.event {x kind status time : Nat} {payload : List Byte} (hR : ∀ a, eventReg x a → R a) :
    State.Tells R s (t.event x kind status time payload) := by
  have lost : R (cxReg MG_CX_CNT_EVLOST x) := hR _ (.inr (.inr rfl))
  exact .ite (h.dinc lost) (.ite (h.modCx.dinc lost) (.ite (h.eventPut hR)
    (.ite ((h.eventPut hR).modCx.eventPut hR) ((h.eventPut hR).modCx.modCx.dinc lost))))

theorem State.Tells.putErr {e : ErrRec} {time count : Nat} (hR : ∀ a, eventReg (e.ctx.getD 0) a → R a) :
    State.Tells R s (t.putErr e time count) :=
  h.putLog.event hR

theorem State.Tells.logErr {e : ErrRec} (hR : ∀ a, errReg (e.ctx.getD 0) a → R a) : State.Tells R s (t.logErr e) := by
  have hc : State.Tells R s (t.dinc (MG_EL_CNT + 8 * (e.source % 32)) 1) := h.dinc (hR _ (.inr (by omega)))
  have hp := hc.putErr (time := (t.dinc (MG_EL_CNT + 8 * (e.source % 32)) 1).timebase) (count := 1) fun a ha => hR a (.inl ha)
  exact .ite hc (.ite hp (.ite hc.putLog hp.putLog))

theorem State.Tells.enqueue {p : Nat} {f : Frame} : State.Tells R s (t.enqueue p f) := h.modPort

theorem State.Tells.sendMgmt {dst : Nat} {msg : List Byte} (hR : ∀ a, sendReg a → R a) :
    State.Tells R s (t.sendMgmt dst msg) := by
  dsimp only [State.sendMgmt]
  split
  · exact (h.dinc (hR _ (.inr rfl))).logErr fun a ha => hR a (.inl ha)
  · exact h.foldl fun _ _ hu => hu.enqueue

theorem State.Tells.hostRecord {x a : Nat} {bs : List Byte} : State.Tells R s (t.hostRecord x a bs) := .ite h.hostWrite h.putHost

theorem State.Tells.writeReply {x op status seq tag chip : Nat} {noirq : Bool} {result : List Byte}
    {conts : List (List Byte)} (hR : ∀ a, replyReg x a → R a) :
    State.Tells R s (t.writeReply x op status seq tag chip noirq result conts) := by
  unfold State.writeReply
  extract_lets i logn phase s1 s2 s3 s4 s5
  have h3 : State.Tells R s s3 := (h.foldl fun _ _ hu => hu.hostWrite).hostRecord.dwf (hR _ (.inr (.inl rfl)))
  have h5 : State.Tells R s s5 := (h3.dinc (hR _ (.inr (.inr (.inl rfl))))).dinc (hR _ (.inr (.inr (.inr rfl))))
  exact .ite h (.ite h5 h5.msix)

theorem State.Tells.answer {x : Nat} {k : Cmd} {status : Nat} {result : List Byte} {conts : List (List Byte)}
    (hR : ∀ a, replyReg x a → R a) : State.Tells R s (t.answer x k status result conts) := by
  unfold State.answer
  split
  · exact h.sendMgmt fun a ha => hR a (.inl ha)
  · exact .ite h (h.writeReply hR)

end

theorem State.Leaves.tells {R : Nat → Prop} {s t u : State} (h : State.Leaves R s t) (h' : State.Tells R t u) :
    State.Leaves R s u := h.trans h'.toLeaves

theorem State.Leaves.reply {R : Nat → Prop} {s t : State} (h : State.Leaves R s t) {x : Nat} {k : Cmd} {status : Nat}
    {result : List Byte} {conts : List (List Byte)} (hR : ∀ a, replyReg x a → R a) :
    State.Leaves R s (t.reply x k status result conts) :=
  h.dropCmd.tells (.answer (.refl R _) hR)

end Sys2Proof.Machine
end

/-! ### The power governor -/

section
namespace Sys2Proof.Machine

/-! #### Registers of the contexts' pages and of the error counters -/

/-- Registers that reports and replies change: the pages of the contexts, the error counters, and that of frames without a
route. -/
def reportReg (a : Nat) : Prop :=
  (MG_CX_CTRL ≤ a ∧ a < MG_CX_CTRL + 0x10000) ∨ (MG_EL_CNT ≤ a ∧ a < MG_EL_CNT + 256) ∨ a = LK_RV_CNT_NOROUTE

theorem reportReg_of_eventReg {x a : Nat} (hx : x < 16) (h : eventReg x a) : reportReg a := by
  left
  simp only [eventReg, cxReg, MG_CX_ERHEAD, MG_CX_CNT_EVENTS, MG_CX_CNT_EVLOST] at h
  simp only [MG_CX_CTRL]
  omega

theorem reportReg_of_errReg {x a : Nat} (hx : x < 16) (h : errReg x a) : reportReg a := by
  obtain h | h := h
  · exact reportReg_of_eventReg hx h
  · exact .inr (.inl h)

theorem reportReg_of_sendReg {a : Nat} (h : sendReg a) : reportReg a := by
  obtain h | h := h
  · exact reportReg_of_errReg (by decide) h
  · exact .inr (.inr h)

theorem reportReg_of_replyReg {x a : Nat} (hx : x < 16) (h : replyReg x a) : reportReg a := by
  obtain h | h := h
  · exact reportReg_of_sendReg h
  · left
    simp only [cxReg, MG_CX_RRHEAD, MG_CX_CNT_REPLIES, MG_CX_CNT_MALFORMED] at h
    simp only [MG_CX_CTRL]
    omega

/-! #### What the governor shows -/

theorem State.powerEvent_tells (s : State) : State.Tells reportReg s s.powerEvent :=
  (State.Tells.refl _ s).event fun _ h => reportReg_of_eventReg (by decide) h

/-- The register that shows the governor, and those that reports change. -/
def govReg (a : Nat) : Prop := a = PW_GOV_STATUS ∨ reportReg a

theorem State.putGov_tells (s : State) (v : Nat) : State.Tells govReg s (s.putGov v) := by
  have h : State.Tells govReg s (s.dw PW_GOV_STATUS v) := (State.Tells.refl _ s).dw (.inl rfl)
  have h2 := h.alert (n := 3) |>.ite h (p := (List.range 4).any (fun n => bit (bits v 11 8) n
    && !(bit (bits (s.dr PW_GOV_STATUS) 11 8) n)) = true)
  exact .ite h2 (h2.trans ((State.powerEvent_tells _).mono fun _ => .inr))

theorem State.putGov_gov (s : State) (v : Nat) : (s.putGov v).dr PW_GOV_STATUS = v % 2 ^ 64 := by
  unfold State.putGov
  extract_lets s1 old new gained _ s2
  have h2 : s2.dr PW_GOV_STATUS = v % 2 ^ 64 := by
    rw [← State.dr_dw_same s PW_GOV_STATUS v]
    by_cases hg : gained = true
    · rw [show s2 = _ from if_pos hg]
      rfl
    · rw [show s2 = _ from if_neg hg]
  split
  · exact h2
  · rw [(State.powerEvent_tells s2).regs _ (by unfold reportReg; decide), h2]

theorem State.putGov_hostOnly (s : State) (v : Nat) : Claims.HostOnly s (s.putGov v) := by
  have h := s.putGov_tells v
  exact ⟨h.cls, h.mem, h.pages, h.sy, h.wt, h.rv, h.us, h.pw, h.boot⟩

theorem State.putGov_pw (s : State) (v : Nat) : (s.putGov v).pw = s.pw := by
  obtain ⟨-, -, -, -, -, -, -, hpw, -⟩ := s.putGov_hostOnly v
  exact hpw

theorem govWord_lt {g : Nat} (hg : g < 2 ^ 64) (v h : Nat) (l : Bool) : govWord g v h l < 2 ^ 64 :=
  setBits_lt _ (by decide) (setBits_lt _ (by decide) (setBits_lt _ (by decide) hg (by decide)) (by decide)) (by decide)

theorem bits_govWord_volt (g v h : Nat) (l : Bool) : bits (govWord g v h l) 6 0 = v % 128 := by
  simp [govWord, bits_setBits_other]

theorem bit_govWord_cap (g v h : Nat) (l : Bool) : bit (govWord g v h l) 8 = l := by
  simp [govWord, bit_setBits_other]

theorem bits_govWord_hbm (g v h : Nat) (l : Bool) : bits (govWord g v h l) 20 16 = h % 32 := by
  simp [govWord]

/-- The word that shows what it shows already. -/
theorem govWord_self (g : Nat) : govWord g (bits g 6 0) (bits g 20 16) (bit g 8) = g := by
  unfold govWord
  rw [setBits_bits g 6 0 (by decide), ← bit_eq_bits, setBits_bits g 8 8 (by decide), setBits_bits g 20 16 (by decide)]

/-! #### The governor's tick (R708, R715) -/

/-- The average of the samples is above the cap. -/
def State.overCap (s : State) : Bool := decide (s.pw.capNow * s.pw.samples.length < s.pw.sum)

/-- The average of the samples is below 98 % of the cap. -/
def State.underCap (s : State) : Bool := decide (s.pw.sum * 100 < 98 * s.pw.capNow * s.pw.samples.length)

/-- The highest core voltage that the control register and the thermal rule allow. -/
def State.voltLimit (s : State) (v : Nat) : Nat :=
  match s.thermNext v with | some w => min (bits (s.dr PW_VCTRL) 6 0) w | none => bits (s.dr PW_VCTRL) 6 0

/-- The core voltage that the cap asks for after a tick, from a voltage and a limit of HBM. -/
def State.capVolt (s : State) (v h : Nat) : Nat :=
  if s.overCap then v - 1 else if s.underCap && h == 16 && decide (v < s.voltLimit v) then v + 1 else v

/-- The core voltage after a tick. -/
def State.tickVolt (s : State) (v h : Nat) : Nat :=
  match s.thermNext v with | some w => min (s.capVolt v h) w | none => s.capVolt v h

/-- The limit of HBM after a tick. -/
def State.tickHbm (s : State) (v h : Nat) : Nat :=
  if s.overCap && v == 0 then max 1 (h - 1) else if !s.overCap && s.underCap && decide (h < 16) then h + 1 else h

/-- LCAP after a tick. -/
def State.tickCap (s : State) (v h : Nat) : Bool :=
  s.overCap || (bit (s.dr PW_GOV_STATUS) 8 && !(s.underCap && h == 16 && decide (s.voltLimit v ≤ v)))

theorem execGovernorTick_eq {s : State} {v h : Nat} (hv : v = bits (s.dr PW_GOV_STATUS) 6 0)
    (hh : h = bits (s.dr PW_GOV_STATUS) 20 16) (hon : s.pw.on = true) (hc : s.pw.clamp = false)
    (hn : 0 < s.pw.samples.length) :
    execGovernorTick s = .next (({ s with pw := { s.pw with thermV := s.thermNext v } } : State).putGov
      (govWord (s.dr PW_GOV_STATUS) (s.tickVolt v h) (s.tickHbm v h) (s.tickCap v h))) := by
  subst hv hh
  have hne : s.pw.samples.isEmpty = false := by
    rw [List.isEmpty_eq_false_iff]
    exact List.ne_nil_of_length_pos hn
  unfold execGovernorTick
  rw [if_neg (by simp [hon, hc, hne])]
  rfl

theorem State.not_underCap_of_overCap {s : State} (h : s.overCap = true) : s.underCap = false := by
  simp only [State.overCap, State.underCap, decide_eq_true_eq, decide_eq_false_iff_not] at h ⊢
  rw [Nat.mul_assoc]
  omega

theorem State.tickVolt_le_therm {s : State} {v h w : Nat} (hw : s.thermNext v = some w) : s.tickVolt v h ≤ w := by
  unfold State.tickVolt
  rw [hw]
  exact Nat.min_le_right _ _

theorem State.tickVolt_of_no_therm {s : State} {v h : Nat} (hw : s.thermNext v = none) : s.tickVolt v h = s.capVolt v h := by
  unfold State.tickVolt
  rw [hw]

theorem State.voltLimit_of_no_therm {s : State} {v : Nat} (hw : s.thermNext v = none) :
    s.voltLimit v = bits (s.dr PW_VCTRL) 6 0 := by
  unfold State.voltLimit
  rw [hw]

theorem State.tickVolt_over {s : State} {v h : Nat} (ho : s.overCap = true) : s.tickVolt v h ≤ v - 1 := by
  have hc : s.capVolt v h = v - 1 := if_pos ho
  unfold State.tickVolt
  rw [hc]
  split
  · exact Nat.min_le_left _ _
  · exact Nat.le_refl _

/-- R715: without LTHERM the thermal rule asks nothing. -/
theorem State.thermNext_of_clear {s : State} (hg : bit (s.dr PW_GOV_STATUS) 9 = false) (v : Nat) : s.thermNext v = none := by
  unfold State.thermNext
  rw [if_neg (by simp [hg])]

end Sys2Proof.Machine
end
section
namespace Sys2Proof.Machine

open Claims

theorem execCapTakesEffect_spec (s : State) (hon : s.pw.on = true) (hc : s.effCap ≠ s.pw.capNow) :
    ∃ t, exec .capTakesEffect s = .next t ∧ t.pw = { s.pw with capNow := s.effCap } ∧ t.cls = s.cls ∧ t.mem = s.mem := by
  have he : exec .capTakesEffect s = .next ({ s with pw := { s.pw with capNow := s.effCap } } : State).powerEvent :=
    if_pos (by simp [hon, hc])
  have h := State.powerEvent_tells { s with pw := { s.pw with capNow := s.effCap } }
  exact ⟨_, he, h.pw, h.cls, h.mem⟩

theorem hostOnly_trans {s t u : State} (h : HostOnly s t) (h' : HostOnly t u) : HostOnly s u := by
  obtain ⟨h1, h2, h3, h4, h5, h6, h7, h8, h9⟩ := h
  obtain ⟨k1, k2, k3, k4, k5, k6, k7, k8, k9⟩ := h'
  exact ⟨k1.trans h1, k2.trans h2, k3.trans h3, k4.trans h4, k5.trans h5, k6.trans h6, k7.trans h7, k8.trans h8, k9.trans h9⟩

theorem State.hostOnly_dinc (s : State) (a n : Nat) : HostOnly s (s.dinc a n) := by
  simp [HostOnly]

/-- R707, R712, R720, R721: a sample changes the power block, PW_STATUS, and the counter of energy. -/
theorem execPowerSample_eq (s : State) (vin : Byte) (watts ma : BitVec 16) (hon : s.pw.on = true) :
    ∃ p : Power, p.samples = (watts.toNat :: s.pw.samples).take 100 ∧ p.capNow = s.pw.capNow
      ∧ p.uj = (s.pw.uj + watts.toNat) % 1000
      ∧ p.clampAt = (if s.pw.clamp then (if ma.toNat < 32000 then some (s.pw.clampAt.getD s.pw.uptime) else none)
          else s.pw.clampAt)
      ∧ exec (.powerSample vin watts ma) s = .next ((({ s with pw := p } : State).dw PW_STATUS
          (setBits (setBits (setBits (s.dr PW_STATUS) 15 8 vin.toNat) 31 16 (p.sum / p.samples.length)) 47 32 ma.toNat)).dinc
            PW_CNT_ENERGY ((s.pw.uj + watts.toNat) / 1000)) := by
  have hne : ¬ s.pw.on = false := by simp [hon]
  have he : exec (.powerSample vin watts ma) s = execPowerSample vin watts ma s := rfl
  rw [he]
  unfold execPowerSample
  rw [if_neg hne]
  extract_lets p0 samples uj below clampAt p s' w
  have hclamp : p.clampAt = (if s.pw.clamp then
      (if ma.toNat < 32000 then some (s.pw.clampAt.getD s.pw.uptime) else none) else s.pw.clampAt) := by
    change (if (s.pw.clamp && decide (ma.toNat < 32000)) = true then some (s.pw.clampAt.getD s.pw.uptime)
      else if s.pw.clamp = true then none else s.pw.clampAt) = _
    by_cases hc : s.pw.clamp = true <;> by_cases hlow : ma.toNat < 32000 <;> simp [hc, hlow]
  have hs : p.samples = (watts.toNat :: s.pw.samples).take 100 := rfl
  have hcap : p.capNow = s.pw.capNow := rfl
  have huj : p.uj = (s.pw.uj + watts.toNat) % 1000 := rfl
  clear_value p
  exact ⟨p, hs, hcap, huj, hclamp, rfl⟩

theorem execPowerSample_spec (s : State) (vin : Byte) (watts ma : BitVec 16) (hon : s.pw.on = true) :
    ∃ t, exec (.powerSample vin watts ma) s = .next t ∧ HostOnly { s with pw := t.pw } t
      ∧ t.pw.samples = (watts.toNat :: s.pw.samples).take 100 ∧ t.pw.capNow = s.pw.capNow
      ∧ bits (t.dr PW_STATUS) 15 8 = vin.toNat ∧ bits (t.dr PW_STATUS) 47 32 = ma.toNat
      ∧ bits (t.dr PW_STATUS) 31 16 = t.pw.sum / t.pw.samples.length % 65536
      ∧ bits (t.dr PW_STATUS) 7 0 = bits (s.dr PW_STATUS) 7 0
      ∧ t.pw.uj = (s.pw.uj + watts.toNat) % 1000
      ∧ (s.frozen = false → t.dr PW_CNT_ENERGY = (s.dr PW_CNT_ENERGY + (s.pw.uj + watts.toNat) / 1000) % 2 ^ 48)
      ∧ t.pw.clampAt = (if s.pw.clamp then (if ma.toNat < 32000 then some (s.pw.clampAt.getD s.pw.uptime) else none)
          else s.pw.clampAt) := by
  obtain ⟨p, hs, hcap, huj, hclamp, he⟩ := execPowerSample_eq s vin watts ma hon
  generalize hw : setBits (setBits (setBits (s.dr PW_STATUS) 15 8 vin.toNat) 31 16 (p.sum / p.samples.length)) 47 32 ma.toNat
    = w at he
  have hlt : w < 2 ^ 64 := by
    rw [← hw]
    exact setBits_lt _ (by decide) (setBits_lt _ (by decide) (setBits_lt _ (by decide) (s.dr_lt _) (by decide)) (by decide))
      (by decide)
  generalize hu : (({ s with pw := p } : State).dw PW_STATUS w) = u at he
  have hst : (u.dinc PW_CNT_ENERGY ((s.pw.uj + watts.toNat) / 1000)).dr PW_STATUS = w := by
    rw [State.dr_dinc_other _ _ (by decide), ← hu, State.dr_dw_same, Nat.mod_eq_of_lt hlt]
  have hpw : (u.dinc PW_CNT_ENERGY ((s.pw.uj + watts.toNat) / 1000)).pw = p := by
    rw [State.dinc_pw, ← hu]
    rfl
  have hv : vin.toNat < 256 := vin.isLt
  have hm : ma.toNat < 65536 := ma.isLt
  refine ⟨_, he, ?_, by rw [hpw, hs], by rw [hpw, hcap], ?_, ?_, ?_, ?_, by rw [hpw, huj], fun hf => ?_, by rw [hpw, hclamp]⟩
  · rw [hpw]
    have hdw : HostOnly ({ s with pw := p } : State) u := hu ▸ ⟨rfl, rfl, rfl, rfl, rfl, rfl, rfl, rfl, rfl⟩
    exact hostOnly_trans hdw (State.hostOnly_dinc u _ _)
  · rw [hst, ← hw, bits_setBits_other _ _ (by decide) (by decide), bits_setBits_other _ _ (by decide) (by decide),
      bits_setBits_same _ _ (by decide), Nat.mod_eq_of_lt (by simpa using hv)]
  · rw [hst, ← hw, bits_setBits_same _ _ (by decide), Nat.mod_eq_of_lt (by simpa using hm)]
  · rw [hst, hpw, ← hw, bits_setBits_other _ _ (by decide) (by decide), bits_setBits_same _ _ (by decide),
      show (2 : Nat) ^ (31 + 1 - 16) = 65536 by decide]
  · rw [hst, ← hw, bits_setBits_other _ _ (by decide) (by decide), bits_setBits_other _ _ (by decide) (by decide),
      bits_setBits_other _ _ (by decide) (by decide)]
  · have huf : u.frozen = false := by
      rw [← hu, State.frozen_dw _ _ (by decide)]
      exact hf
    have hd : ({ s with pw := p } : State).dr PW_CNT_ENERGY = s.dr PW_CNT_ENERGY := rfl
    rw [State.dr_dinc_same _ _ _ huf, ← hu, State.dr_dw_other _ _ _ _ (by decide), hd]

theorem execGovernorTick_spec (s : State) (g n v h : Nat) (hon : s.pw.on = true) (hc : s.pw.clamp = false)
    (hg : g = s.dr PW_GOV_STATUS) (hn : n = s.pw.samples.length) (hpos : 0 < n) (hv : v = bits g 6 0) (hh : h = bits g 20 16) :
    ∃ t, exec .governorTick s = .next t ∧ HostOnly { s with pw := t.pw } t ∧ t.pw.capNow = s.pw.capNow
      ∧ (∀ w, s.thermNext v = some w → bits (t.dr PW_GOV_STATUS) 6 0 ≤ w)
      ∧ (s.pw.capNow * n < s.pw.sum → bits (t.dr PW_GOV_STATUS) 6 0 ≤ v - 1 ∧ bit (t.dr PW_GOV_STATUS) 8 = true
          ∧ bits (t.dr PW_GOV_STATUS) 20 16 = if v = 0 then max 1 (h - 1) else h)
      ∧ (bit g 9 = false → 98 * s.pw.capNow * n ≤ s.pw.sum * 100 → s.pw.sum ≤ s.pw.capNow * n →
          t.dr PW_GOV_STATUS = g)
      ∧ (bit g 9 = false → s.pw.sum * 100 < 98 * s.pw.capNow * n → h < 16 →
          bits (t.dr PW_GOV_STATUS) 6 0 = v ∧ bits (t.dr PW_GOV_STATUS) 20 16 = h + 1)
      ∧ (bit g 9 = false → s.pw.sum * 100 < 98 * s.pw.capNow * n → h = 16 →
          bits (t.dr PW_GOV_STATUS) 6 0 = (if v < bits (s.dr PW_VCTRL) 6 0 then v + 1 else v)
          ∧ (bits (s.dr PW_VCTRL) 6 0 ≤ v → bit (t.dr PW_GOV_STATUS) 8 = false)) := by
  subst hg hn
  have he := execGovernorTick_eq hv hh hon hc hpos
  generalize hu : ({ s with pw := { s.pw with thermV := s.thermNext v } } : State) = u at he
  have hdr : (u.putGov (govWord (s.dr PW_GOV_STATUS) (s.tickVolt v h) (s.tickHbm v h) (s.tickCap v h))).dr PW_GOV_STATUS
      = govWord (s.dr PW_GOV_STATUS) (s.tickVolt v h) (s.tickHbm v h) (s.tickCap v h) := by
    rw [State.putGov_gov, Nat.mod_eq_of_lt (govWord_lt (s.dr_lt _) _ _ _)]
  have hpw := u.putGov_pw (govWord (s.dr PW_GOV_STATUS) (s.tickVolt v h) (s.tickHbm v h) (s.tickCap v h))
  have hvlt : v < 128 := hv ▸ bits_lt _ 6 0
  have hhlt : h < 32 := hh ▸ bits_lt _ 20 16
  have htop : bits (s.dr PW_VCTRL) 6 0 < 128 := bits_lt _ 6 0
  refine ⟨_, he, ?_, by rw [hpw, ← hu], fun w hw => ?_, fun ho => ?_, fun h9 hlow hhigh => ?_, fun h9 hlow hlt => ?_,
    fun h9 hlow h16 => ?_⟩
  · rw [hpw]
    have := u.putGov_hostOnly (govWord (s.dr PW_GOV_STATUS) (s.tickVolt v h) (s.tickHbm v h) (s.tickCap v h))
    rwa [← hu] at this ⊢
  · rw [hdr, bits_govWord_volt]
    exact Nat.le_trans (Nat.mod_le _ _) (State.tickVolt_le_therm hw)
  · have hov : s.overCap = true := decide_eq_true ho
    rw [hdr, bits_govWord_volt, bit_govWord_cap, bits_govWord_hbm]
    refine ⟨Nat.le_trans (Nat.mod_le _ _) (State.tickVolt_over hov), by simp [State.tickCap, hov], ?_⟩
    have hhb : s.tickHbm v h = if v = 0 then max 1 (h - 1) else h := by simp [State.tickHbm, hov]
    rw [hhb, Nat.mod_eq_of_lt]
    split <;> omega
  · have hov : s.overCap = false := decide_eq_false (Nat.not_lt.mpr hhigh)
    have hun : s.underCap = false := decide_eq_false (Nat.not_lt.mpr hlow)
    have hvolt : s.tickVolt v h = v := by
      rw [State.tickVolt_of_no_therm (State.thermNext_of_clear h9 v)]
      simp [State.capVolt, hov, hun]
    have hhb : s.tickHbm v h = h := by simp [State.tickHbm, hov, hun]
    have hcap : s.tickCap v h = bit (s.dr PW_GOV_STATUS) 8 := by simp [State.tickCap, hov, hun]
    rw [hdr, hvolt, hhb, hcap, hv, hh, govWord_self]
  · have hun : s.underCap = true := decide_eq_true hlow
    have hov : s.overCap = false := by
      by_contra ho
      simp [State.not_underCap_of_overCap (by simpa using ho)] at hun
    have hvolt : s.tickVolt v h = v := by
      rw [State.tickVolt_of_no_therm (State.thermNext_of_clear h9 v)]
      simp [State.capVolt, hov, Nat.ne_of_lt hlt]
    have hhb : s.tickHbm v h = h + 1 := by simp [State.tickHbm, hov, hun, hlt]
    rw [hdr, bits_govWord_volt, bits_govWord_hbm, hvolt, hhb]
    exact ⟨Nat.mod_eq_of_lt hvlt, Nat.mod_eq_of_lt (by omega)⟩
  · have hun : s.underCap = true := decide_eq_true hlow
    have hov : s.overCap = false := by
      by_contra ho
      simp [State.not_underCap_of_overCap (by simpa using ho)] at hun
    have hth := State.thermNext_of_clear h9 v
    have hvolt : s.tickVolt v h = if v < bits (s.dr PW_VCTRL) 6 0 then v + 1 else v := by
      rw [State.tickVolt_of_no_therm hth, State.capVolt, State.voltLimit_of_no_therm hth]
      simp [hov, hun, h16]
    rw [hdr, bits_govWord_volt, bit_govWord_cap, hvolt]
    refine ⟨Nat.mod_eq_of_lt (by split <;> omega), fun hle => ?_⟩
    rw [State.tickCap, State.voltLimit_of_no_therm hth]
    simp [hov, hun, h16, hle]

/-! #### Over-current (R712, R713) -/

theorem State.powerRec_tells (s : State) (cls cause unit : Nat) : State.Tells reportReg s (s.powerRec cls cause unit) :=
  (State.Tells.refl _ s).logErr fun _ h => reportReg_of_errReg (x := 0) (by decide) h

/-- PW_GOV_STATUS under the clamp: the lowest voltage, LOC, and HBM at 1. -/
def clampWord (g : Nat) : Nat := setBits (setBits (setBits g 6 0 0) 11 11 1) 20 16 1

theorem clampWord_lt {g : Nat} (hg : g < 2 ^ 64) : clampWord g < 2 ^ 64 :=
  setBits_lt _ (by decide) (setBits_lt _ (by decide) (setBits_lt _ (by decide) hg (by decide)) (by decide)) (by decide)

theorem execOvercurrentClamp_spec (s : State) (hon : s.pw.on = true) (hc : s.pw.clamp = false) :
    ∃ t, exec .overcurrentClamp s = .next t ∧ t.pw.clamp = true ∧ t.pw.clampFrom = s.pw.uptime
      ∧ bits (t.dr PW_GOV_STATUS) 6 0 = 0 ∧ bit (t.dr PW_GOV_STATUS) 11 = true ∧ bits (t.dr PW_GOV_STATUS) 20 16 = 1
      ∧ t.cls = s.cls ∧ t.mem = s.mem
      ∧ (s.frozen = false → t.dr PW_CNT_OCCLAMP = (s.dr PW_CNT_OCCLAMP + 1) % 2 ^ 48) := by
  have he : exec .overcurrentClamp s = .next (((({ s with
      pw := { s.pw with clamp := true, clampFrom := s.pw.uptime, clampAt := none } } : State).putGov
        (clampWord (s.dr PW_GOV_STATUS))).dinc PW_CNT_OCCLAMP 1).powerRec INFO 5 0xFFFF) := if_neg (by simp [hon, hc])
  generalize hp : ({ s.pw with clamp := true, clampFrom := s.pw.uptime, clampAt := none } : Power) = p at he
  have hclamp : p.clamp = true := by rw [← hp]
  have hfrom : p.clampFrom = s.pw.uptime := by rw [← hp]
  generalize hu : ({ s with pw := p } : State).putGov (clampWord (s.dr PW_GOV_STATUS)) = u at he
  have hg := ({ s with pw := p } : State).putGov_tells (clampWord (s.dr PW_GOV_STATUS))
  rw [hu] at hg
  have ht := (u.dinc PW_CNT_OCCLAMP 1).powerRec_tells INFO 5 0xFFFF
  have hgov : ((u.dinc PW_CNT_OCCLAMP 1).powerRec INFO 5 0xFFFF).dr PW_GOV_STATUS = clampWord (s.dr PW_GOV_STATUS) := by
    rw [ht.regs _ (by unfold reportReg; decide), State.dr_dinc_other _ _ (by decide), ← hu, State.putGov_gov,
      Nat.mod_eq_of_lt (clampWord_lt (s.dr_lt _))]
  have hpw : ((u.dinc PW_CNT_OCCLAMP 1).powerRec INFO 5 0xFFFF).pw = p := by
    rw [ht.pw, State.dinc_pw, hg.pw]
  refine ⟨_, he, by rw [hpw, hclamp], by rw [hpw, hfrom], ?_, ?_, ?_, ?_, ?_, fun hf => ?_⟩
  · simp [hgov, clampWord, bits_setBits_other]
  · rw [hgov, clampWord, bit_setBits_other _ _ (by decide) (by decide), bit_setBits_same]
    rfl
  · simp [hgov, clampWord]
  · rw [ht.cls, State.dinc_cls, hg.cls]
  · rw [ht.mem, State.dinc_mem, hg.mem]
  · have hfz : u.frozen = false := by
      rw [hg.frozen (by unfold govReg reportReg; decide)]
      exact hf
    have hd : u.dr PW_CNT_OCCLAMP = s.dr PW_CNT_OCCLAMP := by
      rw [hg.regs _ (by unfold govReg reportReg; decide)]
      rfl
    rw [ht.regs _ (by unfold reportReg; decide), State.dr_dinc_same _ _ _ hfz, hd]

theorem execClampRelease_spec (s : State) (n : Nat) (hc : s.pw.clamp = true) (hat : s.pw.clampAt = some n)
    (hn : n + 1000000 ≤ s.pw.uptime) :
    ∃ t, exec .clampRelease s = .next t ∧ t.pw.clamp = false ∧ bit (t.dr PW_GOV_STATUS) 11 = false
      ∧ bits (t.dr PW_GOV_STATUS) 6 0 = bits (s.dr PW_GOV_STATUS) 6 0 ∧ t.cls = s.cls ∧ t.mem = s.mem := by
  have he : exec .clampRelease s = .next (({ s with pw := { s.pw with clamp := false, clampAt := none } } : State).putGov
      (setBits (s.dr PW_GOV_STATUS) 11 11 0)) := by
    change execClampRelease s = _
    unfold execClampRelease
    rw [hat]
    exact if_pos (by simp [hc, hn])
  generalize hp : ({ s.pw with clamp := false, clampAt := none } : Power) = p at he
  have hclamp : p.clamp = false := by rw [← hp]
  have hgov : (({ s with pw := p } : State).putGov (setBits (s.dr PW_GOV_STATUS) 11 11 0)).dr PW_GOV_STATUS
      = setBits (s.dr PW_GOV_STATUS) 11 11 0 := by
    rw [State.putGov_gov, Nat.mod_eq_of_lt (setBits_lt _ (by decide) (s.dr_lt _) (by decide))]
  have hg := ({ s with pw := p } : State).putGov_tells (setBits (s.dr PW_GOV_STATUS) 11 11 0)
  refine ⟨_, he, ?_, ?_, ?_, hg.cls, hg.mem⟩
  · rw [State.putGov_pw]
    exact hclamp
  · rw [hgov, bit_setBits_same]
    rfl
  · rw [hgov, bits_setBits_other _ _ (by decide) (by decide)]

theorem execInputSwitchOpen_spec (s : State) (hc : s.pw.clamp = true) (hat : s.pw.clampAt = none)
    (hn : s.pw.clampFrom + 1000000 ≤ s.pw.uptime) :
    ∃ t, exec .inputSwitchOpen s = .next t ∧ t.pw.on = false ∧ t.pw.isOpen = true ∧ t.pw.tripOc = true ∧ 2 ∈ t.mb.alerts
      ∧ t.pw.opened = (s.pw.uptime :: s.pw.opened).take 3 ∧ t.mem = {} ∧ t.sec.lc = s.sec.lc :=
  ⟨_, if_pos (by simp [hc, hat, hn]), rfl, rfl, rfl, mem_nsIns_self _ _, rfl, rfl, rfl⟩

theorem execInputSwitchClose_spec (s : State) (ho : s.pw.isOpen = true)
    (hn : s.pw.opened.headD 0 + 1000000000 ≤ s.pw.uptime) :
    exec .inputSwitchClose s = .next (if s.pw.stuckOpen then s else { s with pw := { s.pw with isOpen := false } }) := by
  have hdue : decide (s.pw.opened.headD 0 + 1000000000 ≤ s.pw.uptime) = true := decide_eq_true hn
  change whenever _ (s.pw.isOpen && decide (s.pw.opened.headD 0 + 1000000000 ≤ s.pw.uptime) && !s.pw.stuckOpen) _ = _
  rw [ho, hdue, whenever]
  cases s.pw.stuckOpen <;> rfl

/-- Settles O45: each change of the governor is one word of PW_GOV_STATUS, whose fields are read off; reports of it leave
the compute side alone. -/
theorem theGovernorHoldsTheCap : Obligations.TheGovernorHoldsTheCap :=
  ⟨execCapTakesEffect_spec, execPowerSample_spec, execGovernorTick_spec, execOvercurrentClamp_spec, execClampRelease_spec,
    execInputSwitchOpen_spec, execInputSwitchClose_spec⟩

end Sys2Proof.Machine
end

/-! ### Starting up -/

section
namespace Sys2Proof.Machine

open Claims

/-! #### Stages and failed steps -/

/-- Registers that entering a stage changes: those of start-up, and those of reports. -/
def stageReg (a : Nat) : Prop := (MG_SU_STATUS ≤ a ∧ a < MG_SU_STAGETIME + 32) ∨ reportReg a

/-- The state that shows stage n, before the event that tells it. -/
def State.stageMarked (s : State) (n : Nat) : State :=
  let t := (s.dwf MG_SU_STATUS 2 0 n).dw (MG_SU_STAGETIME + 8 * n) s.timebase
  { t with mb := { t.mb with alerts := nsIns t.mb.alerts 1 } }

theorem State.enterStage_eq (s : State) (n : Nat) :
    s.enterStage n = (s.stageMarked n).event 0 4 0 s.timebase
      [BitVec.ofNat 8 n, BitVec.ofNat 8 (bits ((s.stageMarked n).dr MG_SU_STATUS) 3 3)] := rfl

theorem State.stageMarked_tells (s : State) {n : Nat} (hn : n < 4) : State.Tells stageReg s (s.stageMarked n) :=
  (((State.Tells.refl _ s).dwf (.inl (by decide))).dw (.inl (by simp only [MG_SU_STATUS, MG_SU_STAGETIME]; omega))).alert

theorem State.stageMarked_status (s : State) {n : Nat} : (s.stageMarked n).dr MG_SU_STATUS = setBits (s.dr MG_SU_STATUS) 2 0 n := by
  have hne : MG_SU_STATUS ≠ MG_SU_STAGETIME + 8 * n := by simp only [MG_SU_STATUS, MG_SU_STAGETIME]; omega
  have h : ((s.dwf MG_SU_STATUS 2 0 n).dw (MG_SU_STAGETIME + 8 * n) s.timebase).dr MG_SU_STATUS
      = setBits (s.dr MG_SU_STATUS) 2 0 n := by
    rw [State.dr_dw_other _ _ _ _ hne, State.dr_dwf_same _ _ _ (by decide) (by decide)]
  exact h

theorem State.stageMarked_dr (s : State) {n a : Nat} (hs : a ≠ MG_SU_STATUS) (ht : a ≠ MG_SU_STAGETIME + 8 * n) :
    (s.stageMarked n).dr a = s.dr a := by
  have h : ((s.dwf MG_SU_STATUS 2 0 n).dw (MG_SU_STAGETIME + 8 * n) s.timebase).dr a = s.dr a := by
    rw [State.dr_dw_other _ _ _ _ ht, State.dr_dwf_other _ _ _ _ hs]
  exact h

theorem State.enterStage_tells (s : State) {n : Nat} (hn : n < 4) : State.Tells stageReg s (s.enterStage n) :=
  (s.stageMarked_tells hn).event fun _ h => .inr (reportReg_of_eventReg (by decide) h)

theorem State.enterStage_status (s : State) {n : Nat} : (s.enterStage n).dr MG_SU_STATUS = setBits (s.dr MG_SU_STATUS) 2 0 n := by
  have h : State.Tells reportReg (s.stageMarked n) (s.enterStage n) :=
    (State.Tells.refl _ _).event fun _ h => reportReg_of_eventReg (by decide) h
  rw [h.regs _ (by unfold reportReg; decide), s.stageMarked_status]

theorem State.enterStage_stage (s : State) {n : Nat} (hn : n < 4) : (s.enterStage n).stage = n := by
  rw [State.stage, s.enterStage_status, bits_setBits_same _ _ (by decide), Nat.mod_eq_of_lt (Nat.lt_trans hn (by decide))]

/-- MG_SU_STATUS, and the registers that reports change. -/
def statusReg (a : Nat) : Prop := a = MG_SU_STATUS ∨ reportReg a

/-- FAIL takes the code of a failed step, but for a missed deadline, which is none (R641). -/
def State.failMarked (s : State) (code : Nat) : State := if code = 4 then s else s.dwf MG_SU_STATUS 6 5 code

theorem State.startFail_tells (s : State) (code unit cls : Nat) : State.Tells statusReg s (s.startFail code unit cls) := by
  unfold State.startFail
  extract_lets s1 _ s2 s3
  have h1 : State.Tells statusReg s s1 := .ite (.refl _ s) ((State.Tells.refl _ s).dwf (.inl rfl))
  have h2 : State.Tells statusReg s s2 := .ite h1.alert h1
  exact (h2.event fun _ h => .inr (reportReg_of_eventReg (by decide) h)).logErr
    fun _ h => .inr (reportReg_of_errReg (x := 0) (by decide) h)

theorem State.startFail_status (s : State) (code unit cls : Nat) :
    (s.startFail code unit cls).dr MG_SU_STATUS = (s.failMarked code).dr MG_SU_STATUS := by
  unfold State.startFail
  extract_lets s1 _ s2 s3
  have h2 : State.Tells reportReg s1 s2 := .ite (State.Tells.refl _ s1).alert (.refl _ s1)
  have ht := (h2.event (kind := 4) (status := 0) (time := s2.timebase)
      (payload := [BitVec.ofNat 8 s2.stage, BitVec.ofNat 8 (bits (s2.dr MG_SU_STATUS) 3 3)])
      fun _ h => reportReg_of_eventReg (x := 0) (by decide) h).logErr
    (e := { source := 0x12, cls := cls, cause := code, unit := unit, info := word (s3.dr MG_SU_STATUS) })
    fun _ h => reportReg_of_errReg (x := 0) (by decide) h
  exact ht.regs _ (by unfold reportReg; decide)

theorem State.startFail_alert (s : State) (unit cls : Nat) : 2 ∈ (s.startFail 1 unit cls).mb.alerts := by
  have h : State.Tells (fun _ => True) { s.dwf MG_SU_STATUS 6 5 1 with mb := { s.mb with alerts := nsIns s.mb.alerts 2 } }
      (s.startFail 1 unit cls) :=
    ((State.Tells.refl _ _).event fun _ _ => trivial).logErr fun _ _ => trivial
  exact h.alerts 2 (mem_nsIns_self _ _)

theorem State.startFail_fail (s : State) {code : Nat} (unit cls : Nat) (hc : code < 4) :
    bits ((s.startFail code unit cls).dr MG_SU_STATUS) 6 5 = code := by
  rw [s.startFail_status, State.failMarked, if_neg (Nat.ne_of_lt hc), State.dr_dwf_same _ _ _ (by decide) (by decide),
    bits_setBits_same _ _ (by decide)]
  exact Nat.mod_eq_of_lt hc

theorem State.startFail_stage (s : State) (code unit cls : Nat) : (s.startFail code unit cls).stage = s.stage := by
  rw [State.stage, State.stage, s.startFail_status]
  unfold State.failMarked
  split
  · rfl
  · rw [State.dr_dwf_same _ _ _ (by decide) (by decide), bits_setBits_other _ _ (by decide) (by decide)]

/-- R640: what stage 2 waits for. -/
def State.ready2 (s : State) : Bool :=
  s.stage == 1 && (List.range 8).all s.stackReady && !s.mem.wiping && s.boot.mounted && s.lcState != 0 && s.lcState != 4

theorem State.tryStage2_tells (s : State) : State.Tells stageReg s s.tryStage2 :=
  .ite (((s.enterStage_tells (by decide)).trans (State.enterStage_tells _ (by decide))).ite (s.enterStage_tells (by decide)))
    (.refl _ s)

theorem State.tryStage2_stage {s : State} (h : s.ready2 = true) : s.tryStage2.stage = if s.role = 0 then 3 else 2 := by
  have hrole : (s.enterStage 2).role = s.role :=
    (s.enterStage_tells (by decide)).role (by unfold stageReg reportReg; decide)
  rw [show s.tryStage2 = _ from if_pos h]
  extract_lets s1
  rw [show s1.role = s.role from hrole]
  split
  · exact s1.enterStage_stage (by decide)
  · exact s.enterStage_stage (by decide)

theorem State.tryStage2_of_not {s : State} (h : s.ready2 = false) : s.tryStage2 = s :=
  if_neg (Bool.not_eq_true _ ▸ h)

end Sys2Proof.Machine
end

section
namespace Sys2Proof.Machine

open Claims

theorem State.ready2_of {s : State} (h1 : s.stage = 1) (hall : (List.range 8).all s.stackReady = true)
    (hw : s.mem.wiping = false) (hm : s.boot.mounted = true) (hlo : 0 < s.lcState) (hhi : s.lcState < 4) :
    s.ready2 = true := by
  simp only [State.ready2, h1, hall, hw, hm]
  simp
  omega

/-! #### The PLLs and stage 1 (R439, R633, R640, R672, R700) -/

theorem execPllLock_spec (s : State) (hon : s.pw.on = true) (hp : s.pll = false) :
    ∃ t, exec .pllLock s = .next t ∧ t.pll = true ∧ t.timebase = 0 ∧ bit (t.dr PW_STATUS) 0 = true
      ∧ t.dr PW_CLK_STATUS = pllDomains ∧ s.sameRegs t [PW_STATUS, PW_CLK_STATUS] := by
  have he : exec .pllLock s = .next ((({ s with pll := true, timebase := 0 } : State).dwf PW_STATUS 0 0 1).dw
      PW_CLK_STATUS pllDomains) := if_pos (by simp [hon, hp])
  generalize hu : ({ s with pll := true, timebase := 0 } : State) = u at he
  have hd : ∀ a, u.dr a = s.dr a := fun a => hu ▸ rfl
  refine ⟨_, he, hu ▸ rfl, hu ▸ rfl, ?_, ?_, fun a ha => ?_⟩
  · rw [State.dr_dw_other _ _ _ _ (by decide), State.dr_dwf_same _ _ _ (by decide) (by decide), bit_setBits_same]
    rfl
  · rw [State.dr_dw_same]
    rfl
  · simp only [List.mem_cons, List.not_mem_nil, or_false, not_or] at ha
    obtain ⟨h1, h2⟩ := ha
    rw [State.dr_dw_other _ _ _ _ h2, State.dr_dwf_other _ _ _ _ h1, hd]

/-- One field of each of several registers is written. -/
theorem foldl_dwf_field {r : Nat → Nat} (hr : Function.Injective r) {hi lo : Nat} (hlo : lo ≤ hi) (hhi : hi < 64) (v : Nat)
    (l : List Nat) (s : State) (j : Nat) :
    bits ((l.foldl (fun s i => s.dwf (r i) hi lo v) s).dr (r j)) hi lo
      = if j ∈ l then v % 2 ^ (hi + 1 - lo) else bits (s.dr (r j)) hi lo := by
  induction l generalizing s with
  | nil => rfl
  | cons i l ih =>
    rw [List.foldl_cons, ih]
    by_cases hj : j ∈ l
    · simp [hj]
    · by_cases hi' : j = i
      · subst hi'
        rw [if_neg hj, if_pos List.mem_cons_self, State.dr_dwf_same _ _ _ hlo hhi, bits_setBits_same _ _ hlo]
      · rw [if_neg hj, if_neg (by simp [hj, hi']), State.dr_dwf_other _ _ _ _ fun e => hi' (hr e)]

theorem stkReg_injective (r : Nat) : Function.Injective (stkReg r) := fun a b h => by
  unfold stkReg at h
  omega

/-- Every stack begins to train (R633). -/
def State.trainAll (s : State) : State := (List.range 8).foldl (fun s st => s.dwf (stkReg HM_STK_STATUS st) 1 0 1) s

/-- The status registers of the stacks. -/
def stkStatusReg (a : Nat) : Prop := ∃ st < 8, a = stkReg HM_STK_STATUS st

theorem State.trainAll_tells (s : State) : State.Tells stkStatusReg s s.trainAll := by
  refine List.foldlRecOn _ _ (State.Tells.refl _ s) fun u hu st hst => ?_
  exact hu.dwf ⟨st, List.mem_range.mp hst, rfl⟩

theorem not_stkStatusReg {a : Nat} (h : a < HM_STK_STATUS ∨ HM_STK_STATUS + 0x8000 ≤ a) : ¬ stkStatusReg a := by
  rintro ⟨st, hst, rfl⟩
  unfold stkReg at h
  omega

theorem State.commitFw_eq (s : State) : ∃ b, s.commitFw = { s with
    boot := b
    sec := if s.boot.fromPend then { s.sec with
        active := 1 - s.sec.active, pend := false, tries := 0, floor := max s.sec.floor (imgFloor s.sec.header)
        rootRev := Nat.lor s.sec.rootRev (imgRevoke s.sec.header) } else s.sec } := by
  unfold State.commitFw
  by_cases h : s.boot.fromPend = true
  · rw [if_pos h, if_pos h]
    exact ⟨_, rfl⟩
  · rw [if_neg h, if_neg h]
    exact ⟨s.boot, rfl⟩

theorem execStage1Enter_spec (s : State) (hon : s.pw.on = true) (hp : s.pll = true) (hf : s.boot.fwOk = true)
    (h0 : s.stage = 0) :
    ∃ t, exec .stage1Enter s = .next t ∧ t.stage = 1 ∧ bit (t.dr PC_LINK_STATUS) 9 = false ∧ t.boot.kick = s.pw.uptime
      ∧ t.mem = s.mem ∧ (s.lcState ≠ 4 → ∀ st < 8, bits (t.dr (stkReg HM_STK_STATUS st)) 1 0 = 1)
      ∧ t.sec = if s.boot.fromPend then { s.sec with active := 1 - s.sec.active, pend := false, tries := 0
                                                     floor := max s.sec.floor (imgFloor s.sec.header)
                                                     rootRev := Nat.lor s.sec.rootRev (imgRevoke s.sec.header) } else s.sec := by
  have he : exec .stage1Enter s = .next (if ((s.commitFw.enterStage 1).dwf PC_LINK_STATUS 9 9 0).kick.lcState = 4
      then ((s.commitFw.enterStage 1).dwf PC_LINK_STATUS 9 9 0).kick
      else ((s.commitFw.enterStage 1).dwf PC_LINK_STATUS 9 9 0).kick.trainAll) := if_pos (by simp [hon, hp, hf, h0])
  obtain ⟨b, hc⟩ := s.commitFw_eq
  have hmem : s.commitFw.mem = s.mem := by rw [hc]
  have hpw : s.commitFw.pw = s.pw := by rw [hc]
  have hsec := congrArg State.sec hc
  have hlc : s.commitFw.sec.lc = s.sec.lc := by
    rw [hsec]
    dsimp only
    split <;> rfl
  have h1 := s.commitFw.enterStage_tells (n := 1) (by decide)
  have hst := s.commitFw.enterStage_stage (n := 1) (by decide)
  generalize s.commitFw.enterStage 1 = u at he h1 hst
  generalize hk : (u.dwf PC_LINK_STATUS 9 9 0).kick = k at he
  have hkst : k.stage = 1 := by
    rw [← hst, ← hk]
    exact congrArg (fun w => bits w 2 0) (State.dr_dwf_other u (a := PC_LINK_STATUS) (b := MG_SU_STATUS) 9 9 0 (by decide))
  have hklink : bit (k.dr PC_LINK_STATUS) 9 = false := by
    rw [← hk]
    exact (congrArg (bit · 9) (State.dr_dwf_same u PC_LINK_STATUS 0 (by decide) (by decide))).trans (bit_setBits_same _ 0 9)
  have hkick : k.boot.kick = s.pw.uptime := by
    rw [← hk, ← hpw, ← h1.pw]
    rfl
  have hkmem : k.mem = s.mem := by
    rw [← hmem, ← h1.mem, ← hk]
    rfl
  have hksec : k.sec = s.commitFw.sec := by
    rw [← h1.sec, ← hk]
    rfl
  have hklc : k.lcState = s.lcState := by
    rw [State.lcState, hksec, hlc]
    rfl
  rw [hklc] at he
  by_cases h4 : s.lcState = 4
  · rw [if_pos h4] at he
    exact ⟨k, he, hkst, hklink, hkick, hkmem, fun h => absurd h4 h, by rw [hksec, hsec]⟩
  · rw [if_neg h4] at he
    have ht := k.trainAll_tells
    refine ⟨_, he, ?_, ?_, ?_, ?_, fun _ st h8 => ?_, ?_⟩
    · rw [ht.stage (not_stkStatusReg (by decide)), hkst]
    · rw [ht.regs _ (not_stkStatusReg (by decide)), hklink]
    · rw [ht.boot, hkick]
    · rw [ht.mem, hkmem]
    · rw [State.trainAll, foldl_dwf_field (stkReg_injective _) (by decide) (by decide), if_pos (List.mem_range.mpr h8)]
      rfl
    · rw [ht.sec, hksec, hsec]

/-! #### Training, wipe and mount (R633, R634, R640, R641) -/

theorem not_statusReg_stk {st : Nat} (h : st < 8) : ¬ statusReg (stkReg HM_STK_STATUS st) := by
  unfold statusReg reportReg stkReg
  simp only [HM_STK_STATUS, MG_SU_STATUS, MG_CX_CTRL, MG_EL_CNT, LK_RV_CNT_NOROUTE]
  omega

theorem execHbmTrainingComplete_ok (s : State) (st : Stk) (h : bits (s.dr (stkReg HM_STK_STATUS st.val)) 1 0 = 1) :
    ∃ t, exec (.hbmTrainingComplete st true) s = .next t ∧ t.stackReady st.val = true
      ∧ s.sameRegs t [stkReg HM_STK_STATUS st.val]
      ∧ t.mem.wiping = (s.mem.wiping || (List.range 8).all t.stackReady) := by
  generalize hu : s.dwf (stkReg HM_STK_STATUS st.val) 1 0 2 = u
  have he : exec (.hbmTrainingComplete st true) s
      = .next (if (List.range 8).all u.stackReady then { u with mem := { u.mem with wiping := true } } else u) := by
    change execHbmTrainingComplete st true s = _
    unfold execHbmTrainingComplete
    rw [if_neg (by simp [h]), ← hu]
    rfl
  have hready : u.stackReady st.val = true := by
    rw [State.stackReady, ← hu, State.dr_dwf_same _ _ _ (by decide) (by decide), bits_setBits_same _ _ (by decide)]
    rfl
  have hregs : s.sameRegs u [stkReg HM_STK_STATUS st.val] := fun a ha => by
    rw [← hu]
    exact State.dr_dwf_other s 1 0 2 (by simpa using ha)
  have hmem : u.mem = s.mem := by rw [← hu]; rfl
  rw [← hmem]
  by_cases hall : (List.range 8).all u.stackReady = true
  · rw [if_pos hall] at he
    refine ⟨_, he, hready, hregs, ?_⟩
    change true = (u.mem.wiping || (List.range 8).all u.stackReady)
    rw [hall, Bool.or_true]
  · rw [if_neg hall] at he
    exact ⟨_, he, hready, hregs, by rw [Bool.eq_false_of_not_eq_true hall, Bool.or_false]⟩

theorem execHbmTrainingComplete_fail (s : State) (st : Stk) (h : bits (s.dr (stkReg HM_STK_STATUS st.val)) 1 0 = 1) :
    ∃ t, exec (.hbmTrainingComplete st false) s = .next t
      ∧ amGet 0 t.boot.trainFails st.val = amGet 0 s.boot.trainFails st.val + 1
      ∧ (if amGet 0 s.boot.trainFails st.val < 2 then t.regs = s.regs
         else bits (t.dr (stkReg HM_STK_STATUS st.val)) 1 0 = 3 ∧ bits (t.dr MG_SU_STATUS) 6 5 = 2 ∧ t.stage = s.stage) := by
  generalize hu : ({ s with boot := { s.boot with
    trainFails := amSet 0 s.boot.trainFails st.val (amGet 0 s.boot.trainFails st.val + 1) } } : State) = u
  have he : exec (.hbmTrainingComplete st false) s = .next (if amGet 0 s.boot.trainFails st.val + 1 ≤ 2 then u
      else (u.dwf (stkReg HM_STK_STATUS st.val) 1 0 3).startFail 2 st.val CFAULT) := by
    change execHbmTrainingComplete st false s = _
    unfold execHbmTrainingComplete
    rw [if_neg (by simp [h]), ← hu]
    rfl
  have hfails : amGet 0 u.boot.trainFails st.val = amGet 0 s.boot.trainFails st.val + 1 := by
    rw [← hu]
    exact amGet_amSet_same 0 s.boot.trainFails st.val (amGet 0 s.boot.trainFails st.val + 1)
  have hdr : ∀ a, u.dr a = s.dr a := fun a => by rw [← hu]; rfl
  by_cases hn : amGet 0 s.boot.trainFails st.val < 2
  · rw [if_pos (by omega)] at he
    exact ⟨u, he, hfails, by rw [if_pos hn, ← hu]⟩
  · rw [if_neg (by omega)] at he
    have ht := (u.dwf (stkReg HM_STK_STATUS st.val) 1 0 3).startFail_tells 2 st.val CFAULT
    refine ⟨_, he, by rw [ht.boot, State.dwf, State.dw_boot, hfails], ?_⟩
    rw [if_neg hn]
    refine ⟨?_, State.startFail_fail _ _ _ (by decide), ?_⟩
    · rw [ht.regs _ (not_statusReg_stk st.isLt), State.dr_dwf_same _ _ _ (by decide) (by decide), bits_setBits_same _ _ (by decide)]
      rfl
    · have hne : MG_SU_STATUS ≠ stkReg HM_STK_STATUS st.val := by
        have := st.isLt
        simp only [stkReg, MG_SU_STATUS, HM_STK_STATUS]
        omega
      rw [State.startFail_stage, State.stage, State.dr_dwf_other _ _ _ _ hne, hdr]
      rfl

theorem execHbmWipeComplete_spec (s : State) (h : s.mem.wiping = true) :
    ∃ t, exec .hbmWipeComplete s = .next t ∧ t.mem.wiping = false ∧ t.mem.hbm = [] ∧ t.mem.bad = []
      ∧ (s.stage = 1 → (List.range 8).all s.stackReady = true → s.boot.mounted = true → 0 < s.lcState → s.lcState < 4 →
          AfterStage1 s t)
      ∧ (s.boot.mounted = false → t.stage = s.stage) := by
  generalize hu : ({ s with mem := { s.mem with wiping := false, hbm := [], bad := [], cbad := [], zeroing := [] } } : State) = u
  have he : exec .hbmWipeComplete s = .next u.tryStage2 := by
    rw [← hu]
    exact if_pos h
  have ht := u.tryStage2_tells
  refine ⟨_, he, ?_, ?_, ?_, fun h1 hall hm hlo hhi => ?_, fun hm => ?_⟩
  · rw [ht.mem, ← hu]
  · rw [ht.mem, ← hu]
  · rw [ht.mem, ← hu]
  · have hr : u.ready2 = true := by
      rw [← hu]
      exact State.ready2_of h1 hall rfl hm hlo hhi
    rw [AfterStage1, State.tryStage2_stage hr, ← hu]
    rfl
  · rw [State.tryStage2_of_not (by simp [State.ready2, ← hu, hm]), ← hu]
    rfl

theorem execFliesMountComplete_ok (s : State) (h0 : s.stage ≠ 0) (hm : s.boot.mounted = false) (h3 : s.boot.mountFails < 3) :
    ∃ t, exec (.fliesMountComplete true) s = .next t ∧ t.boot.mounted = true ∧ t.mem = s.mem
      ∧ (s.stage = 1 → (List.range 8).all s.stackReady = true → s.mem.wiping = false → 0 < s.lcState → s.lcState < 4 →
          AfterStage1 s t) := by
  generalize hu : ({ s with boot := { s.boot with mounted := true } } : State) = u
  have he : exec (.fliesMountComplete true) s = .next u.tryStage2 := by
    change execFliesMountComplete true s = _
    unfold execFliesMountComplete
    rw [if_neg (by simp [h0, hm]; omega), ← hu]
    rfl
  have ht := u.tryStage2_tells
  refine ⟨_, he, by rw [ht.boot, ← hu], by rw [ht.mem, ← hu], fun h1 hall hw hlo hhi => ?_⟩
  have hr : u.ready2 = true := by
    rw [← hu]
    exact State.ready2_of h1 hall hw rfl hlo hhi
  rw [AfterStage1, State.tryStage2_stage hr, ← hu]
  rfl

theorem execFliesMountComplete_fail (s : State) (h0 : s.stage ≠ 0) (hm : s.boot.mounted = false) (h3 : s.boot.mountFails < 3) :
    ∃ t, exec (.fliesMountComplete false) s = .next t ∧ t.boot.mountFails = s.boot.mountFails + 1 ∧ t.boot.mounted = false
      ∧ t.stage = s.stage ∧ (s.boot.mountFails = 2 → bits (t.dr MG_SU_STATUS) 6 5 = 3) := by
  generalize hu : ({ s with boot := { s.boot with mountFails := s.boot.mountFails + 1 } } : State) = u
  have he : exec (.fliesMountComplete false) s = .next (if s.boot.mountFails + 1 ≤ 2 then u else u.startFail 3 0xFFFF CFAULT) := by
    change execFliesMountComplete false s = _
    unfold execFliesMountComplete
    rw [if_neg (by simp [h0, hm]; omega), ← hu]
    rfl
  have hst : u.stage = s.stage := by rw [← hu]; rfl
  by_cases h2 : s.boot.mountFails + 1 ≤ 2
  · rw [if_pos h2] at he
    exact ⟨u, he, by rw [← hu], by rw [← hu, hm], hst, fun e => absurd h2 (by omega)⟩
  · rw [if_neg h2] at he
    have ht := u.startFail_tells 3 0xFFFF CFAULT
    exact ⟨_, he, by rw [ht.boot, ← hu], by rw [ht.boot, ← hu, hm], by rw [State.startFail_stage, hst],
      fun _ => State.startFail_fail _ _ _ (by decide)⟩

/-! #### Deadlines (R33, R640, R641) -/

theorem execStageDeadlineExpiry_spec (s : State) (n : Fin 4) (hon : s.pw.on = true) (hlt : s.stage < n.val)
    (hnew : n.val ∉ s.boot.missed) (hdue : s.boot.base + stageDeadline n.val ≤ s.pw.uptime) :
    ∃ t, exec (.stageDeadlineExpiry n) s = .next t ∧ n.val ∈ t.boot.missed ∧ t.stage = s.stage ∧ t.cls = s.cls ∧ t.mem = s.mem
      ∧ bits (t.dr MG_SU_STATUS) 6 5 = bits (s.dr MG_SU_STATUS) 6 5
      ∧ (n.val = 3 → s.role = 1 → bits (s.dr LK_RV_STATUS) 2 2 = 0 → bit (t.dr MG_SU_STATUS) 3 = true) := by
  generalize hu : ({ s with boot := { s.boot with missed := nsIns s.boot.missed n.val } } : State) = u
  have hdr : ∀ a, u.dr a = s.dr a := fun a => by rw [← hu]; rfl
  have hrole : u.role = s.role := by rw [← hu]; rfl
  generalize hv : (if (n.val == 3 && u.role == 1 && bits (u.dr LK_RV_STATUS) 2 2 == 0) = true
    then u.dwf MG_SU_STATUS 3 3 1 else u) = v
  have he : exec (.stageDeadlineExpiry n) s = .next (v.startFail 4 0xFFFF INFO) := by
    rw [← hv, ← hu]
    exact if_pos (by simp [hon, hlt, hnew, hdue])
  have hvt : State.Tells statusReg u v := by
    rw [← hv]
    exact ((State.Tells.refl _ u).dwf (.inl rfl)).ite (.refl _ u)
  have hvs : (v.dr MG_SU_STATUS = s.dr MG_SU_STATUS ∨ v.dr MG_SU_STATUS = setBits (s.dr MG_SU_STATUS) 3 3 1) := by
    rw [← hv, ← hdr]
    split
    · exact .inr (State.dr_dwf_same _ _ _ (by decide) (by decide))
    · exact .inl rfl
  have ht := hvt.trans (v.startFail_tells 4 0xFFFF INFO)
  have hsu : (v.startFail 4 0xFFFF INFO).dr MG_SU_STATUS = v.dr MG_SU_STATUS := v.startFail_status 4 _ _
  refine ⟨_, he, ?_, ?_, ?_, ?_, ?_, fun h3 h1 hd => ?_⟩
  · rw [ht.boot, ← hu]
    exact mem_nsIns_self _ _
  · rw [State.startFail_stage, State.stage]
    obtain h | h := hvs
    · rw [h]; rfl
    · rw [h, bits_setBits_other _ _ (by decide) (by decide)]; rfl
  · rw [ht.cls, ← hu]
  · rw [ht.mem, ← hu]
  · rw [hsu]
    obtain h | h := hvs
    · rw [h]
    · rw [h, bits_setBits_other _ _ (by decide) (by decide)]
  · rw [hsu, ← hv, if_pos (by rw [hrole, hdr, h3, h1, hd]; rfl), State.dr_dwf_same _ _ _ (by decide) (by decide),
      bit_setBits_same]
    rfl

end Sys2Proof.Machine
end

section
namespace Sys2Proof.Machine

open Claims

/-! #### The boot ROM (R669 to R673)

The ROM runs with every context's rings at reset, so an event of context 0 is counted as lost (R565). -/

/-- Registers that the ROM changes while context 0 has no rings. -/
def bootReg (a : Nat) : Prop :=
  a = MG_SU_STATUS ∨ a = SC_ERR ∨ a = SC_BOOT ∨ a = cxReg MG_CX_CNT_EVLOST 0 ∨ (MG_EL_CNT ≤ a ∧ a < MG_EL_CNT + 256)

/-- Context 0 has no rings. -/
def State.muted (s : State) : Prop := bit (s.dr (cxReg MG_CX_CTRL 0)) 0 = false

/-- From s to t the ROM has run: no other part differs, no fuse, and of MG_SU_STATUS no field but FAIL. -/
structure State.Boots (s t : State) : Prop where
  frame : t = { s with
    err := t.err, wt := t.wt, sec := t.sec, boot := t.boot, mb := t.mb, regs := t.regs, freeCount := t.freeCount
    rngCount := t.rngCount }
  fuses : s.sec.SameFuses t.sec
  regs : ∀ a, ¬ bootReg a → t.dr a = s.dr a
  status : ∀ hi lo, hi < 5 ∨ 6 < lo → bits (t.dr MG_SU_STATUS) hi lo = bits (s.dr MG_SU_STATUS) hi lo

theorem State.Boots.refl (s : State) : s.Boots s := ⟨rfl, ⟨rfl, rfl, rfl, rfl⟩, fun _ _ => rfl, fun _ _ _ => rfl⟩

theorem State.Boots.muted {s t : State} (h : s.Boots t) (hm : s.muted) : t.muted := by
  unfold State.muted
  rw [h.regs _ (by unfold bootReg; decide)]
  exact hm

theorem State.event_of_muted {s : State} (hm : s.muted) (kind status time : Nat) (payload : List Byte) :
    s.event 0 kind status time payload = s.dinc (cxReg MG_CX_CNT_EVLOST 0) 1 := if_pos hm

section
variable {s t : State} (h : s.Boots t)
include h

theorem State.Boots.dw {a v : Nat} (ha : bootReg a) (hne : MG_SU_STATUS ≠ a) : s.Boots (t.dw a v) where
  frame := by rw [State.dw, h.frame]
  fuses := h.fuses
  regs b hb := by rw [State.dr_dw_other t a b v fun e => hb (e ▸ ha), h.regs b hb]
  status hi lo hd := by rw [State.dr_dw_other _ _ _ _ hne, h.status hi lo hd]

theorem State.Boots.ite {p : Prop} [Decidable p] {u : State} (h' : s.Boots u) : s.Boots (if p then t else u) := by
  split
  · exact h
  · exact h'

theorem State.Boots.dinc {a n : Nat} (ha : bootReg a) (hne : MG_SU_STATUS ≠ a) : s.Boots (t.dinc a n) := .ite h (h.dw ha hne)

theorem State.Boots.dcap {a v val : Nat} (ha : bootReg a) (hne : MG_SU_STATUS ≠ a) : s.Boots (t.dcap a v val) :=
  .ite (h.dw ha hne) (h.dw ha hne)

theorem State.Boots.setFail {v : Nat} : s.Boots (t.dwf MG_SU_STATUS 6 5 v) where
  frame := by rw [State.dwf, State.dw, h.frame]
  fuses := h.fuses
  regs b hb := by rw [State.dr_dwf_other _ _ _ _ fun e => hb (.inl e), h.regs b hb]
  status hi lo hd := by
    rw [State.dr_dwf_same _ _ _ (by decide) (by decide), bits_setBits_other _ _ (by decide) (by omega), h.status hi lo hd]

theorem State.Boots.put {err : ErrLog} {wt : Weights} {sec : Security} {boot : Boot} {mb : MgmtBus} {freeCount rngCount : Nat}
    (hs : t.sec.SameFuses sec := by exact ⟨rfl, rfl, rfl, rfl⟩) :
    s.Boots { t with err, wt, sec, boot, mb, freeCount, rngCount } where
  frame := by rw [h.frame]
  fuses := ⟨hs.lc.trans h.fuses.lc, hs.owner.trans h.fuses.owner, hs.floor.trans h.fuses.floor, hs.rootRev.trans h.fuses.rootRev⟩
  regs b hb := h.regs b hb
  status hi lo hd := h.status hi lo hd

theorem State.Boots.event (hm : s.muted) {kind status time : Nat} {payload : List Byte} :
    s.Boots (t.event 0 kind status time payload) := by
  rw [State.event_of_muted (h.muted hm)]
  exact h.dinc (.inr (.inr (.inr (.inl rfl)))) (by decide)

theorem State.Boots.logErr (hm : s.muted) {e : ErrRec} (hc : e.ctx = none) : s.Boots (t.logErr e) := by
  have h1 : s.Boots (t.dinc (MG_EL_CNT + 8 * (e.source % 32)) 1) :=
    h.dinc (.inr (.inr (.inr (.inr (by omega))))) (by simp only [MG_SU_STATUS, MG_EL_CNT]; omega)
  have hp : ∀ u time count, s.Boots u → s.Boots (u.putErr e time count) := fun u time count hu => by
    unfold State.putErr
    rw [hc]
    exact hu.put.event hm
  exact .ite h1 (.ite (hp _ _ _ h1) (.ite h1.put (hp _ _ _ h1).put))

theorem State.Boots.scErr {source step off : Nat} : s.Boots (t.scErr source step off) := h.dcap (.inr (.inl rfl)) (by decide)

theorem State.Boots.startFail (hm : s.muted) {code unit cls : Nat} : s.Boots (t.startFail code unit cls) := by
  unfold State.startFail
  extract_lets s1 _ s2 s3
  have h1 : s.Boots s1 := .ite h h.setFail
  have h2 : s.Boots s2 := .ite h1.put h1
  exact (h2.event hm).logErr hm rfl

theorem State.Boots.newFlashKey : s.Boots t.newFlashKey := h.put

theorem State.Boots.bootSlot {n : Nat} {fromPend : Bool} : s.Boots (t.bootSlot n fromPend) :=
  State.Boots.dw h.put (.inr (.inr (.inl rfl))) (by decide)

theorem State.Boots.bootRom (hm : s.muted) {pick : Option (Option BootPick)} : s.Boots (t.bootRom pick) := by
  unfold State.bootRom
  extract_lets s1 fails noteFail usePend other first _ s2
  have h1 : s.Boots s1 := .ite h h.newFlashKey
  have h2 : s.Boots s2 := h1.put (hs := by split <;> exact ⟨rfl, rfl, rfl, rfl⟩)
  have hnote : ∀ u f, s.Boots u → s.Boots (noteFail u f) := fun u f hu => State.Boots.scErr (t := u.free.2) hu.put
  split
  · exact h2.bootSlot
  · extract_lets s3 _ s4
    have h3 : s.Boots s3 := hnote _ _ h2
    have h4 : s.Boots s4 := State.Boots.ite (State.Boots.dw h3.put (.inr (.inr (.inl rfl))) (by decide)) h3
    split
    · exact h4.bootSlot
    · exact (hnote _ _ h4).startFail hm

end

/-! #### Stage 0 begins (R638, R639, R643) -/

/-- The straps are read, and the cause and the debug path are shown. -/
def State.causeShown (s : State) (cause : Nat) : State :=
  (s.sampleStraps.dwf MG_SU_STATUS 10 8 cause).dwf MG_DBG_STATUS 0 0 (b2n (decide (s.sec.lc ≤ 1)))

/-- No context has commands, the clusters' hang clocks begin, and there is a new nonce. -/
def State.emptied (s : State) : State :=
  let n := s.draw
  let s : State := { n.2 with sec := { n.2.sec with nonce := n.1 }, ctx := ctxAtStart }
  let clock := fun (k : Cluster) => { k with hangAt := s.timebase }
  { s with cls := s.cls.map clock }

theorem State.emptied_dr (s : State) (a : Nat) : s.emptied.dr a = s.dr a := rfl

theorem State.begin0_eq (s : State) (cause : Nat) (pick : Option (Option BootPick)) :
    s.begin0 cause pick = ((s.causeShown cause).emptied.enterStage 0).bootRom pick := by
  unfold State.begin0 State.emptied
  extract_lets s1 n s2 clock s3 n' s2' clock' s3'
  rfl

/-- Stage 0 is shown and nothing has booted. -/
def State.atStage0 (s : State) (cause : Nat) : State := (s.causeShown cause).emptied.stageMarked 0

/-- MG_SU_STATUS of a state that had it at reset shows stage 0, the cause, and no failure. -/
theorem State.atStage0_status {s : State} (h0 : s.dr MG_SU_STATUS = 0) {cause : Nat} (hc : cause < 8) :
    bits ((s.atStage0 cause).dr MG_SU_STATUS) 2 0 = 0 ∧ bits ((s.atStage0 cause).dr MG_SU_STATUS) 10 8 = cause
      ∧ bits ((s.atStage0 cause).dr MG_SU_STATUS) 6 5 = 0 := by
  have hstrap : ∃ b, s.sampleStraps.dr MG_SU_STATUS = setBits 0 4 4 (b2n b) := by
    unfold State.sampleStraps
    extract_lets v err s1
    refine ⟨err, ?_⟩
    rw [State.dr_dwf_other _ _ _ _ (by decide), State.dr_dwf_same _ _ _ (by decide) (by decide),
      State.dr_dw_other _ _ _ _ (by decide), h0]
  obtain ⟨b, hb⟩ := hstrap
  have hd : (s.atStage0 cause).dr MG_SU_STATUS = setBits (setBits (setBits 0 4 4 (b2n b)) 10 8 cause) 2 0 0 := by
    rw [State.atStage0, State.stageMarked_status, State.emptied_dr, State.causeShown, State.dr_dwf_other _ _ _ _ (by decide),
      State.dr_dwf_same _ _ _ (by decide) (by decide), hb]
  rw [hd]
  refine ⟨bits_setBits_same _ _ (by decide), ?_, ?_⟩
  · rw [bits_setBits_other _ _ (by decide) (by decide), bits_setBits_same _ _ (by decide)]
    exact Nat.mod_eq_of_lt hc
  · rw [bits_setBits_other _ _ (by decide) (by decide), bits_setBits_other _ _ (by decide) (by decide),
      bits_setBits_other _ _ (by decide) (by decide)]
    rfl

/-- MG_CX_CTRL is no register that the start of stage 0 sets. -/
theorem State.atStage0_muted {s : State} (hm : s.muted) {cause : Nat} : (s.atStage0 cause).muted := by
  have h1 : (s.atStage0 cause).dr (cxReg MG_CX_CTRL 0) = (s.causeShown cause).emptied.dr (cxReg MG_CX_CTRL 0) :=
    State.stageMarked_dr _ (by decide) (by decide)
  have h2 : s.sampleStraps.dr (cxReg MG_CX_CTRL 0) = s.dr (cxReg MG_CX_CTRL 0) := by
    unfold State.sampleStraps
    rw [State.dr_dwf_other _ _ _ _ (by decide), State.dr_dwf_other _ _ _ _ (by decide), State.dr_dw_other _ _ _ _ (by decide)]
  unfold State.muted
  rw [h1, State.emptied_dr, State.causeShown, State.dr_dwf_other _ _ _ _ (by decide), State.dr_dwf_other _ _ _ _ (by decide), h2]
  exact hm

theorem State.atStage0_role (s : State) {cause : Nat} :
    (s.atStage0 cause).role = if bit s.boot.straps 0 = true ∧ bit s.boot.straps 1 = false then 1 else 0 := by
  have h1 : (s.atStage0 cause).role = (s.causeShown cause).emptied.role :=
    (State.stageMarked_tells _ (by decide)).role (by unfold stageReg reportReg; decide)
  rw [h1, State.role, State.emptied_dr, State.causeShown, State.dr_dwf_other _ _ _ _ (by decide), State.dr_dwf_other _ _ _ _ (by decide),
    State.sampleStraps]
  rw [State.dr_dwf_same _ _ _ (by decide) (by decide), bits_setBits_same _ _ (by decide)]
  cases bit s.boot.straps 0 <;> cases bit s.boot.straps 1 <;> rfl

/-- From stage 0, once shown, only the ROM runs. -/
theorem State.begin0_boots {s : State} (hm : s.muted) {cause : Nat} {pick : Option (Option BootPick)} :
    (s.atStage0 cause).Boots (s.begin0 cause pick) := by
  rw [s.begin0_eq, State.enterStage_eq]
  exact ((State.Boots.refl (s.atStage0 cause)).event (State.atStage0_muted hm)).bootRom (State.atStage0_muted hm)

end Sys2Proof.Machine
end

section
namespace Sys2Proof.Machine

open Claims

/-! #### The wiped state, and stage 0 of it -/

/-- A register that a reset does not keep shows its reset value. -/
theorem State.wiped_dr (s : State) {keep : Nat → Bool} {a : Nat} (ha : keep a = false) :
    (s.wiped keep).dr a = (word (devReset a)).toNat := by
  have hget : ∀ m : List (Nat × Word), amGet (word (devReset a)) (m.filter fun r => keep r.1) a = word (devReset a) := by
    intro m
    induction m with
    | nil => rfl
    | cons r m ih =>
      by_cases hr : r.1 = a
      · simpa [hr, ha] using ih
      · by_cases hk : keep r.1 = true
        · simpa [hk, amGet, hr] using ih
        · simpa [hk] using ih
  exact congrArg BitVec.toNat (hget s.regs)

theorem State.cmds_of_ctxAtStart {s : State} (h : s.ctx = ctxAtStart) (y : Nat) : s.cmds y = [] := by
  unfold State.cmds State.cx
  rw [h]
  split
  · simp only [ctxAtStart, Vector.getElem_set, Vector.getElem_replicate]
    split <;> rfl
  · rfl

/-- From s to t stages may have begun: memory, power and clocks, the host's memory and the fuses are as they were. -/
structure State.Begins (s t : State) : Prop where
  mem : t.mem = s.mem
  pages : t.pages = s.pages
  pcie : t.pcie = s.pcie
  pw : t.pw = s.pw
  timebase : t.timebase = s.timebase
  pll : t.pll = s.pll
  hostMem : t.hostMem = s.hostMem
  fuses : s.sec.SameFuses t.sec

theorem State.Begins.refl (s : State) : s.Begins s := ⟨rfl, rfl, rfl, rfl, rfl, rfl, rfl, ⟨rfl, rfl, rfl, rfl⟩⟩

section
variable {s t : State} (h : s.Begins t)
include h

theorem State.Begins.dw {a v : Nat} : s.Begins (t.dw a v) := { h with }

theorem State.Begins.dwf {a hi lo v : Nat} : s.Begins (t.dwf a hi lo v) := h.dw

theorem State.Begins.alert {n : Nat} : s.Begins { t with mb := { t.mb with alerts := nsIns t.mb.alerts n } } := { h with }

theorem State.Begins.stageMarked (n : Nat) : s.Begins (t.stageMarked n) := h.dwf.dw.alert

theorem State.Begins.causeShown (cause : Nat) : s.Begins (t.causeShown cause) := h.dw.dwf.dwf.dwf.dwf

theorem State.Begins.emptied : s.Begins t.emptied := { h with fuses := ⟨h.fuses.lc, h.fuses.owner, h.fuses.floor, h.fuses.rootRev⟩ }

theorem State.Begins.boots {u : State} (hb : t.Boots u) : s.Begins u where
  mem := by rw [hb.frame, h.mem]
  pages := by rw [hb.frame, h.pages]
  pcie := by rw [hb.frame, h.pcie]
  pw := by rw [hb.frame, h.pw]
  timebase := by rw [hb.frame, h.timebase]
  pll := by rw [hb.frame, h.pll]
  hostMem := by rw [hb.frame, h.hostMem]
  fuses := ⟨hb.fuses.lc.trans h.fuses.lc, hb.fuses.owner.trans h.fuses.owner, hb.fuses.floor.trans h.fuses.floor,
    hb.fuses.rootRev.trans h.fuses.rootRev⟩

end

theorem State.causeShown_tells (s : State) (cause : Nat) : State.Tells (fun _ => True) s (s.causeShown cause) :=
  ((((State.Tells.refl _ s).dw trivial).dwf trivial).dwf trivial).dwf trivial |>.dwf trivial

theorem State.begin0_begins {s : State} (hm : s.muted) (cause : Nat) (pick : Option (Option BootPick)) :
    s.Begins (s.begin0 cause pick) :=
  (((State.Begins.refl s).causeShown cause).emptied.stageMarked 0).boots (State.begin0_boots hm)

theorem State.stageMarked_ctx (s : State) (n : Nat) : (s.stageMarked n).ctx = s.ctx := by
  simp [State.stageMarked, State.dwf]

theorem State.begin0_ctx {s : State} (hm : s.muted) (cause : Nat) (pick : Option (Option BootPick)) :
    (s.begin0 cause pick).ctx = ctxAtStart := by
  have h0 : (s.atStage0 cause).ctx = ctxAtStart := State.stageMarked_ctx _ 0
  rw [(State.begin0_boots hm).frame, h0]

/-- What the stages of a reset begin from: the registers of start-up and context 0 at reset, no memory, the fuses of s. -/
structure State.AtReset (s t : State) : Prop where
  status : t.dr MG_SU_STATUS = 0
  muted : t.muted
  mem : t.mem = {}
  pages : t.pages = []
  fuses : s.sec.SameFuses t.sec

theorem State.AtReset.fresh {s t : State} (h : s.AtReset t) {cause : Nat} (hc : cause < 8) {pick : Option (Option BootPick)} :
    Fresh s (t.begin0 cause pick) cause := by
  have hs := State.begin0_begins h.muted cause pick
  have hb := State.begin0_boots h.muted (cause := cause) (pick := pick)
  obtain ⟨hstage, hcause, -⟩ := State.atStage0_status h.status hc
  refine ⟨?_, ?_, hs.mem.trans h.mem, hs.pages.trans h.pages, fun y _ => State.cmds_of_ctxAtStart (State.begin0_ctx h.muted cause pick) y,
    hs.fuses.lc.trans h.fuses.lc, hs.fuses.floor.trans h.fuses.floor, hs.fuses.rootRev.trans h.fuses.rootRev,
    hs.fuses.owner.trans h.fuses.owner⟩
  · rw [State.stage, hb.status _ _ (by decide), hstage]
  · rw [hb.status _ _ (by decide), hcause]

theorem State.wiped_atReset (s : State) {keep : Nat → Bool} (hk : keep MG_SU_STATUS = false)
    (hx : keep (cxReg MG_CX_CTRL 0) = false) : s.AtReset (s.wiped keep) where
  status := (s.wiped_dr hk).trans (by decide)
  muted := by
    unfold State.muted
    rw [s.wiped_dr hx]
    decide
  mem := rfl
  pages := rfl
  fuses := ⟨rfl, rfl, rfl, rfl⟩

section
variable {s t : State} (h : s.AtReset t)
include h

theorem State.AtReset.setPower {err : ErrLog} {pw : Power} : s.AtReset { t with err, pw } :=
  ⟨h.status, h.muted, h.mem, h.pages, h.fuses⟩

theorem State.AtReset.dw {a v : Nat} (hs : MG_SU_STATUS ≠ a) (hx : cxReg MG_CX_CTRL 0 ≠ a) : s.AtReset (t.dw a v) where
  status := (State.dr_dw_other t a _ v hs).trans h.status
  muted := by
    unfold State.muted
    rw [State.dr_dw_other t a _ v hx]
    exact h.muted
  mem := h.mem
  pages := h.pages
  fuses := h.fuses

end

/-! #### What the ROM boots (R671, R673) -/

theorem State.scErr_boot (s : State) (source step off : Nat) : (s.scErr source step off).boot = s.boot :=
  ((State.Tells.refl (fun _ => True) s).dcap trivial).boot

/-- With no image that verifies the ROM ends in FAIL 1 (R673). -/
theorem State.bootRom_none_elim {s : State} {P : State → Prop}
    (hP : ∀ u : State, u.boot = s.boot → P (u.startFail 1 0xFFFF CFAULT)) : P (s.bootRom (some none)) := by
  unfold State.bootRom
  extract_lets s1 fails noteFail usePend other first _ s2
  have h2 : s2.boot = s.boot := by
    change s1.boot = s.boot
    unfold s1
    split <;> rfl
  have hf : ∀ u n, fails u n ≠ none := fun u n => by simp [fails]
  have hn : ∀ u f, (noteFail u f).boot = u.boot := fun u f => State.scErr_boot _ _ _ _
  split
  · next hnone => exact absurd hnone (hf _ _)
  · next f _ =>
    extract_lets s3 _ s4
    have h4 : s4.boot = s.boot := by
      have h3 : s3.boot = s.boot := (hn s2 f).trans h2
      unfold s4
      split
      · exact h3
      · exact h3
    split
    · next hnone => exact absurd hnone (hf _ _)
    · exact hP _ ((hn s4 _).trans h4)

/-- No image verifies: nothing boots, FAIL is 1, and the management bus is told. -/
theorem State.bootRom_none (s : State) :
    (s.bootRom (some none)).boot = s.boot ∧ bits ((s.bootRom (some none)).dr MG_SU_STATUS) 6 5 = 1
      ∧ 2 ∈ (s.bootRom (some none)).mb.alerts := by
  refine State.bootRom_none_elim (P := fun t => t.boot = s.boot ∧ bits (t.dr MG_SU_STATUS) 6 5 = 1 ∧ 2 ∈ t.mb.alerts) fun u hu => ?_
  exact ⟨(u.startFail_tells 1 0xFFFF CFAULT).boot.trans hu, u.startFail_fail _ _ (by decide), u.startFail_alert _ _⟩

/-- Slot A is active and verifies: it boots, and FAIL stays. -/
theorem State.bootRom_slotA {s : State} (hp : s.sec.pend = false) (ha : s.sec.active = 0) :
    (s.bootRom (some (some .slotA))).boot.fwOk = true
      ∧ (s.bootRom (some (some .slotA))).sec.fwMeas = Config.sha3 (s.sec.slotHeader 0)
      ∧ (s.bootRom (some (some .slotA))).dr MG_SU_STATUS = s.dr MG_SU_STATUS := by
  unfold State.bootRom
  extract_lets s1 fails noteFail usePend other first _ s2
  have h1 : s1.sec.slotA = s.sec.slotA ∧ s1.sec.pend = s.sec.pend ∧ s1.sec.active = s.sec.active
      ∧ s1.dr MG_SU_STATUS = s.dr MG_SU_STATUS := by
    unfold s1
    split <;> exact ⟨rfl, rfl, rfl, rfl⟩
  obtain ⟨hslot, hpend, hactive, hstatus⟩ := h1
  have hu : usePend = false := by simp [usePend, hpend, hp]
  have hfirst : first = 0 := by simp [first, hu, hactive, ha]
  have hf : fails s2 first = none := by simp [fails, hfirst]
  have hs2 : s2.sec.slotA = s.sec.slotA := by
    refine Eq.trans ?_ hslot
    unfold s2
    dsimp only
    split <;> rfl
  have hh : s2.sec.slotHeader 0 = s.sec.slotHeader 0 := by simp [Security.slotHeader, Security.slot, hs2]
  have hd : (s2.bootSlot first usePend).dr MG_SU_STATUS = s2.dr MG_SU_STATUS := State.dr_dw_other _ _ _ _ (by decide)
  rw [hf, hd]
  refine ⟨rfl, ?_, hstatus⟩
  rw [← hh, hfirst]
  rfl

/-! #### The resets (R643, R646, R696, R758) -/

/-- What a warm reset keeps of s until it wipes: the security element and the level of PERST#. -/
structure State.HoldsReset (s t : State) : Prop where
  sec : t.sec = s.sec
  perst : t.pcie.perst = s.pcie.perst

section
variable {s t : State} (h : s.HoldsReset t)
include h

theorem State.HoldsReset.dw {a v : Nat} : s.HoldsReset (t.dw a v) := { h with }

theorem State.HoldsReset.clearHalt {c : Cl} : s.HoldsReset (t.clearHalt c) := { h with }

theorem State.HoldsReset.logErr {e : ErrRec} : s.HoldsReset (t.logErr e) := by
  have hl := (State.Tells.refl (fun _ => True) t).logErr (e := e) fun _ _ => trivial
  exact ⟨hl.sec.trans h.sec, (congrArg Pcie.perst hl.pcie).trans h.perst⟩

theorem State.HoldsReset.closeDebug : s.HoldsReset t.closeDebug := by
  unfold State.closeDebug
  split
  · exact h
  · exact (List.foldlRecOn (motive := s.HoldsReset) _ _ h.dw fun _ hu _ _ => hu.clearHalt.dw).dw.logErr

theorem State.HoldsReset.relockAll : s.HoldsReset t.relockAll := by
  unfold State.relockAll
  split
  · exact h
  · exact (State.HoldsReset.mk h.sec h.perst : s.HoldsReset { t with pw := { t.pw with lost := [], dead := [] } }).dw

theorem State.HoldsReset.dinc {a n : Nat} : s.HoldsReset (t.dinc a n) := by
  unfold State.dinc
  split
  · exact h
  · exact h.dw

end

theorem State.warmReset_fresh (s : State) {cause : Nat} (hc : cause < 8) :
    Fresh s (s.warmReset cause) cause ∧ (s.warmReset cause).pcie.perst = s.pcie.perst := by
  unfold State.warmReset
  extract_lets t
  have ht : s.HoldsReset t := (State.HoldsReset.mk rfl rfl : s.HoldsReset s).closeDebug.relockAll.dinc
  have hr := t.wiped_atReset (keep := warmKeeps) (by decide) (by decide)
  have hs : s.sec.SameFuses (t.wiped warmKeeps).sec := by
    rw [← ht.sec]
    exact hr.fuses
  have hp : (t.wiped warmKeeps).pcie.perst = t.pcie.perst := rfl
  exact ⟨State.AtReset.fresh { hr with fuses := hs } hc,
    (congrArg Pcie.perst (State.begin0_begins hr.muted cause none).pcie).trans (hp.trans ht.perst)⟩

theorem execWatchdogExpiry_spec {s : State} (hon : s.pw.on = true) (hst : s.stage ≠ 0) (hper : bits (s.dr MG_SU_WDOG) 31 16 ≠ 0)
    (hk : s.boot.kick + 2000000 * bits (s.dr MG_SU_WDOG) 31 16 ≤ s.pw.uptime) :
    ∃ t, exec .watchdogExpiry s = .next t ∧ Fresh s t 3 := by
  have he : exec .watchdogExpiry s = .next (s.warmReset 3) := if_pos (by simp [hon, hst, hper, hk])
  exact ⟨_, he, (s.warmReset_fresh (by decide)).1⟩

end Sys2Proof.Machine
end

section
namespace Sys2Proof.Machine

open Claims

/-! #### Power (R637, R696, R697) -/

/-- The wiped state of a power-on reset, with the trips that the latches told. -/
def State.powered (s : State) : State :=
  let trips := place 3 3 (b2n s.pw.tripTherm) + place 4 4 (b2n s.pw.tripOc)
  let s : State := { s with timebase := 0, pll := false }
  let s := s.wiped powerKeeps
  let s : State := { s with err := { s.err with merges := [] }
                            pw := { uptime := s.pw.uptime, vin := true, vstby := true, on := true, opened := s.pw.opened } }
  s.dw PW_STATUS trips

theorem State.powerOn_eq (s : State) (cause : Nat) (pick : Option (Option BootPick)) :
    s.powerOn cause pick = s.powered.begin0 cause pick := rfl

theorem State.powered_atReset (s : State) : s.AtReset s.powered := by
  have hr := State.wiped_atReset ({ s with timebase := 0, pll := false } : State) (keep := powerKeeps) (by decide) (by decide)
  have hp : s.AtReset (({ s with timebase := 0, pll := false } : State).wiped powerKeeps) := ⟨hr.status, hr.muted, hr.mem, hr.pages, hr.fuses⟩
  exact hp.setPower.dw (a := PW_STATUS) (by decide) (by decide)

theorem State.powered_pw (s : State) : s.powered.pw.on = true ∧ s.powered.timebase = 0 ∧ s.powered.pll = false := ⟨rfl, rfl, rfl⟩

theorem State.powered_straps (s : State) : s.powered.boot.straps = s.boot.straps ∧ s.powered.boot.fwOk = false := ⟨rfl, rfl⟩

theorem State.powered_slots (s : State) :
    s.powered.sec.pend = s.sec.pend ∧ s.powered.sec.active = s.sec.active
      ∧ s.powered.sec.slotHeader 0 = s.sec.slotHeader 0 := ⟨rfl, rfl, rfl⟩

/-- The state from which the ROM runs. -/
def State.romStart (s : State) (cause : Nat) : State := (s.causeShown cause).emptied.enterStage 0

theorem State.emptied_boot (s : State) : s.emptied.boot = s.boot := rfl

theorem State.emptied_slots (s : State) : s.emptied.sec.pend = s.sec.pend ∧ s.emptied.sec.active = s.sec.active
    ∧ s.emptied.sec.slotHeader 0 = s.sec.slotHeader 0 := ⟨rfl, rfl, rfl⟩

theorem State.romStart_boot (s : State) (cause : Nat) : (s.romStart cause).boot = s.boot := by
  rw [State.romStart, (State.enterStage_tells _ (by decide)).boot, State.emptied_boot, (s.causeShown_tells cause).boot]

theorem State.romStart_slots (s : State) (cause : Nat) :
    (s.romStart cause).sec.pend = s.sec.pend ∧ (s.romStart cause).sec.active = s.sec.active
      ∧ (s.romStart cause).sec.slotHeader 0 = s.sec.slotHeader 0 := by
  have h := (s.causeShown cause).emptied_slots
  rw [(s.causeShown_tells cause).sec] at h
  rw [State.romStart, (State.enterStage_tells _ (by decide)).sec]
  exact h

theorem State.romStart_status (s : State) (cause : Nat) :
    (s.romStart cause).dr MG_SU_STATUS = (s.atStage0 cause).dr MG_SU_STATUS := by
  rw [State.romStart, State.enterStage_status, State.atStage0, State.stageMarked_status]

theorem execPowerGood_spec {s : State} (straps : BitVec 5) (v : Option BootPick) (hon : s.pw.on = false)
    (hopen : s.pw.isOpen = false) (hshut : s.pw.shut = false) :
    ∃ t, exec (.powerGood straps v) s = .next t ∧ Fresh s t 0 ∧ t.pw.on = true ∧ t.timebase = 0 ∧ t.pll = false
      ∧ t.role = (if bit straps.toNat 0 = true ∧ bit straps.toNat 1 = false then 1 else 0)
      ∧ (v = none → t.boot.fwOk = false ∧ bits (t.dr MG_SU_STATUS) 6 5 = 1 ∧ 2 ∈ t.mb.alerts)
      ∧ (s.sec.pend = false → s.sec.active = 0 → v = some .slotA →
          t.boot.fwOk = true ∧ t.sec.fwMeas = Config.sha3 (s.sec.slotHeader 0) ∧ bits (t.dr MG_SU_STATUS) 6 5 = 0) := by
  have he : exec (.powerGood straps v) s
      = .next (({ s with boot := { s.boot with straps := straps.toNat } } : State).powerOn 0 (some v)) :=
    if_neg (by simp [hon, hopen, hshut])
  have hr : s.AtReset ({ s with boot := { s.boot with straps := straps.toNat } } : State).powered := by
    have h := State.powered_atReset { s with boot := { s.boot with straps := straps.toNat } }
    exact ⟨h.status, h.muted, h.mem, h.pages, h.fuses⟩
  obtain ⟨hpw, htime, hpll⟩ := State.powered_pw { s with boot := { s.boot with straps := straps.toNat } }
  obtain ⟨hstraps, hfw⟩ := State.powered_straps { s with boot := { s.boot with straps := straps.toNat } }
  obtain ⟨hpend, hactive, hheader⟩ := State.powered_slots { s with boot := { s.boot with straps := straps.toNat } }
  rw [State.powerOn_eq] at he
  generalize State.powered { s with boot := { s.boot with straps := straps.toNat } } = p at *
  have hs := State.begin0_begins hr.muted 0 (some v)
  have hb := State.begin0_boots hr.muted (cause := 0) (pick := some v)
  obtain ⟨hpend', hactive', hheader'⟩ := p.romStart_slots 0
  refine ⟨_, he, hr.fresh (by decide), hs.pw ▸ hpw, hs.timebase.trans htime, hs.pll.trans hpll, ?_, ?_, ?_⟩
  · rw [State.role, hb.regs LK_RV_STATUS (by unfold bootReg; decide)]
    exact p.atStage0_role.trans (by rw [hstraps])
  · rintro rfl
    obtain ⟨hboot, hfail, halert⟩ := (p.romStart 0).bootRom_none
    refine ⟨?_, hfail, halert⟩
    exact (congrArg Boot.fwOk (hboot.trans (p.romStart_boot 0))).trans hfw
  · rintro hp ha rfl
    obtain ⟨hok, hmeas, hstatus⟩ :=
      State.bootRom_slotA (s := p.romStart 0) (hpend'.trans (hpend.trans hp)) (hactive'.trans (hactive.trans ha))
    obtain ⟨-, -, hfail⟩ := State.atStage0_status hr.status (cause := 0) (by decide)
    refine ⟨hok, hmeas.trans (by rw [hheader', hheader]), ?_⟩
    rw [State.romStart_status] at hstatus
    exact (congrArg (bits · 6 5) hstatus).trans hfail

theorem State.standbyOff_stage (s : State) : s.standbyOff.stage = 0 := by
  change bits (word (devReset MG_SU_STATUS)).toNat 2 0 = 0
  decide

theorem execInputLoss_spec (s : State) (b : Bool) :
    ∃ t, exec (.inputLoss b) s = .next t ∧ t.pw.on = false ∧ t.pw.vin = false ∧ t.mem = {} ∧ t.pages = [] ∧ t.stage = 0
      ∧ t.sec.lc = s.sec.lc
      ∧ (if b then t.regs = [] ∧ t.err = {} ∧ t.mb = {} ∧ t.jtag = {} else t.mb = s.mb ∧ t.err.log = s.err.log) := by
  cases b
  case false =>
    refine ⟨_, rfl, rfl, rfl, rfl, rfl, ?_, rfl, rfl, rfl⟩
    have h : (({ s with timebase := 0, pll := false } : State).wiped powerKeeps).dr MG_SU_STATUS = 0 :=
      (State.wiped_dr _ (by decide)).trans (by decide)
    exact congrArg (bits · 2 0) h
  case true => exact ⟨_, rfl, rfl, rfl, rfl, rfl, State.standbyOff_stage _, rfl, rfl, rfl, rfl, rfl⟩

/-! #### PERST# (R644, R758) -/

/-- PERST# has fallen. -/
def State.perstLow (s : State) : State := { s with pcie := { s.pcie with perst := false, perstAt := s.pw.uptime } }

theorem execPerstFall_eq {s : State} (hp : s.pcie.perst = true) :
    exec .perstFall s = .next (if s.pw.on && decide (s.pcie.perstAt + 1000000 ≤ s.pw.uptime) then
      (if s.role = 0 then s.perstLow.warmReset 6 else s.perstLow.perstRing) else s.perstLow) := if_neg (by simp [hp])

theorem execPerstFall_standalone {s : State} (hp : s.pcie.perst = true) (hon : s.pw.on = true)
    (hlong : s.pcie.perstAt + 1000000 ≤ s.pw.uptime) (hr : s.role = 0) :
    ∃ t, exec .perstFall s = .next t ∧ Fresh s t 6 ∧ t.pcie.perst = false := by
  have he : exec .perstFall s = .next (s.perstLow.warmReset 6) := by
    rw [execPerstFall_eq hp, hon, decide_eq_true hlong, hr]
    rfl
  obtain ⟨⟨hstage, hcause, hmem, hpages, hcmds, hlc, hfloor, hrev, howner⟩, hperst⟩ :=
    s.perstLow.warmReset_fresh (cause := 6) (by decide)
  exact ⟨_, he, ⟨hstage, hcause, hmem, hpages, hcmds, hlc, hfloor, hrev, howner⟩, hperst⟩

end Sys2Proof.Machine
end

/-! ### PERST# in the ring roles (R644) -/

section
/-! A function-level reset of a context frees its commands and its pages, and no operation that it is made of gives any context
a command or a page, or changes MG_SU_STATUS. `State.Sheds` is carried along them as `State.Keeps` is. -/

namespace Sys2Proof.Machine

/-- From s to t pages may be lost, no context without commands gets one, and MG_SU_STATUS is as it was. -/
structure State.Sheds (s t : State) : Prop where
  pages : ∀ p ∈ t.pages, p ∈ s.pages
  cmds : ∀ y, s.cmds y = [] → t.cmds y = []
  status : t.dr MG_SU_STATUS = s.dr MG_SU_STATUS

theorem State.Sheds.refl (s : State) : s.Sheds s := ⟨fun _ => id, fun _ => id, rfl⟩

theorem State.Sheds.trans {s t u : State} (h : s.Sheds t) (h' : t.Sheds u) : s.Sheds u :=
  ⟨fun p hp => h.pages p (h'.pages p hp), fun y hy => h'.cmds y (h.cmds y hy), h'.status.trans h.status⟩

section
variable {s t : State} (h : s.Sheds t)
include h

/-- A state with the same pages, contexts and registers. -/
theorem State.Sheds.frame {u : State} (hp : u.pages = t.pages := by exact rfl) (hc : u.ctx = t.ctx := by exact rfl)
    (hr : u.regs = t.regs := by exact rfl) : s.Sheds u :=
  h.trans ⟨fun _ hm => hp ▸ hm, fun y hy => by simpa only [State.cmds, State.cx, hc] using hy, by simp only [State.dr, hr]⟩

theorem State.Sheds.tells {u : State} (h' : State.Tells reportReg t u) : s.Sheds u :=
  h.trans ⟨fun _ hm => h'.pages ▸ hm, fun y hy => (h'.cmds y).trans hy, h'.regs _ (by unfold reportReg; decide)⟩

theorem State.Sheds.ite {p : Prop} [Decidable p] {u : State} (h' : s.Sheds u) : s.Sheds (if p then t else u) := by
  split
  · exact h
  · exact h'

theorem State.Sheds.foldl {α : Type} {l : List α} {f : State → α → State} (hf : ∀ u, ∀ a ∈ l, s.Sheds u → s.Sheds (f u a)) :
    s.Sheds (l.foldl f t) := List.foldlRecOn l f h fun u hu a ha => hf u a ha hu

theorem State.Sheds.dw {a v : Nat} (ha : MG_SU_STATUS ≠ a) : s.Sheds (t.dw a v) :=
  h.trans ⟨fun _ => id, fun _ => id, State.dr_dw_other _ _ _ _ ha⟩

theorem State.Sheds.dwf {a hi lo v : Nat} (ha : MG_SU_STATUS ≠ a) : s.Sheds (t.dwf a hi lo v) := h.dw ha

theorem State.Sheds.dinc {a n : Nat} (ha : MG_SU_STATUS ≠ a) : s.Sheds (t.dinc a n) := .ite h (h.dw ha)

theorem State.Sheds.dcap {a v val : Nat} (ha : MG_SU_STATUS ≠ a) : s.Sheds (t.dcap a v val) := .ite (h.dwf ha) (h.dw ha)

theorem State.Sheds.mod {c : Cl} {f : Cluster → Cluster} : s.Sheds (t.mod c f) := h.frame

theorem State.Sheds.core {c : Cl} {f : CoreSt → CoreSt} : s.Sheds (t.core c f) := h.mod

theorem State.Sheds.modN {n : Nat} {f : Cluster → Cluster} : s.Sheds (t.modN n f) := by
  unfold State.modN
  split
  · exact h.mod
  · exact h

theorem State.Sheds.cinc {c : Cl} {off n : Nat} : s.Sheds (t.cinc c off n) := .ite h h.mod

theorem State.Sheds.modCx {x : Nat} {f : CtxSt → CtxSt} (hf : ∀ y, y.cmds = [] → (f y).cmds = []) : s.Sheds (t.modCx x f) := by
  refine h.trans ⟨fun p hp => ?_, fun y hy => ?_, ?_⟩
  · simpa using hp
  · unfold State.cmds at hy ⊢
    by_cases hyx : y = x
    · subst hyx
      by_cases hlt : y < 16
      · rw [State.cx_modCx_same _ _ _ hlt]
        exact hf _ hy
      · simp [State.cx, hlt]
    · rwa [State.cx_modCx_other _ _ _ _ hyx]
  · simp [State.dr]

theorem State.Sheds.modPort {p : Nat} {f : PortSt → PortSt} : s.Sheds (t.modPort p f) :=
  h.frame (by simp) (by simp) (by simp)

/-! #### Reports -/

theorem State.Sheds.logErr {e : ErrRec} (he : e.ctx = none) : s.Sheds (t.logErr e) :=
  h.tells ((State.Tells.refl _ t).logErr fun a ha => by
    rw [he] at ha
    exact reportReg_of_errReg (x := 0) (by decide) ha)

theorem State.Sheds.sendMgmt {dst : Nat} {msg : List Byte} : s.Sheds (t.sendMgmt dst msg) :=
  h.tells ((State.Tells.refl _ t).sendMgmt fun _ => reportReg_of_sendReg)

theorem State.Sheds.reply {x : Nat} {k : Cmd} {status : Nat} {result : List Byte} {conts : List (List Byte)} (hx : x < 16) :
    s.Sheds (t.reply x k status result conts) := by
  have hd : s.Sheds (t.dropCmd x k) := h.modCx fun y hy => by simp [hy, dropFirst]
  exact hd.tells ((State.Tells.refl _ _).answer fun _ => reportReg_of_replyReg hx)

theorem State.Sheds.replyAbandoned {x : Nat} {k : Cmd} (hx : x < 16) : s.Sheds (t.replyAbandoned x k) := h.reply hx

theorem State.Sheds.replyResets {kind obj : Nat} : s.Sheds (t.replyResets kind obj) :=
  h.foldl fun _ _ hx hu => hu.foldl fun _ _ _ hv => hv.reply (List.mem_range.mp hx)

theorem State.Sheds.enqueue {p : Nat} {f : Frame} : s.Sheds (t.enqueue p f) := h.modPort

theorem State.Sheds.sendBcast {dir remain bop src : Nat} {data : List Byte} : s.Sheds (t.sendBcast dir remain bop src data) := by
  refine .ite h ?_
  split
  · exact h.enqueue
  · exact h

theorem State.Sheds.broadcast {bop : Nat} {data : List Byte} : s.Sheds (t.broadcast bop data) := h.sendBcast.sendBcast

/-! #### Watches -/

theorem State.Sheds.countCue {cue : Word} {wscope : Nat} {sc : Option Nat} : s.Sheds (t.countCue cue wscope sc) := by
  unfold State.countCue
  extract_lets n s1 s2
  have h1 : s.Sheds s1 := .ite (h.dinc (by decide)) h
  have h2 : s.Sheds s2 := .ite (h1.dinc (by decide)) h1
  split
  · exact .ite (h2.dinc (by decide)) h2
  · exact h2

theorem State.Sheds.sendCue {d : CueDest} {w : Word} : s.Sheds (t.sendCue d w) := h.frame

theorem State.Sheds.markDone {d : CueDest} : s.Sheds (t.markDone d) := by
  unfold State.markDone
  split
  · exact h.modN
  · exact h.modN
  · exact h

theorem State.Sheds.evalSlot {c : Cl} {n : Nat} {ab : Bool} {sc : Option Nat} {i : Fin 16} : s.Sheds (t.evalSlot c n ab sc i) := by
  unfold State.evalSlot
  split
  · refine .ite ?_ h
    split
    · exact h.mod.sendCue.countCue
    · exact h
  · exact h

theorem State.Sheds.evalWait {c : Cl} {n : Nat} {ab : Bool} {sc : Option Nat} : s.Sheds (t.evalWait c n ab sc) := by
  unfold State.evalWait
  split
  · refine .ite ?_ h
    split
    · exact h.mod.sendCue.countCue
    · exact h
  · exact h

theorem State.Sheds.abandonLocal {c : Cl} : s.Sheds (t.abandonLocal c) :=
  h.foldl fun _ _ _ hu => (hu.foldl fun _ _ _ hv => hv.evalSlot).evalWait

theorem State.Sheds.evalDev {ab : Bool} {sc : Option Nat} {w : DevWatch} : s.Sheds (t.evalDev ab sc w) := by
  unfold State.evalDev
  split
  · exact h
  · exact h.frame.sendCue.markDone.countCue

theorem State.Sheds.abandonWatches {f : DevWatch → Bool} : s.Sheds (t.abandonWatches f) :=
  h.foldl fun _ _ _ hu => hu.frame.evalDev

theorem State.Sheds.applyAbandon {k : Nat} : s.Sheds (t.applyAbandon k) := by
  have hs : MG_SU_STATUS ≠ curReg SY_CUR_STAT k := by simp only [MG_SU_STATUS, curReg, SY_CUR_STAT]; omega
  have h1 := (h.dwf (hi := 32) (lo := 32) (v := 1) hs).abandonWatches
    (f := fun w => w.ctr == bits (t.dr (curReg SY_CUR_CFG k)) 31 16)
  exact .ite (h1.foldl fun _ _ _ hu => hu.replyAbandoned (by decide)) h1

theorem State.Sheds.abandonCurtain {k : Nat} : s.Sheds (t.abandonCurtain k) := (State.Sheds.ite h.broadcast h).applyAbandon

/-! #### Clusters -/

theorem State.Sheds.hbmWrite {a : Nat} {bs : List Byte} : s.Sheds (t.hbmWrite a bs) := h.frame

theorem State.Sheds.stkErr {a cause : Nat} : s.Sheds (t.stkErr a cause) := by
  have hs : MG_SU_STATUS ≠ stkReg HM_STK_ERR (stackOf a) := by
    have := Nat.mod_lt (shcSlice a) (y := 8) (by decide)
    simp only [MG_SU_STATUS, stkReg, HM_STK_ERR, stackOf]
    omega
  unfold State.stkErr
  extract_lets st s1
  have h1 : s.Sheds s1 := h.dcap hs
  exact h1.logErr rfl

theorem State.Sheds.hbmPoison {w : Nat} : s.Sheds (t.hbmPoison w) := by
  have hs : MG_SU_STATUS ≠ stkReg HM_CNT_PLOSS (stackOf (w * 8)) := by
    have := Nat.mod_lt (shcSlice (w * 8)) (y := 8) (by decide)
    simp only [MG_SU_STATUS, stkReg, HM_CNT_PLOSS, stackOf]
    omega
  exact .ite h.frame (h.hbmWrite.dinc hs).stkErr

theorem State.Sheds.ccPut {c : Cl} {l : CLine} : s.Sheds (t.ccPut c l) := by
  unfold State.ccPut
  split
  · exact h.cinc.foldl fun _ _ _ hu => .ite (.ite hu.hbmWrite.hbmPoison hu.hbmWrite) hu
  · exact h.cinc

theorem State.Sheds.ccFlush {c : Cl} : s.Sheds (t.ccFlush c) := h.foldl fun _ _ _ hu => .ite hu hu.ccPut.mod

theorem State.Sheds.dropInject {c : Cl} : s.Sheds (t.dropInject c) :=
  .ite (.ite h.frame (.ite h (.ite h.frame h.frame))) h

theorem State.Sheds.clearDebug {c : Cl} : s.Sheds (t.clearDebug c) := by
  have hbp : MG_SU_STATUS ≠ MG_DBG_BP + 8 * c.val := by
    have := c.isLt
    simp only [MG_SU_STATUS, MG_DBG_BP]
    omega
  have hc : s.Sheds (t.clearHalt c) := h.mod.core
  exact (hc.core.dw hbp).dwf (by decide)

theorem State.Sheds.dropWatches {c : Cl} : s.Sheds (t.dropWatches c) := h.frame

theorem State.Sheds.beforeWipe {c : Cl} : s.Sheds (t.beforeWipe c) :=
  h.ccFlush.abandonLocal.dropWatches.dropInject.clearDebug

theorem State.Sheds.wipeClusters {x : Nat} : s.Sheds (t.wipeClusters x) :=
  h.foldl fun _ _ _ hu => hu.beforeWipe.mod.mod.replyResets

/-! #### Understudy, counters and memory of a context -/

theorem State.Sheds.usDiscard : s.Sheds t.usDiscard := by
  have h1 : s.Sheds (t.setOwn []) := State.Sheds.dwf h.frame (by decide)
  unfold State.usDiscard
  exact State.Sheds.modCx h1.frame fun y hy => by simp [hy]

theorem State.Sheds.usAbandon : s.Sheds t.usAbandon := .ite ((h.usDiscard.dwf (by decide)).dwf (by decide)) h

theorem State.Sheds.usCtxLost {x : Nat} : s.Sheds (t.usCtxLost x) := .ite h.sendMgmt.usAbandon h

/-- Registers may be lost if MG_SU_STATUS is not among them. -/
theorem State.Sheds.dropRegs {p : Nat × Word → Bool} (hp : ∀ r : Nat × Word, r.1 = MG_SU_STATUS → p r = true) :
    s.Sheds { t with regs := t.regs.filter p } := by
  have hget : ∀ (d : Word) (m : List (Nat × Word)), amGet d (m.filter p) MG_SU_STATUS = amGet d m MG_SU_STATUS := by
    intro d m
    induction m with
    | nil => rfl
    | cons r m ih =>
      by_cases hr : r.1 = MG_SU_STATUS
      · simp [hp r hr, amGet, hr]
      · by_cases hk : p r = true
        · simp [hk, amGet, hr, ih]
        · simp [hk, amGet, hr, ih]
  exact h.trans ⟨fun _ => id, fun _ => id, congrArg BitVec.toNat (hget _ t.regs)⟩

theorem State.Sheds.resetCxPage {x : Nat} (hx : x < 16) : s.Sheds (t.resetCxPage x) :=
  h.dropRegs fun r hr => by
    simp only [hr, MG_SU_STATUS, cxReg, MG_CX_CTRL, Bool.or_eq_true, decide_eq_true_eq]
    omega

theorem State.Sheds.resetUs {x : Nat} : s.Sheds (t.resetUs x) := by
  have h1 : ∀ u : State, s.Sheds u →
      s.Sheds { u with regs := amErase (amErase u.regs MG_US_CTRL MG_DT_CNT_TCC) MG_US_CNT_COMPARED MG_DT_CNT_PLAYBILL } := by
    intro u hu
    have h1 : s.Sheds { u with regs := amErase u.regs MG_US_CTRL MG_DT_CNT_TCC } :=
      hu.dropRegs fun r hr => by rw [hr]; decide
    exact h1.dropRegs fun r hr => by rw [hr]; decide
  exact .ite (State.Sheds.frame (h1 _ h.usCtxLost)) h

theorem State.Sheds.wipeSync {x : Nat} (hx : x < 16) : s.Sheds (t.wipeSync x) := by
  unfold State.wipeSync
  extract_lets ps ks s1 s2 gone
  have h2 : s.Sheds s2 := h.abandonWatches.foldl fun _ _ _ hu => hu.abandonCurtain
  have hg : gone MG_SU_STATUS = false := by
    refine Bool.eq_false_iff.mpr fun hg => ?_
    simp only [gone, Bool.or_eq_true, Bool.and_eq_true, decide_eq_true_eq, List.any_eq_true] at hg
    obtain (⟨-, h⟩ | ⟨-, h⟩) | ⟨k, hk, -, h⟩ := hg
    · simp only [MG_SU_STATUS, SY_VMAP] at h
      omega
    · simp only [MG_SU_STATUS, SY_PAIR] at h
      omega
    · have hlt := List.mem_range.mp (List.mem_of_mem_filter hk)
      simp only [curReg, SY_CUR_CFG, MG_SU_STATUS] at h
      omega
  exact State.Sheds.frame (h2.dropRegs (p := fun r => !gone r.1) fun r hr => by rw [hr, hg]; rfl)

theorem State.Sheds.wipeMemory {x : Nat} {held : Bool} : s.Sheds (t.wipeMemory x held) :=
  h.trans ⟨fun _ hp => List.mem_of_mem_filter hp, fun _ => id, rfl⟩

theorem State.Sheds.flrCtx {x : Nat} (hx : x < 16) : s.Sheds (t.flrCtx x) := by
  unfold State.flrCtx
  extract_lets s1 s2 _ _ s3 s4 s5 s6 s7 _
  have h1 : s.Sheds s1 := h.modCx fun _ _ => rfl
  have h7 : s.Sheds s7 := (State.Sheds.frame (h1.resetCxPage hx)).resetUs.wipeClusters.wipeSync hx |>.wipeMemory
  exact State.Sheds.dinc h7.frame (by decide)

end

/-! #### What the reset of a context frees -/

/-- Context x has no commands and no page. -/
def State.ctxEmpty (s : State) (x : Nat) : Prop :=
  s.cmds x = [] ∧ ∀ p ∈ s.pages, ¬ (x * 2097152 ≤ p.1 ∧ p.1 < (x + 1) * 2097152)

theorem State.Sheds.ctxEmpty {s t : State} (h : s.Sheds t) {x : Nat} (hs : s.ctxEmpty x) : t.ctxEmpty x :=
  ⟨h.cmds x hs.1, fun p hp => hs.2 p (h.pages p hp)⟩

theorem State.wipeMemory_pages (s : State) (x : Nat) (held : Bool) :
    ∀ p ∈ (s.wipeMemory x held).pages, ¬ (x * 2097152 ≤ p.1 ∧ p.1 < (x + 1) * 2097152) := by
  intro p hp
  have h := (List.mem_filter.mp hp).2
  simp only [Bool.or_eq_true, decide_eq_true_eq] at h
  omega

theorem State.flrCtx_empty (s : State) {x : Nat} (hx : x < 16) : (s.flrCtx x).ctxEmpty x := by
  unfold State.flrCtx
  extract_lets s1 s2 _ _ s3 s4 s5 s6 s7 _
  have h1 : s1.cmds x = [] := congrArg CtxSt.cmds (State.cx_modCx_same s x CtxSt.afterFlr hx)
  have h6 : s1.Sheds s6 :=
    (State.Sheds.frame ((State.Sheds.refl s1).resetCxPage hx)).resetUs.wipeClusters.wipeSync hx
  have h7 : s7.ctxEmpty x := ⟨h6.wipeMemory.cmds x h1, s6.wipeMemory_pages x true⟩
  exact (State.Sheds.dinc (State.Sheds.frame (.refl s7)) (by decide)).ctxEmpty h7

/-- The reset of contexts l leaves each of them empty. -/
theorem State.flrCtx_foldl_empty {l : List Nat} (hl : ∀ x ∈ l, x < 16) (s : State) :
    s.Sheds (l.foldl (fun s x => s.flrCtx x) s) ∧ ∀ x ∈ l, (l.foldl (fun s x => s.flrCtx x) s).ctxEmpty x := by
  have hfold : ∀ l : List Nat, (∀ x ∈ l, x < 16) → ∀ u : State, u.Sheds (l.foldl (fun s x => s.flrCtx x) u) :=
    fun l hl u => (State.Sheds.refl u).foldl fun _ x hx hv => hv.flrCtx (hl x hx)
  refine ⟨hfold l hl s, ?_⟩
  induction l generalizing s with
  | nil => simp
  | cons y l ih =>
    intro x hx
    have hl' : ∀ z ∈ l, z < 16 := fun z hz => hl z (List.mem_cons_of_mem _ hz)
    obtain rfl | hx := List.mem_cons.mp hx
    · exact (hfold l hl' _).ctxEmpty (s.flrCtx_empty (hl x List.mem_cons_self))
    · exact ih hl' _ x hx

end Sys2Proof.Machine
end

section
namespace Sys2Proof.Machine

open Claims

/-! #### PERST# falls and rises -/

/-- The PCI Express block and the mailbox after PERST#. -/
def State.pcieReset (s : State) : State :=
  let s : State := { s with pcie := { sent := s.pcie.sent }, sec := { s.sec with mail := [] } }
  s.dw PC_LINK_STATUS (b2n (s.stage == 0) * 512)

/-- Every context's function-level reset, one after the other. -/
def State.flrAll (s : State) : State := (List.range 16).foldl (fun s x => s.flrCtx x) s

theorem State.perstRing_of_stage {s : State} (h : s.stage ≠ 0) : s.perstRing = s.flrAll.pcieReset := by
  unfold State.perstRing
  rw [if_neg h]
  rfl

theorem State.flrAll_lc (s : State) : s.flrAll.sec.lc = s.sec.lc := ((State.Keeps.refl s).foldl fun _ _ hu => hu.flrCtx).lc

theorem execPerstFall_ring {s : State} (hp : s.pcie.perst = true) (hon : s.pw.on = true)
    (hlong : s.pcie.perstAt + 1000000 ≤ s.pw.uptime) (hr : s.role ≠ 0) (hst : s.stage ≠ 0) :
    ∃ t, exec .perstFall s = .next t ∧ (∀ y < 16, t.cmds y = []) ∧ t.stage = s.stage ∧ t.pcie = { sent := t.pcie.sent }
      ∧ t.sec.mail = [] ∧ t.sec.lc = s.sec.lc ∧ (∀ p ∈ t.pages, 33554432 ≤ p.1) := by
  have he : exec .perstFall s = .next s.perstLow.perstRing := by
    rw [execPerstFall_eq hp, hon, decide_eq_true hlong, if_neg hr]
    rfl
  have hst' : s.perstLow.stage ≠ 0 := hst
  rw [State.perstRing_of_stage hst'] at he
  obtain ⟨hs, hempty⟩ : s.perstLow.Sheds s.perstLow.flrAll ∧ ∀ x ∈ List.range 16, s.perstLow.flrAll.ctxEmpty x :=
    State.flrCtx_foldl_empty (fun x hx => List.mem_range.mp hx) s.perstLow
  have hl : s.perstLow.flrAll.sec.lc = s.sec.lc := s.perstLow.flrAll_lc
  generalize s.perstLow.flrAll = u at he hs hempty hl
  refine ⟨_, he, fun y hy => (hempty y (List.mem_range.mpr hy)).1, ?_, rfl, rfl, hl, fun p hp => ?_⟩
  · have h1 : (u.dw PC_LINK_STATUS (b2n (u.stage == 0) * 512)).dr MG_SU_STATUS = u.dr MG_SU_STATUS :=
      State.dr_dw_other _ _ _ _ (by decide)
    exact congrArg (bits · 2 0) (h1.trans hs.status)
  · by_contra hlt
    have hx : p.1 / 2097152 < 16 := by omega
    exact (hempty _ (List.mem_range.mpr hx)).2 p hp (by omega)

theorem execPerstFall_short {s : State} (hp : s.pcie.perst = true)
    (h : s.pw.on = false ∨ s.pw.uptime < s.pcie.perstAt + 1000000) : exec .perstFall s = .next s.perstLow := by
  have hlong : (s.pw.on && decide (s.pcie.perstAt + 1000000 ≤ s.pw.uptime)) = false := by
    obtain h | h := h
    · simp [h]
    · simp [Nat.not_le.mpr h]
  rw [execPerstFall_eq hp, hlong]
  rfl

theorem execPerstRise_spec {s : State} (hp : s.pcie.perst = false) :
    exec .perstRise s = .next { s with pcie := { s.pcie with perst := true, perstAt := s.pw.uptime } } := if_neg (by simp [hp])

/-- Settles O44: the stages by the rules of what entering one changes, the resets by what the wiped state shows and what the
boot ROM can change of it, and PERST# in a ring by what a function-level reset leaves of commands and pages. -/
theorem theStagesOfStartUp : Obligations.TheStagesOfStartUp := by
  refine ⟨fun _ straps v hon hopen hshut => execPowerGood_spec straps v hon hopen hshut, execInputLoss_spec,
    execPllLock_spec, execStage1Enter_spec, execHbmTrainingComplete_ok, execHbmTrainingComplete_fail, execHbmWipeComplete_spec,
    execFliesMountComplete_ok, execFliesMountComplete_fail, execStageDeadlineExpiry_spec,
    fun _ hon hst hper hk => execWatchdogExpiry_spec hon hst hper hk,
    fun _ hp hon hlong hr => execPerstFall_standalone hp hon hlong hr,
    fun _ hp hon hlong hr hst => execPerstFall_ring hp hon hlong hr hst, fun _ hp h => execPerstFall_short hp h,
    fun _ hp => execPerstRise_spec hp⟩

end Sys2Proof.Machine
end

/-! ### Commands and their replies -/

section
namespace Sys2Proof.Machine

open Claims

/-! #### Bytes -/

theorem leBytes_length (n v : Nat) : (leBytes n v).length = n := by
  induction n generalizing v with
  | zero => rfl
  | succ n ih => rw [leBytes, List.length_cons, ih]

theorem leNat_lt (l : List Byte) : leNat l < 256 ^ l.length := by
  induction l with
  | nil => decide
  | cons b l ih =>
    have hb : b.toNat < 256 := b.isLt
    rw [leNat, List.length_cons, Nat.pow_succ]
    omega

theorem sliceB_length (bs : List Byte) (off n : Nat) : (sliceB bs off n).length = n := by
  simp only [sliceB, List.length_append, List.length_take, List.length_replicate]
  omega

theorem fieldB_lt (bs : List Byte) (off n : Nat) : fieldB bs off n < 256 ^ n := by
  have h := leNat_lt (sliceB bs off n)
  rwa [sliceB_length] at h

theorem Cmd.f_lt (k : Cmd) (off n : Nat) : k.f off n < 256 ^ n := fieldB_lt _ _ _

theorem Cmd.op_lt (k : Cmd) : k.op < 65536 := fieldB_lt _ _ _

theorem leNat_leBytes (n v : Nat) : leNat (leBytes n v) = v % 256 ^ n := by
  induction n generalizing v with
  | zero => rw [leBytes, leNat, Nat.pow_zero, Nat.mod_one]
  | succ n ih =>
    have h : v % 256 ^ (n + 1) = v % 256 + 256 * (v / 256 % 256 ^ n) := by rw [Nat.pow_succ', Nat.mod_mul]
    rw [leBytes, leNat, ih, BitVec.toNat_ofNat, h]

theorem sliceB_append_left {a : List Byte} {n : Nat} (b : List Byte) (h : a.length = n) : sliceB (a ++ b) 0 n = a := by
  subst h
  simp [sliceB]

theorem sliceB_append_right {a : List Byte} {off : Nat} (b : List Byte) (n : Nat) (h : a.length = off) :
    sliceB (a ++ b) off n = sliceB b 0 n := by
  subst h
  simp [sliceB]

section
variable (op status seq tag next x chip phase : Nat) (r : List Byte)

/-- R556: the fields of a record, in order. -/
theorem replyRec_eq : replyRec op status seq tag next x chip phase r = leBytes 2 op ++ (leBytes 2 status ++ (leBytes 4 seq
    ++ ((leBytes 4 tag ++ leBytes 1 (next + 128 * phase) ++ leBytes 1 x ++ leBytes 2 chip) ++ sliceB r 0 16))) := by
  simp only [replyRec, List.append_assoc]

theorem replyRec_length : (replyRec op status seq tag next x chip phase r).length = 32 := by
  simp only [replyRec, List.length_append, leBytes_length, sliceB_length]

theorem replyRec_op : fieldB (replyRec op status seq tag next x chip phase r) 0 2 = op % 256 ^ 2 := by
  rw [replyRec_eq, fieldB, sliceB_append_left _ (leBytes_length _ _), leNat_leBytes]

theorem replyRec_status : fieldB (replyRec op status seq tag next x chip phase r) 2 2 = status % 256 ^ 2 := by
  rw [replyRec_eq, fieldB, sliceB_append_right _ _ (leBytes_length _ _), sliceB_append_left _ (leBytes_length _ _),
    leNat_leBytes]

theorem replyRec_seq : fieldB (replyRec op status seq tag next x chip phase r) 4 4 = seq % 256 ^ 4 := by
  have hl : (leBytes 2 op ++ leBytes 2 status).length = 4 := by simp only [List.length_append, leBytes_length]
  rw [replyRec_eq, ← List.append_assoc, fieldB, sliceB_append_right _ _ hl, sliceB_append_left _ (leBytes_length _ _),
    leNat_leBytes]

theorem replyRec_result : (replyRec op status seq tag next x chip phase r).drop 16 = sliceB r 0 16 := by
  have hl : (leBytes 2 op ++ leBytes 2 status ++ leBytes 4 seq
      ++ (leBytes 4 tag ++ leBytes 1 (next + 128 * phase) ++ leBytes 1 x ++ leBytes 2 chip)).length = 16 := by
    simp only [List.length_append, leBytes_length]
  rw [replyRec_eq, ← List.append_assoc, ← List.append_assoc, ← List.append_assoc]
  exact List.drop_left' hl

end

/-! #### The record of a reply (R555, R556) -/

theorem State.msixSend_hostMem (s : State) (fn v : Nat) : (s.msixSend fn v).hostMem = s.hostMem := by
  unfold State.msixSend
  split
  · split <;> rfl
  · rfl

theorem State.msix_hostMem (s : State) (x v : Nat) : (s.msix x v).hostMem = s.hostMem := by
  dsimp only [State.msix]
  split
  · exact s.msixSend_hostMem x v
  · split
    · simp
    · rw [State.msixSend_hostMem]
      simp

theorem State.hostRecord_hostMem {s : State} {x : Nat} (hm : s.mayMaster x = true) (a : Nat) (bs : List Byte) :
    (s.hostRecord x a bs).hostMem = amSetMany 0 s.hostMem a bs := by
  unfold State.hostRecord State.hostWrite
  rw [if_pos hm, if_pos hm]

/-- A reply without further records puts its record at the tail of the reply ring. -/
theorem State.writeReply_hostMem {s : State} {x : Nat} (hen : bit (s.dr (cxReg MG_CX_CTRL x)) 0 = true) (hm : s.mayMaster x = true)
    (op status seq tag chip : Nat) (noirq : Bool) (r : List Byte) :
    ∃ phase, (s.writeReply x op status seq tag chip noirq r []).hostMem
      = amSetMany 0 s.hostMem (s.replyAddr x (bits (s.dr (cxReg MG_CX_RRHEAD x)) 63 32))
          (replyRec op status seq tag 0 x chip phase r) := by
  unfold State.writeReply
  rw [if_neg (by simp [hen])]
  extract_lets i logn phase s1 s2 s3 s4 s5
  have h1 : s1 = s := rfl
  have h2 : s2.hostMem = amSetMany 0 s.hostMem (s.replyAddr x i) (replyRec op status seq tag 0 x chip phase r) := by
    unfold s2
    rw [h1]
    exact State.hostRecord_hostMem hm _ _
  clear_value s2
  have h5 : s5.hostMem = s2.hostMem :=
    (State.dinc_hostMem s4 _ _).trans ((State.dinc_hostMem s3 _ _).trans (State.dw_hostMem s2 _ _))
  clear_value s5
  refine ⟨phase, Eq.trans ?_ (h5.trans h2)⟩
  split
  · rfl
  · exact State.msix_hostMem _ _ _

/-! #### What a command needs to be answered -/

/-- Registers that place the replies of context x. -/
def ringReg (x a : Nat) : Prop := a = cxReg MG_CX_CTRL x ∨ a = cxReg MG_CX_RRING x ∨ a = cxReg MG_CX_RRHEAD x

/-- What tells a command from others. -/
def Cmd.key (k : Cmd) : Nat × Option (Nat × Nat) := (k.seq, k.origin)

theorem Cmd.same_iff (a b : Cmd) : a.same b = true ↔ a.key = b.key := by
  simp [Cmd.same, Cmd.key]

/-- From s to t the commands of context x in flight, and where and whether their replies are written, are as they were. -/
structure State.Serves (x : Nat) (s t : State) : Prop where
  keys : (t.cmds x).map Cmd.key = (s.cmds x).map Cmd.key
  master : t.mayMaster x = s.mayMaster x
  regs : ∀ a, ringReg x a → t.dr a = s.dr a

theorem State.Serves.refl (x : Nat) (s : State) : State.Serves x s s := ⟨rfl, rfl, fun _ _ => rfl⟩

theorem State.Serves.trans {x : Nat} {s t u : State} (h : State.Serves x s t) (h' : State.Serves x t u) : State.Serves x s u :=
  ⟨h'.keys.trans h.keys, h'.master.trans h.master, fun a ha => (h'.regs a ha).trans (h.regs a ha)⟩

section
variable {x : Nat} {s t : State} (h : State.Serves x s t)
include h

theorem State.Serves.tells {R : Nat → Prop} {u : State} (h' : State.Tells R t u) (hR : ∀ a, ringReg x a → ¬ R a) :
    State.Serves x s u :=
  h.trans ⟨by rw [h'.cmds], h'.mayMaster x, fun a ha => h'.regs a (hR a ha)⟩

/-- A state with the same contexts, functions, power and registers. -/
theorem State.Serves.frame {u : State} (hc : u.ctx = t.ctx := by exact rfl) (hp : u.pcie = t.pcie := by exact rfl)
    (hw : u.pw = t.pw := by exact rfl) (hr : u.regs = t.regs := by exact rfl) : State.Serves x s u :=
  h.trans ⟨by simp only [State.cmds, State.cx, hc], by simp only [State.mayMaster, State.domStopped, hp, hw],
    fun a _ => by simp only [State.dr, hr]⟩

theorem State.Serves.ite {p : Prop} [Decidable p] {u : State} (h' : State.Serves x s u) :
    State.Serves x s (if p then t else u) := by
  split
  · exact h
  · exact h'

theorem State.Serves.foldl {α : Type} {l : List α} {f : State → α → State}
    (hf : ∀ u, ∀ a ∈ l, State.Serves x s u → State.Serves x s (f u a)) : State.Serves x s (l.foldl f t) :=
  List.foldlRecOn l f h fun u hu a ha => hf u a ha hu

theorem State.Serves.dw {a v : Nat} (ha : ¬ ringReg x a) : State.Serves x s (t.dw a v) :=
  h.trans ⟨rfl, rfl, fun b hb => State.dr_dw_other t a b v fun e => ha (e ▸ hb)⟩

theorem State.Serves.dwf {a hi lo v : Nat} (ha : ¬ ringReg x a) : State.Serves x s (t.dwf a hi lo v) := h.dw ha

theorem State.Serves.dinc {a n : Nat} (ha : ¬ ringReg x a) : State.Serves x s (t.dinc a n) := .ite h (h.dw ha)

theorem State.Serves.modCx {y : Nat} {f : CtxSt → CtxSt} (hf : ∀ z, (f z).cmds.map Cmd.key = z.cmds.map Cmd.key) :
    State.Serves x s (t.modCx y f) := by
  refine h.trans ⟨?_, ?_, fun a _ => ?_⟩
  · unfold State.cmds
    by_cases hxy : x = y
    · subst hxy
      by_cases hlt : x < 16
      · rw [State.cx_modCx_same _ _ _ hlt, hf]
      · simp [State.cx, hlt]
    · rw [State.cx_modCx_other _ _ _ _ hxy]
  · simp [State.mayMaster, State.domStopped]
  · simp [State.dr]

end

theorem map_updFirst {α β : Type} {p : α → Bool} {f : α → α} {g : α → β} (hg : ∀ a, g (f a) = g a) (l : List α) :
    (updFirst p f l).map g = l.map g := by
  induction l with
  | nil => rfl
  | cons a l ih =>
    simp only [updFirst]
    split
    · rw [List.map_cons, hg, List.map_cons]
    · rw [List.map_cons, ih, List.map_cons]

theorem State.Serves.modCmd {x y : Nat} {s t : State} (h : State.Serves x s t) {k : Cmd} {f : Cmd → Cmd}
    (hf : ∀ j : Cmd, (f j).key = j.key := by exact fun _ => rfl) : State.Serves x s (t.modCmd y k f) :=
  h.modCx fun _ => map_updFirst hf _

theorem length_dropFirst {α : Type} {p : α → Bool} {l : List α} (h : ∃ a ∈ l, p a = true) :
    (dropFirst p l).length + 1 = l.length := by
  induction l with
  | nil => obtain ⟨a, ha, -⟩ := h; cases ha
  | cons b l ih =>
    simp only [dropFirst]
    split
    · rfl
    · next hb =>
      obtain ⟨a, ha, hp⟩ := h
      obtain rfl | ha := List.mem_cons.mp ha
      · exact absurd hp hb
      · rw [List.length_cons, List.length_cons, ih ⟨a, ha, hp⟩]

theorem State.reply_cmds {t : State} {x : Nat} (hx : x < 16) {k : Cmd} (st : Nat) (r : List Byte) (conts : List (List Byte)) :
    (t.reply x k st r conts).cmds x = dropFirst (fun j => j.same k) (t.cmds x) := by
  have h : State.Tells (fun _ => True) (t.dropCmd x k) (t.reply x k st r conts) := (State.Tells.refl _ _).answer fun _ _ => trivial
  rw [h.cmds]
  exact congrArg CtxSt.cmds (State.cx_modCx_same t x _ hx)

/-- A reply takes its command out of those in flight. -/
theorem State.Serves.reply_length {x : Nat} (hx : x < 16) {s t : State} (h : State.Serves x s t) {k : Cmd} (hk : k ∈ s.cmds x)
    (st : Nat) (r : List Byte) (conts : List (List Byte)) :
    ((t.reply x k st r conts).cmds x).length + 1 = (s.cmds x).length := by
  have hmem : ∃ j ∈ t.cmds x, j.same k = true := by
    have hkey : k.key ∈ (t.cmds x).map Cmd.key := h.keys ▸ List.mem_map_of_mem hk
    obtain ⟨j, hj, he⟩ := List.mem_map.mp hkey
    exact ⟨j, hj, (Cmd.same_iff j k).mpr he⟩
  rw [State.reply_cmds hx, length_dropFirst hmem]
  simpa using congrArg List.length h.keys

/-- Where the rings are enabled, the reply of a command of the host stands at the tail. -/
theorem State.Serves.reply_record {x : Nat} {s t : State} (h : State.Serves x s t) {k : Cmd} {st : Nat} {r : List Byte}
    (ho : k.origin = none) (hen : bit (s.dr (cxReg MG_CX_CTRL x)) 0 = true) (hm : s.mayMaster x = true)
    (hq : k.flag 1 = false ∨ st ≠ OK) :
    ∃ chip phase, replyAt s (t.reply x k st r) x = replyRec k.op st k.seq (k.f 12 4) 0 x chip phase r := by
  have hd : State.Leaves (fun _ => False) t (t.dropCmd x k) := (State.Leaves.refl _ t).dropCmd
  have hr : ∀ a, ringReg x a → (t.dropCmd x k).dr a = s.dr a := fun a ha => (hd.regs a id).trans (h.regs a ha)
  have hctrl := hr _ (.inl rfl)
  have hring := hr _ (.inr (.inl rfl))
  have hhead := hr _ (.inr (.inr rfl))
  have he : t.reply x k st r
      = (t.dropCmd x k).writeReply x k.op st k.seq (k.f 12 4) (t.dropCmd x k).chip (k.flag 2) r [] := by
    unfold State.reply State.answer
    rw [ho]
    have hf : (k.flag 1 && st == OK) = false := by
      obtain hq | hq := hq
      · simp [hq]
      · simp [hq]
    exact if_neg (by simp [hf])
  obtain ⟨phase, hw⟩ := State.writeReply_hostMem (s := t.dropCmd x k) (x := x) (by rw [hctrl]; exact hen)
    (by rw [hd.mayMaster, h.master]; exact hm) k.op st k.seq (k.f 12 4) (t.dropCmd x k).chip (k.flag 2) r
  have ha : (t.dropCmd x k).replyAddr x (bits ((t.dropCmd x k).dr (cxReg MG_CX_RRHEAD x)) 63 32)
      = s.replyAddr x (bits (s.dr (cxReg MG_CX_RRHEAD x)) 63 32) := by
    unfold State.replyAddr
    rw [hring, hhead]
  refine ⟨(t.dropCmd x k).chip, phase, ?_⟩
  unfold replyAt
  rw [he, hw, ha]
  have hl := replyRec_length k.op st k.seq (k.f 12 4) 0 x (t.dropCmd x k).chip phase r
  exact hl ▸ amGetMany_amSetMany 0 _ _ _

/-- A command that is served is answered by its reply, with its result bytes. -/
theorem State.Serves.answers {x : Nat} (hx : x < 16) {s t : State} (h : State.Serves x s t) {k : Cmd} (hk : k ∈ s.cmds x)
    {st : Nat} (hst : st < 65536) (r : List Byte) :
    Answers s (t.reply x k st r) x k st ∧ Carries s (t.reply x k st r) x k st r := by
  refine ⟨⟨h.reply_length hx hk st r [], fun ho hen hm hq => ?_⟩, fun ho hen hm hq => ?_⟩
  · obtain ⟨chip, phase, he⟩ := h.reply_record (r := r) ho hen hm hq
    rw [he]
    exact ⟨(replyRec_op ..).trans (Nat.mod_eq_of_lt k.op_lt), (replyRec_status ..).trans (Nat.mod_eq_of_lt hst), replyRec_seq ..⟩
  · obtain ⟨chip, phase, he⟩ := h.reply_record (r := r) ho hen hm hq
    rw [he]
    exact replyRec_result ..

end Sys2Proof.Machine
end

/-! ### Commands that only read, and the ring's tables -/

section
namespace Sys2Proof.Machine

open Claims

/-! #### A command that is due starts -/

/-- Command k of context x has started. -/
def State.started (s : State) (x : Nat) (k : Cmd) : State := s.modCmd x k fun j => { j with started := true }

theorem State.started_eq (s : State) (x : Nat) (k : Cmd) : ∃ ctx, s.started x k = { s with ctx := ctx } := by
  unfold State.started State.modCmd State.modCx
  split
  · exact ⟨_, rfl⟩
  · exact ⟨s.ctx, rfl⟩

theorem State.started_serves (s : State) (x y : Nat) (k : Cmd) : State.Serves x s (s.started y k) := (State.Serves.refl x s).modCmd

theorem State.started_leaves (R : Nat → Prop) (s : State) (x : Nat) (k : Cmd) : State.Leaves R s (s.started x k) :=
  (State.Leaves.refl R s).modCmd

theorem mem_of_nextCmd {s : State} {x : Nat} {k : Cmd} (h : s.nextCmd x = some k) : k ∈ s.cmds x := by
  unfold State.nextCmd at h
  split at h
  · cases h
  · next j hj =>
    extract_lets first noSec at h
    split at h
    · cases h
    · cases h
      exact List.mem_of_find?_eq_some hj

theorem mem_of_due {s : State} {x : Ctx} {op : Nat} {k : Cmd} (h : Due s x op k) : k ∈ s.cmds x.val := mem_of_nextCmd h.1

theorem leastOff_of_fits {bad : List (Bool × Nat)} (h : Fits bad) : leastOff bad none = none := by
  have hf : bad.filter (·.1) = [] := List.filter_eq_nil_iff.mpr fun b hb => by simp [h b hb]
  rw [leastOff, hf]
  rfl

/-- A command that is due, asks for something, and breaks no field's range does what its row gives. -/
theorem opcodeRow_of_due {s : State} {x : Ctx} {op : Nat} {k : Cmd} (h : Due s x op k) {zero : Cmd → Bool}
    {bad : Cmd → List (Bool × Nat)} {f none_ : Cmd → State → State} (hz : zero k = false) (hb : Fits (bad k)) :
    opcodeRow x op s zero bad f none_ = .next (f k (s.started x.val k)) := by
  obtain ⟨hn, hop, hr⟩ := h
  unfold opcodeRow command
  rw [hn]
  simp only [hop, if_true, hz, Bool.false_eq_true, if_false, hr, leastOff_of_fits hb, State.started]

theorem fits_nil : Fits [] := fun _ hb => by cases hb

/-! #### Registers outside the contexts' pages -/

/-- A register outside the contexts' pages. -/
def outsideReg (a : Nat) : Prop := a < MG_CX_CTRL ∨ MG_CX_CTRL + 0x10000 ≤ a

theorem not_ringReg_of_outside {x a : Nat} (hx : x < 16) (h : outsideReg a) : ¬ ringReg x a := by
  simp only [outsideReg, MG_CX_CTRL] at h
  simp only [ringReg, cxReg, MG_CX_CTRL, MG_CX_RRING, MG_CX_RRHEAD]
  omega

/-- What changes no register of the contexts leaves commands and replies as they were. -/
theorem State.Serves.outside {x : Nat} (hx : x < 16) {s t u : State} (h : State.Serves x s t) (h' : State.Tells outsideReg t u) :
    State.Serves x s u := h.tells h' fun _ ha ho => not_ringReg_of_outside hx ho ha

theorem State.reply_leaves (t : State) (x : Nat) (k : Cmd) (st : Nat) (r : List Byte) (conts : List (List Byte)) :
    State.Leaves (fun _ => True) t (t.reply x k st r conts) := (State.Leaves.refl _ t).reply fun _ _ => trivial

theorem State.reply_dr (t : State) {x : Nat} (hx : x < 16) (k : Cmd) (st : Nat) (r : List Byte) (conts : List (List Byte)) {a : Nat}
    (ha : ¬ reportReg a) : (t.reply x k st r conts).dr a = t.dr a :=
  ((State.Leaves.refl reportReg t).reply fun _ => reportReg_of_replyReg hx).regs a ha

theorem State.Leaves.onlyAnswers {R : Nat → Prop} {s t : State} (h : State.Leaves R s t) (k : Cmd) : OnlyAnswers s k t :=
  ⟨h.cls, h.mem, h.pages, h.sy, h.wt, h.rv, h.us, h.sec, h.pw, h.boot⟩

/-- A command that starts, changes registers outside the contexts' pages, and is answered. -/
theorem answers_of_tells {s u : State} {x : Ctx} {op : Nat} {k : Cmd} (h : Due s x op k)
    (hu : State.Tells outsideReg (s.started x.val k) u) {st : Nat} (hst : st < 65536) (r : List Byte) :
    Answers s (u.reply x.val k st r) x.val k st ∧ Carries s (u.reply x.val k st r) x.val k st r
      ∧ OnlyAnswers s k (u.reply x.val k st r) := by
  have hs : State.Serves x.val s u := (s.started_serves x.val x.val k).outside x.isLt hu
  obtain ⟨ha, hc⟩ := hs.answers x.isLt (mem_of_due h) hst r
  have hl : State.Leaves (fun _ => True) s (u.reply x.val k st r) :=
    ((s.started_leaves _ x.val k).trans (hu.mono fun _ _ => trivial).toLeaves).trans (u.reply_leaves _ _ _ _ _)
  exact ⟨ha, hc, hl.onlyAnswers k⟩

/-! #### RING_STATUS and DEV_STATUS (R566) -/

theorem execRingStatus_spec (x : Ctx) :
    Does (.ringStatus x) x 0x0705 (fun _ _ => True) OK (fun s _ _ => leBytes 2 s.ringN ++ leBytes 2 s.ringPos
      ++ leBytes 4 s.rv.pass ++ leBytes 2 (b2n (bit (s.dr LK_RV_STATUS) 3) + 2 * b2n (s.role == 3)) ++ leBytes 2 s.rv.joins.length)
      OnlyAnswers := by
  intro s k h _
  change ∃ t, execRingStatus x s = .next t ∧ _
  unfold execRingStatus
  refine ⟨_, opcodeRow_of_due (zero := noCount) (bad := noFields) h rfl fits_nil, ?_⟩
  obtain ⟨ctx, hc⟩ := s.started_eq x.val k
  have ha := answers_of_tells h (.refl _ _) (st := OK) (by decide) (leBytes 2 s.ringN ++ leBytes 2 s.ringPos
      ++ leBytes 4 s.rv.pass ++ leBytes 2 (b2n (bit (s.dr LK_RV_STATUS) 3) + 2 * b2n (s.role == 3)) ++ leBytes 2 s.rv.joins.length)
  rw [hc] at ha ⊢
  exact ha

theorem execDevStatus_spec (x : Ctx) :
    Does (.devStatus x) x 0x0801 (fun _ _ => True) OK (fun s _ _ => leBytes 1 s.stage ++ leBytes 1 s.role
      ++ leBytes 2 s.lcState ++ leBytes 2 (wrapInt 16 (sgn 8 (bits (s.dr PW_THERM) 7 0))) ++ leBytes 2 (bits (s.dr PW_STATUS) 31 16)
      ++ leBytes 4 293888 ++ leBytes 4 952650) OnlyAnswers := by
  intro s k h _
  change ∃ t, execDevStatus x s = .next t ∧ _
  unfold execDevStatus
  refine ⟨_, opcodeRow_of_due (zero := noCount) (bad := noFields) h rfl fits_nil, ?_⟩
  obtain ⟨ctx, hc⟩ := s.started_eq x.val k
  have ha := answers_of_tells h (.refl _ _) (st := OK) (by decide) (leBytes 1 s.stage ++ leBytes 1 s.role
      ++ leBytes 2 s.lcState ++ leBytes 2 (wrapInt 16 (sgn 8 (bits (s.dr PW_THERM) 7 0))) ++ leBytes 2 (bits (s.dr PW_STATUS) 31 16)
      ++ leBytes 4 293888 ++ leBytes 4 952650)
  rw [hc] at ha ⊢
  exact ha

end Sys2Proof.Machine
end

section
namespace Sys2Proof.Machine

open Claims

/-! #### Routing entries and slices (R415, R419, R420) -/

theorem mem_upFrom {lo n i : Nat} : i ∈ upFrom lo n ↔ lo ≤ i ∧ i < lo + n := by
  induction n generalizing lo with
  | zero => simp only [upFrom, List.not_mem_nil, false_iff]; omega
  | succ n ih => rw [upFrom, List.mem_cons, ih]; omega

/-- Each of several registers is written. -/
theorem foldl_dw_dr {r : Nat → Nat} (hr : Function.Injective r) (v : Nat → Nat) (l : List Nat) (s : State) (j : Nat) :
    (l.foldl (fun s i => s.dw (r i) (v i)) s).dr (r j) = if j ∈ l then v j % 2 ^ 64 else s.dr (r j) := by
  induction l generalizing s with
  | nil => rfl
  | cons i l ih =>
    rw [List.foldl_cons, ih]
    by_cases hj : j ∈ l
    · simp [hj]
    · by_cases hi : j = i
      · subst hi
        rw [if_neg hj, if_pos List.mem_cons_self, State.dr_dw_same]
      · rw [if_neg hj, if_neg (by simp [hj, hi]), State.dr_dw_other _ _ _ _ fun e => hi (hr e)]

/-- The state with the routing entries that command k gives. -/
def State.routed (s : State) (k : Cmd) : State :=
  (upFrom 0 (k.f 18 2)).foldl (fun s i => s.dw (LK_RT_ENT + 8 * (k.f 16 2 + i)) (k.f (32 + 4 * i) 4)) s

theorem State.routed_tells (s : State) {k : Cmd} : State.Tells outsideReg s (s.routed k) := by
  have hb := k.f_lt 16 2
  refine List.foldlRecOn _ _ (State.Tells.refl _ s) fun u hu i hi => hu.dw ?_
  have hi := mem_upFrom.mp hi
  have hn := k.f_lt 18 2
  left
  simp only [LK_RT_ENT, MG_CX_CTRL]
  omega

theorem State.routed_dr (s : State) (k : Cmd) (c : Nat) :
    (s.routed k).dr (LK_RT_ENT + 8 * c) = if k.f 16 2 ≤ c ∧ c < k.f 16 2 + k.f 18 2 then k.f (32 + 4 * (c - k.f 16 2)) 4
      else s.dr (LK_RT_ENT + 8 * c) := by
  have hinj : Function.Injective fun i => LK_RT_ENT + 8 * (k.f 16 2 + i) := fun a b h => by
    simp only at h
    omega
  by_cases hc : k.f 16 2 ≤ c
  · have h := foldl_dw_dr hinj (fun i => k.f (32 + 4 * i) 4) (upFrom 0 (k.f 18 2)) s (c - k.f 16 2)
    have he : k.f 16 2 + (c - k.f 16 2) = c := by omega
    have hl := k.f_lt (32 + 4 * (c - k.f 16 2)) 4
    have hm : k.f (32 + 4 * (c - k.f 16 2)) 4 % 2 ^ 64 = k.f (32 + 4 * (c - k.f 16 2)) 4 := Nat.mod_eq_of_lt (by omega)
    simp only [he, hm, mem_upFrom] at h
    rw [State.routed, h]
    congr 1
    exact propext ⟨fun _ => by omega, fun _ => by omega⟩
  · rw [if_neg (by omega)]
    refine List.foldlRecOn (motive := fun u : State => u.dr (LK_RT_ENT + 8 * c) = s.dr (LK_RT_ENT + 8 * c)) _ _ rfl
      fun u hu i _ => ?_
    rw [State.dr_dw_other _ _ _ _ (by omega), hu]

theorem execRtWrite_spec (x : Ctx) :
    Does (.rtWrite x) x 0x0702 (fun _ k => 0 < k.f 18 2 ∧ k.f 16 2 + k.f 18 2 ≤ 4096
        ∧ ∀ i < k.f 18 2, k.f (32 + 4 * i) 4 < 2 ^ 21) OK noResult
      (fun s k t => OnlyAnswers s k t ∧ (∀ i < k.f 18 2, t.dr (LK_RT_ENT + 8 * (k.f 16 2 + i)) = k.f (32 + 4 * i) 4)
        ∧ ∀ c < 4096, (c < k.f 16 2 ∨ k.f 16 2 + k.f 18 2 ≤ c) → t.dr (LK_RT_ENT + 8 * c) = s.dr (LK_RT_ENT + 8 * c)) := by
  intro s k h ⟨hpos, hend, hval⟩
  have he : exec (.rtWrite x) s = .next (((s.started x.val k).routed k).reply x.val k OK) := by
    change execRtWrite x s = _
    unfold execRtWrite
    rw [opcodeRow_of_due h]
    · exact congrArg Host.Outcome.next (if_neg (Nat.not_lt.mpr hend))
    · simp; omega
    · rw [if_neg (Nat.not_lt.mpr hend)]
      intro b hb
      obtain ⟨i, hi, rfl⟩ := List.mem_map.mp hb
      have := hval i (by have := mem_upFrom.mp hi; omega)
      simpa using this
  obtain ⟨ha, hc, ho⟩ := answers_of_tells h (s.started x.val k).routed_tells (st := OK) (by decide) []
  have hdr : ∀ c < 4096, (((s.started x.val k).routed k).reply x.val k OK).dr (LK_RT_ENT + 8 * c)
      = if k.f 16 2 ≤ c ∧ c < k.f 16 2 + k.f 18 2 then k.f (32 + 4 * (c - k.f 16 2)) 4 else s.dr (LK_RT_ENT + 8 * c) := by
    intro c hc
    rw [State.reply_dr _ x.isLt _ _ _ _ (by simp only [reportReg, LK_RT_ENT, MG_CX_CTRL, MG_EL_CNT, LK_RV_CNT_NOROUTE]; omega),
      State.routed_dr, (s.started_leaves (fun _ => False) x.val k).regs _ id]
  refine ⟨_, he, ha, hc, ho, fun i hi => ?_, fun c hc hout => ?_⟩
  · rw [hdr _ (by omega), if_pos (by omega), Nat.add_sub_cancel_left]
  · rw [hdr c hc, if_neg (by omega)]

/-- The registers of the curtains. -/
def curtainReg (a : Nat) : Prop := SY_CUR_CFG ≤ a ∧ a < SY_CNT_SIG

theorem outsideReg_of_curtainReg {a : Nat} (h : curtainReg a) : outsideReg a := by
  simp only [curtainReg, SY_CNT_SIG] at h
  simp only [outsideReg, MG_CX_CTRL]
  omega

theorem State.ringCurtain_tells (s : State) : State.Tells curtainReg s s.ringCurtain :=
  ((State.Tells.refl _ s).dw (by unfold curtainReg; decide)).dw (by unfold curtainReg; decide)

/-- The state with the binding that command k gives. -/
def State.bound (s : State) (k : Cmd) : State :=
  let s := s.dw (LK_SLICE_BIND + 8 * k.f 16 1) (k.f 17 1 + 16 * b2n (k.f 18 1 == 1))
  if 2 ≤ s.role then s.ringCurtain else s

theorem State.bound_tells (s : State) (k : Cmd) : State.Tells outsideReg s (s.bound k) := by
  have ho : outsideReg (LK_SLICE_BIND + 8 * k.f 16 1) := by
    have := k.f_lt 16 1
    left
    simp only [LK_SLICE_BIND, MG_CX_CTRL]
    omega
  have hd := (State.Tells.refl outsideReg s).dw (v := k.f 17 1 + 16 * b2n (k.f 18 1 == 1)) ho
  exact .ite (hd.trans ((State.ringCurtain_tells _).mono fun _ => outsideReg_of_curtainReg)) hd

theorem State.bound_dr (s : State) {k : Cmd} (hc : k.f 17 1 ≤ 15) (hon : k.f 18 1 ≤ 1) :
    (s.bound k).dr (LK_SLICE_BIND + 8 * k.f 16 1) = k.f 17 1 + 16 * k.f 18 1 := by
  have hb := k.f_lt 16 1
  have hv : k.f 17 1 + 16 * b2n (k.f 18 1 == 1) = k.f 17 1 + 16 * k.f 18 1 := by
    obtain h | h : k.f 18 1 = 0 ∨ k.f 18 1 = 1 := by omega
    · rw [h]; rfl
    · rw [h]; rfl
  have hnot : ¬ curtainReg (LK_SLICE_BIND + 8 * k.f 16 1) := by
    simp only [curtainReg, LK_SLICE_BIND, SY_CUR_CFG, SY_CNT_SIG]
    omega
  have hd : (s.dw (LK_SLICE_BIND + 8 * k.f 16 1) (k.f 17 1 + 16 * b2n (k.f 18 1 == 1))).dr (LK_SLICE_BIND + 8 * k.f 16 1)
      = k.f 17 1 + 16 * k.f 18 1 := by
    rw [State.dr_dw_same, hv]
    exact Nat.mod_eq_of_lt (by omega)
  unfold State.bound
  extract_lets s1
  split
  · exact ((State.ringCurtain_tells s1).regs _ hnot).trans hd
  · exact hd

theorem execSliceBind_spec (x : Ctx) :
    Does (.sliceBind x) x 0x0703 (fun s k => 0 < k.f 16 1 ∧ k.f 17 1 ≤ 15 ∧ k.f 18 1 ≤ 1
        ∧ (k.f 18 1 = 0 ∨ s.sliceOf (k.f 17 1) = none ∨ s.sliceOf (k.f 17 1) = some (k.f 16 1))) OK noResult
      (fun s k t => OnlyAnswers s k t ∧ t.dr (LK_SLICE_BIND + 8 * k.f 16 1) = k.f 17 1 + 16 * k.f 18 1) := by
  intro s k h ⟨hpos, hc, hon, hfree⟩
  have hslice : (s.started x.val k).sliceOf (k.f 17 1) = s.sliceOf (k.f 17 1) := by
    obtain ⟨ctx, he⟩ := s.started_eq x.val k
    rw [he]
    rfl
  have he : exec (.sliceBind x) s = .next (((s.started x.val k).bound k).reply x.val k OK) := by
    change execSliceBind x s = _
    unfold execSliceBind
    rw [opcodeRow_of_due h rfl]
    · refine congrArg Host.Outcome.next (if_neg ?_)
      rw [hslice]
      obtain hf | hf | hf := hfree
      · simp [hf]
      · simp [hf]
      · simp [hf]
    · intro b hb
      simp only [List.mem_cons, List.not_mem_nil, or_false] at hb
      obtain rfl | rfl | rfl := hb
      · simp; omega
      · simp; omega
      · simp; omega
  obtain ⟨ha, hr, ho⟩ := answers_of_tells h ((s.started x.val k).bound_tells k) (st := OK) (by decide) []
  refine ⟨_, he, ha, hr, ho, ?_⟩
  have hb := k.f_lt 16 1
  rw [State.reply_dr _ x.isLt _ _ _ _ (by simp only [reportReg, LK_SLICE_BIND, MG_CX_CTRL, MG_EL_CNT, LK_RV_CNT_NOROUTE]; omega),
    State.bound_dr _ hc hon]

/-! #### The ring description (R31, R32, R408 to R410) -/

theorem leNat_append (a b : List Byte) : leNat (a ++ b) = leNat a + 256 ^ a.length * leNat b := by
  induction a with
  | nil => simp [leNat]
  | cons x a ih =>
    rw [List.cons_append, leNat, ih, leNat, List.length_cons, Nat.pow_succ]
    ring

theorem sliceB_add (bs : List Byte) (off m n : Nat) : sliceB bs off (m + n) = sliceB bs off m ++ sliceB bs (off + m) n := by
  have hget : ∀ o c i, (sliceB bs o c)[i]? = if i < c then some ((bs[o + i]?).getD 0) else none := by
    intro o c i
    simp only [sliceB, List.getElem?_append, List.length_take, List.length_drop, List.getElem?_take, List.getElem?_drop,
      List.getElem?_replicate]
    by_cases hi : i < c
    · by_cases hl : o + i < bs.length
      · rw [if_pos (by omega), if_pos hi, if_pos hi, List.getElem?_eq_getElem hl]
        rfl
      · rw [if_neg (by omega), if_pos (by omega), if_pos hi, List.getElem?_eq_none (by omega)]
        rfl
    · rw [if_neg (by omega), if_neg (by omega), if_neg hi]
  apply List.ext_getElem?
  intro i
  rw [List.getElem?_append, sliceB_length, hget, hget, hget]
  by_cases hi : i < m
  · rw [if_pos (by omega), if_pos hi, if_pos hi]
  · have he : off + m + (i - m) = off + i := by omega
    rw [if_neg hi, he]
    by_cases hn : i < m + n
    · rw [if_pos hn, if_pos (by omega)]
    · rw [if_neg hn, if_neg (by omega)]

/-- A field is its low bytes and its high bytes. -/
theorem fieldB_add (bs : List Byte) (off m n : Nat) :
    fieldB bs off (m + n) = fieldB bs off m + 256 ^ m * fieldB bs (off + m) n := by
  unfold fieldB
  rw [sliceB_add, leNat_append, sliceB_length]

/-- The first word of a description: size, position, chip and manager. -/
theorem desc_word (d : List Byte) :
    fieldB d 0 8 = fieldB d 0 2 + 2 ^ 16 * (fieldB d 2 2 + 2 ^ 16 * (fieldB d 4 2 + 2 ^ 16 * fieldB d 6 2)) := by
  have h1 : fieldB d 0 8 = fieldB d 0 2 + 256 ^ 2 * fieldB d 2 6 := fieldB_add d 0 2 6
  have h2 : fieldB d 2 6 = fieldB d 2 2 + 256 ^ 2 * fieldB d 4 4 := fieldB_add d 2 2 4
  have h3 : fieldB d 4 4 = fieldB d 4 2 + 256 ^ 2 * fieldB d 6 2 := fieldB_add d 4 2 2
  omega

/-- The role that a description gives. -/
def descRole (d : List Byte) : Nat := if fieldB d 4 2 % 4096 = fieldB d 6 2 % 4096 then 3 else 2

/-- The words of a description are stored. -/
def State.descStored (s : State) (d : List Byte) : State := (upFrom 0 4).foldl (fun s i => s.dw (LK_RV_DESC + 8 * i) (fieldB d (8 * i) 8)) s

/-- An accepted description, but for the layer curtain. -/
def State.descTaken (s : State) (d : List Byte) : State :=
  (((s.descStored d).dwf LK_RV_STATUS 1 0 (descRole d)).dwf LK_RV_STATUS 2 2 1).dwf MG_SU_STATUS 3 3 0

theorem State.takeDesc_eq (s : State) (d : List Byte) : s.takeDesc d = (s.descTaken d).ringCurtain := rfl

theorem State.descStored_tells (s : State) (d : List Byte) : State.Tells outsideReg s (s.descStored d) :=
  List.foldlRecOn _ _ (State.Tells.refl _ s) fun u hu i hi => hu.dw (by
    have hi := mem_upFrom.mp hi
    left
    simp only [LK_RV_DESC, MG_CX_CTRL]
    omega)

theorem State.takeDesc_tells (s : State) (d : List Byte) : State.Tells outsideReg s (s.takeDesc d) := by
  have h : State.Tells outsideReg s (s.descTaken d) :=
    (((s.descStored_tells d).dwf (by unfold outsideReg; decide)).dwf (by unfold outsideReg; decide)).dwf
      (by unfold outsideReg; decide)
  exact h.trans ((State.ringCurtain_tells _).mono fun _ => outsideReg_of_curtainReg)

theorem State.takeDesc_status (s : State) (d : List Byte) :
    (s.takeDesc d).dr LK_RV_STATUS = setBits (setBits ((s.descStored d).dr LK_RV_STATUS) 1 0 (descRole d)) 2 2 1 := by
  rw [State.takeDesc_eq, (State.ringCurtain_tells _).regs _ (by unfold curtainReg; decide), State.descTaken,
    State.dr_dwf_other _ _ _ _ (by decide), State.dr_dwf_same _ _ _ (by decide) (by decide),
    State.dr_dwf_same _ _ _ (by decide) (by decide)]

theorem State.takeDesc_word (s : State) (d : List Byte) {i : Nat} (hi : i < 4) :
    (s.takeDesc d).dr (LK_RV_DESC + 8 * i) = fieldB d (8 * i) 8 := by
  have hinj : Function.Injective fun i => LK_RV_DESC + 8 * i := fun a b h => by
    simp only at h
    omega
  have h := foldl_dw_dr hinj (fun i => fieldB d (8 * i) 8) (upFrom 0 4) s i
  have hlt : fieldB d (8 * i) 8 < 2 ^ 64 := fieldB_lt _ _ _
  rw [if_pos (mem_upFrom.mpr (by omega)), Nat.mod_eq_of_lt hlt] at h
  have hne : ∀ b, b = LK_RV_STATUS ∨ b = MG_SU_STATUS → LK_RV_DESC + 8 * i ≠ b := by
    intro b hb
    simp only [LK_RV_STATUS, MG_SU_STATUS] at hb
    simp only [LK_RV_DESC]
    omega
  rw [State.takeDesc_eq, (State.ringCurtain_tells _).regs _ (by simp only [curtainReg, LK_RV_DESC, SY_CNT_SIG]; omega),
    State.descTaken, State.dr_dwf_other _ _ _ _ (hne _ (.inr rfl)), State.dr_dwf_other _ _ _ _ (hne _ (.inl rfl)),
    State.dr_dwf_other _ _ _ _ (hne _ (.inl rfl))]
  exact h

/-- What the device shows of a description whose first word it holds (R408). -/
theorem desc_fields {t : State} {d : List Byte} (h : t.dr LK_RV_DESC = fieldB d 0 8) :
    t.ringN = fieldB d 0 2 ∧ t.ringPos = fieldB d 2 2 ∧ (fieldB d 4 2 ≤ 4095 → t.chip = fieldB d 4 2)
      ∧ (fieldB d 6 2 ≤ 4095 → t.mgrChip = fieldB d 6 2) := by
  have hd : ∃ w, t.desc = fieldB d 0 8 + 2 ^ 64 * w := by
    refine ⟨t.dr (LK_RV_DESC + 8) + t.dr (LK_RV_DESC + 16) * 2 ^ 64 + t.dr (LK_RV_DESC + 24) * 2 ^ 128, ?_⟩
    rw [State.desc, h]
    ring
  obtain ⟨w, hd⟩ := hd
  have h0 := fieldB_lt d 0 2
  have h2 := fieldB_lt d 2 2
  have h4 := fieldB_lt d 4 2
  have h6 := fieldB_lt d 6 2
  rw [desc_word] at hd
  unfold State.ringN State.ringPos State.chip State.mgrChip bits
  rw [hd]
  generalize fieldB d 0 2 = n at *
  generalize fieldB d 2 2 = p at *
  generalize fieldB d 4 2 = c at *
  generalize fieldB d 6 2 = m at *
  simp only [Nat.reducePow, Nat.reduceAdd, Nat.reduceSub, Nat.div_one] at *
  refine ⟨by omega, by omega, fun _ => by omega, fun _ => by omega⟩

/-- Fields of a description that break no range. -/
theorem chips_of_fits {d : List Byte} (h : Fits (badDesc d)) : fieldB d 4 2 ≤ 4095 ∧ fieldB d 6 2 ≤ 4095 := by
  have h4 := h (decide (4095 < fieldB d 4 2), 4) (by simp [badDesc])
  have h6 := h (decide (4095 < fieldB d 6 2), 6) (by simp [badDesc])
  simp only [decide_eq_false_iff_not, Nat.not_lt] at h4 h6
  exact ⟨h4, h6⟩

theorem State.giveDesc_ok {s : State} {d : List Byte} (hr : s.role ≠ 0) (hb : Fits (badDesc d))
    (hf : bit (s.dr LK_RV_STATUS) 2 = false) : s.giveDesc d = (OK, 0, s.takeDesc d) := by
  unfold State.giveDesc
  rw [if_neg hr, leastOff_of_fits hb, hf]
  rfl

theorem State.giveDesc_denied {s : State} {d : List Byte} (hb : Fits (badDesc d))
    (h : s.role = 0 ∨ bit (s.dr LK_RV_STATUS) 2 = true) : s.giveDesc d = (DENIED, 0, s) := by
  unfold State.giveDesc
  rw [leastOff_of_fits hb]
  by_cases hr : s.role = 0
  · rw [if_pos hr]
  · rw [if_neg hr, h.resolve_left hr]
    rfl

/-- RING_DESC answers as the description that it carries is taken. -/
theorem execRingDesc_eq {s : State} {x : Ctx} {k : Cmd} (h : Due s x 0x0701 k) {st : Nat} {u : State}
    (hg : (s.started x.val k).giveDesc (sliceB k.pkt 32 32) = (st, 0, u)) (hst : st ≠ MALFORMED) :
    exec (.ringDesc x) s = .next (u.reply x.val k st) := by
  change execRingDesc x s = _
  unfold execRingDesc
  rw [opcodeRow_of_due h rfl fits_nil, hg]
  exact congrArg Host.Outcome.next (if_neg hst)

theorem execRingDesc_ok {s : State} {x : Ctx} {k : Cmd} {d : List Byte} (h : Due s x 0x0701 k) (hd : d = sliceB k.pkt 32 32)
    (hr : s.role ≠ 0) (hb : Fits (badDesc d)) (hf : bit (s.dr LK_RV_STATUS) 2 = false) :
    ∃ t, exec (.ringDesc x) s = .next t ∧ Answers s t x.val k OK ∧ bit (t.dr LK_RV_STATUS) 2 = true
      ∧ t.role = (if fieldB d 4 2 = fieldB d 6 2 then 3 else 2) ∧ t.ringN = fieldB d 0 2 ∧ t.ringPos = fieldB d 2 2
      ∧ t.chip = fieldB d 4 2 ∧ t.mgrChip = fieldB d 6 2 ∧ t.cls = s.cls ∧ t.mem = s.mem := by
  subst hd
  have hl := s.started_leaves (fun _ => False) x.val k
  have hg := State.giveDesc_ok (s := s.started x.val k) (by rwa [hl.role id]) hb (by rwa [hl.regs _ id])
  have hs := (s.started x.val k).takeDesc_status (sliceB k.pkt 32 32)
  have hw := (s.started x.val k).takeDesc_word (sliceB k.pkt 32 32) (i := 0) (by decide)
  obtain ⟨ha, -, ho⟩ := answers_of_tells h ((s.started x.val k).takeDesc_tells (sliceB k.pkt 32 32)) (st := OK) (by decide) []
  refine ⟨_, execRingDesc_eq h hg (by decide), ha, ?_⟩
  have hdr : ∀ a, ¬ reportReg a → ((((s.started x.val k).takeDesc (sliceB k.pkt 32 32)).reply x.val k OK).dr a)
      = ((s.started x.val k).takeDesc (sliceB k.pkt 32 32)).dr a := fun a ha => State.reply_dr _ x.isLt _ _ _ _ ha
  rw [← hdr _ (by unfold reportReg; decide)] at hs hw
  generalize ((s.started x.val k).takeDesc (sliceB k.pkt 32 32)).reply x.val k OK = t at *
  generalize sliceB k.pkt 32 32 = d at *
  obtain ⟨hcls, hmem, -⟩ := ho
  obtain ⟨hn, hp, hc, hm⟩ := desc_fields hw
  obtain ⟨h4, h6⟩ := chips_of_fits hb
  refine ⟨?_, ?_, hn, hp, hc h4, hm h6, hcls, hmem⟩
  · rw [hs]
    exact bit_setBits_b2n _ 2 true
  · rw [State.role, hs, bits_setBits_other _ _ (by decide) (by decide), bits_setBits_same _ _ (by decide), descRole,
      Nat.mod_eq_of_lt (Nat.lt_succ_of_le h4), Nat.mod_eq_of_lt (Nat.lt_succ_of_le h6)]
    split <;> rfl

theorem execRingDesc_denied {s : State} {x : Ctx} {k : Cmd} {d : List Byte} (h : Due s x 0x0701 k) (hd : d = sliceB k.pkt 32 32)
    (hb : Fits (badDesc d)) (hf : s.role = 0 ∨ bit (s.dr LK_RV_STATUS) 2 = true) :
    ∃ t, exec (.ringDesc x) s = .next t ∧ Answers s t x.val k DENIED ∧ OnlyAnswers s k t ∧ t.desc = s.desc := by
  subst hd
  have hl := s.started_leaves (fun _ => False) x.val k
  have hg := State.giveDesc_denied (s := s.started x.val k) hb (by rwa [hl.role id, hl.regs _ id])
  obtain ⟨ha, -, ho⟩ := answers_of_tells h (.refl _ _) (st := DENIED) (by decide) []
  refine ⟨_, execRingDesc_eq h hg (by decide), ha, ho, ?_⟩
  have hdr : ∀ a, ¬ reportReg a → ((s.started x.val k).reply x.val k DENIED).dr a = s.dr a := fun a hr =>
    (State.reply_dr _ x.isLt _ _ _ _ hr).trans (hl.regs a id)
  rw [State.desc, State.desc, hdr _ (by unfold reportReg; decide), hdr _ (by unfold reportReg; decide),
    hdr _ (by unfold reportReg; decide), hdr _ (by unfold reportReg; decide)]

end Sys2Proof.Machine
end

/-! ### Relays, register writes and understudy pairing -/

section
namespace Sys2Proof.Machine

open Claims

/-! #### RELAY (R436, R587, R684) -/

/-- What a relay appends to the packets relayed. -/
theorem State.sendRelay_spec (s : State) (x : Nat) (k : Cmd) (extra : List Byte) :
    (∀ y, (s.sendRelay x k extra).cmds y = s.cmds y) ∧ (s.sendRelay x k extra).rv.relayN = s.rv.relayN + 1
      ∧ (s.sendRelay x k extra).rv.relayed = s.rv.relayed ++ [{ id := s.rv.relayN % 2 ^ 32, ctx := x, seq := k.seq, chip := k.f 16 2
                                                                until_ := s.timebase + 1000 * bits (s.dr (cxReg MG_CX_CTRL x)) 36 21 }] := by
  unfold State.sendRelay
  extract_lets slice id tmo r _ t
  have h : ∀ msg, State.Tells (fun _ => True) t (t.sendMgmt (k.f 16 2) msg) := fun _ =>
    (State.Tells.refl _ t).sendMgmt fun _ _ => trivial
  refine ⟨fun y => (h _).cmds y, congrArg Revolve.relayN (h _).rv, congrArg Revolve.relayed (h _).rv⟩

theorem State.hostBytes_eq (s : State) (n : Nat) : ∃ freeCount, (s.hostBytes n).2 = { s with freeCount := freeCount } := by
  have h : ∀ (l : List Nat) (r : List Byte × State), ∃ freeCount,
      (l.foldl (fun r _ => let f := r.2.free; (r.1 ++ leBytes 8 f.1.toNat, f.2)) r).2 = { r.2 with freeCount := freeCount } := by
    intro l
    induction l with
    | nil => exact fun r => ⟨r.2.freeCount, rfl⟩
    | cons a l ih =>
      intro r
      rw [List.foldl_cons]
      obtain ⟨n, hn⟩ := ih (r.1 ++ leBytes 8 r.2.free.1.toNat, r.2.free.2)
      exact ⟨n, hn⟩
  exact h _ _

theorem State.rewrap_eq {s u : State} {x dst : Nat} {inner b : List Byte} (h : s.rewrap x dst inner = some (b, u)) :
    ∃ freeCount rngCount, u = { s with freeCount := freeCount, rngCount := rngCount } := by
  unfold State.rewrap at h
  obtain ⟨n, hn⟩ := s.hostBytes_eq 68
  split at h
  · cases h
  · extract_lets r bs at h
    split at h
    · next m _ _ =>
      split at h
      · cases h
      · cases h
        exact ⟨n, _, congrArg (fun v : State => { v with rngCount := v.rngCount + 1 }) hn⟩
    · cases h

theorem State.started_length (s : State) (x y : Nat) (k : Cmd) : ((s.started y k).cmds x).length = (s.cmds x).length := by
  simpa using congrArg List.length (s.started_serves x y k).keys

/-- A relay that is due and need not wait goes to its worker if it is routed there. -/
theorem execRelay_eq {s : State} {x : Ctx} {k : Cmd} (h : Due s x 0x0704 k) (hc : k.f 16 2 ≤ 4095)
    (hroute : bit (s.dr (LK_RT_ENT + 8 * k.f 16 2)) 20 = true)
    (hold : (k.f 32 2 == 0x0903 && (s.rngFail || !(s.mayMaster x.val))) = false) :
    exec (.relay x) s = .next (if k.f 32 2 = 0x0903 ∧ k.f 48 4 = 68 then
        match (s.started x.val k).rewrap x.val (k.f 16 2) (k.pkt.drop 32) with
        | some r => r.2.sendRelay x.val k r.1
        | none => (s.started x.val k).reply x.val k DENIED
      else (s.started x.val k).sendRelay x.val k []) := by
  change execRelay x s = _
  unfold execRelay opcodeWhen
  rw [h.1]
  dsimp only
  rw [if_neg (by simp [hold]), opcodeRow_of_due h rfl]
  · refine congrArg Host.Outcome.next (if_neg ?_)
    rw [(s.started_leaves (fun _ => False) x.val k).regs _ id, hroute]
    decide
  · intro b hb
    simp only [List.mem_cons, List.not_mem_nil, or_false] at hb
    subst hb
    simpa using hc

theorem execRelay_spec {s : State} {x : Ctx} {k : Cmd} (h : Due s x 0x0704 k) (hc : k.f 16 2 ≤ 4095)
    (hroute : bit (s.dr (LK_RT_ENT + 8 * k.f 16 2)) 20 = true) (hop : k.f 32 2 ≠ 0x0903) :
    ∃ t, exec (.relay x) s = .next t ∧ (t.cmds x.val).length = (s.cmds x.val).length ∧ t.rv.relayN = s.rv.relayN + 1
      ∧ t.rv.relayed = s.rv.relayed ++ [{ id := s.rv.relayN % 2 ^ 32, ctx := x.val, seq := k.seq, chip := k.f 16 2
                                          until_ := s.timebase + 1000 * bits (s.dr (cxReg MG_CX_CTRL x.val)) 36 21 }] := by
  have he := execRelay_eq h hc hroute (by simp [hop])
  rw [if_neg (fun hk => hop hk.1)] at he
  obtain ⟨hcmds, hn, hr⟩ := (s.started x.val k).sendRelay_spec x.val k []
  have hl := s.started_leaves (fun _ => False) x.val k
  rw [hl.rv] at hn
  rw [hl.rv, hl.timebase, hl.regs _ id] at hr
  exact ⟨_, he, by rw [hcmds, s.started_length], hn, hr⟩

theorem execRelay_key {s : State} {x : Ctx} {k : Cmd} (h : Due s x 0x0704 k) (hc : k.f 16 2 ≤ 4095)
    (hroute : bit (s.dr (LK_RT_ENT + 8 * k.f 16 2)) 20 = true) (hrng : s.rngFail = false) (hm : s.mayMaster x.val = true) :
    ∃ t, exec (.relay x) s = .next t
      ∧ (Answers s t x.val k DENIED ∨ ((t.cmds x.val).length = (s.cmds x.val).length ∧ t.rv.relayN = s.rv.relayN + 1)) := by
  have he := execRelay_eq h hc hroute (by simp [hrng, hm])
  have hl := s.started_leaves (fun _ => False) x.val k
  have hsent : ∀ (u : State) extra, u.ctx = (s.started x.val k).ctx → u.rv = (s.started x.val k).rv →
      ((u.sendRelay x.val k extra).cmds x.val).length = (s.cmds x.val).length
        ∧ (u.sendRelay x.val k extra).rv.relayN = s.rv.relayN + 1 := by
    intro u extra hctx hrv
    obtain ⟨hcmds, hn, -⟩ := u.sendRelay_spec x.val k extra
    rw [hrv, hl.rv] at hn
    refine ⟨?_, hn⟩
    have hu : u.cmds x.val = (s.started x.val k).cmds x.val := by simp only [State.cmds, State.cx, hctx]
    rw [hcmds, hu, s.started_length]
  refine ⟨_, he, ?_⟩
  split
  · split
    · next r hr =>
      obtain ⟨n, m, hu⟩ := State.rewrap_eq hr
      exact .inr (hsent r.2 _ (by rw [hu]) (by rw [hu]))
    · exact .inl (answers_of_tells h (.refl _ _) (by decide) []).1
  · exact .inr (hsent _ _ rfl rfl)

/-! #### REG_WRITE (R218, R588) -/

theorem execRegWrite_eq {s : State} {x : Ctx} {k : Cmd} (h : Due s x 0x0803 k) (ha : k.f 24 8 % 8 = 0) :
    exec (.regWrite x) s = .next (((s.started x.val k).devWrite .firmware (k.f 24 8) (k.f 16 8)).reply x.val k OK) := by
  change execRegWrite x s = _
  unfold execRegWrite
  refine opcodeRow_of_due h rfl fun b hb => ?_
  simp only [List.mem_cons, List.not_mem_nil, or_false] at hb
  subst hb
  simp [ha]

/-- MG_TB_LOAD has one field of 64 bits, which every write sets. -/
theorem State.devWrite_tbLoad (s : State) (v : Nat) :
    s.devWrite .firmware MG_TB_LOAD v = s.dw MG_TB_LOAD (setBits (s.dr MG_TB_LOAD) 63 0 (bits v 63 0)) := by
  have h1 : s.devWrite .firmware MG_TB_LOAD v = s.devPlain MG_TB_LOAD v := rfl
  have h2 : fieldsIn devRegRows MG_TB_LOAD = some [⟨63, 0, .rw, 0, 0, 18446744073709551615⟩] := by decide
  have h3 : devCaptures.find? (fun p => p.1 == MG_TB_LOAD) = none := by decide
  have h4 := bits_lt v 63 0
  rw [h1]
  unfold State.devPlain
  rw [h2]
  dsimp only
  rw [h3]
  simp only [writeFields, List.foldl_cons, List.foldl_nil]
  rw [if_pos ⟨Nat.zero_le _, by omega⟩]

theorem execRegWrite_tbLoad (x : Ctx) :
    Does (.regWrite x) x 0x0803 (fun _ k => k.f 24 8 = MG_TB_LOAD) OK noResult
      (fun s k t => OnlyAnswers s k t ∧ t.dr MG_TB_LOAD = k.f 16 8) := by
  intro s k h ha
  have he := execRegWrite_eq h (by rw [ha]; decide)
  rw [ha, State.devWrite_tbLoad] at he
  have hu : State.Tells outsideReg (s.started x.val k) ((s.started x.val k).dw MG_TB_LOAD
      (setBits ((s.started x.val k).dr MG_TB_LOAD) 63 0 (bits (k.f 16 8) 63 0))) :=
    (State.Tells.refl _ _).dw (by unfold outsideReg; decide)
  obtain ⟨hans, hc, ho⟩ := answers_of_tells h hu (st := OK) (by decide) []
  refine ⟨_, he, hans, hc, ho, ?_⟩
  rw [State.reply_dr _ x.isLt _ _ _ _ (by unfold reportReg; decide), State.dr_dw_same]
  have hv : k.f 16 8 < 2 ^ 64 := k.f_lt 16 8
  have hb : bits (k.f 16 8) 63 0 = k.f 16 8 := by
    simp only [bits, Nat.pow_zero, Nat.div_one]
    exact Nat.mod_eq_of_lt hv
  have hs : bits (setBits ((s.started x.val k).dr MG_TB_LOAD) 63 0 (k.f 16 8)) 63 0 = k.f 16 8 := by
    rw [bits_setBits_same _ _ (by decide)]
    exact Nat.mod_eq_of_lt hv
  rw [hb]
  simpa only [bits, Nat.pow_zero, Nat.div_one] using hs

/-! #### US_PAIR (R529, R588) -/

/-- From s to t pairing may have started: the commands of context x are served as before, and memory, the security element
and MG_US_CTRL are as they were. -/
structure State.Pairs (x : Nat) (s t : State) : Prop extends State.Serves x s t where
  mem : t.mem = s.mem
  sec : t.sec = s.sec
  ctrl : t.dr MG_US_CTRL = s.dr MG_US_CTRL

theorem not_ringReg_of_errReg {x y a : Nat} (h : errReg y a) : ¬ ringReg x a := by
  simp only [errReg, eventReg, cxReg, MG_CX_ERHEAD, MG_CX_CNT_EVENTS, MG_CX_CNT_EVLOST, MG_EL_CNT] at h
  simp only [ringReg, cxReg, MG_CX_CTRL, MG_CX_RRING, MG_CX_RRHEAD]
  omega

theorem not_ringReg_of_sendReg {x a : Nat} (hx : x < 16) (h : sendReg a) : ¬ ringReg x a := by
  obtain h | h := h
  · exact not_ringReg_of_errReg h
  · exact not_ringReg_of_outside hx (h ▸ by unfold outsideReg; decide)

theorem usCtrl_not_errReg {y : Nat} : ¬ errReg y MG_US_CTRL := by
  simp only [errReg, eventReg, cxReg, MG_CX_ERHEAD, MG_CX_CNT_EVENTS, MG_CX_CNT_EVLOST, MG_EL_CNT, MG_US_CTRL]
  omega

theorem State.Pairs.refl (x : Nat) (s : State) : State.Pairs x s s := ⟨.refl x s, rfl, rfl, rfl⟩

section
variable {x : Nat} (hx : x < 16) {s t : State} (h : State.Pairs x s t)
include hx h

theorem State.Pairs.setStatus {a v : Nat} (ha : outsideReg a) (hne : MG_US_CTRL ≠ a) : State.Pairs x s (t.dw a v) :=
  ⟨h.toServes.dw (not_ringReg_of_outside hx ha), h.mem, h.sec, (State.dr_dw_other _ _ _ _ hne).trans h.ctrl⟩

theorem State.Pairs.sendMgmt {dst : Nat} {msg : List Byte} : State.Pairs x s (t.sendMgmt dst msg) := by
  have hl : State.Tells sendReg t (t.sendMgmt dst msg) := (State.Tells.refl _ t).sendMgmt fun _ => id
  refine ⟨h.toServes.tells hl fun a ha hr => not_ringReg_of_sendReg hx hr ha, hl.mem.trans h.mem, hl.sec.trans h.sec, ?_⟩
  exact (hl.regs _ fun hr => hr.elim usCtrl_not_errReg (by decide)).trans h.ctrl

omit hx in
theorem State.Pairs.logErr {e : ErrRec} : State.Pairs x s (t.logErr e) := by
  have hl : State.Tells (errReg (e.ctx.getD 0)) t (t.logErr e) := (State.Tells.refl _ t).logErr fun _ => id
  refine ⟨h.toServes.tells hl fun a ha hr => not_ringReg_of_errReg hr ha, hl.mem.trans h.mem, hl.sec.trans h.sec, ?_⟩
  exact (hl.regs _ usCtrl_not_errReg).trans h.ctrl

omit hx in
theorem State.Pairs.setUs {us : Understudy} : State.Pairs x s { t with us } := ⟨h.toServes.frame, h.mem, h.sec, h.ctrl⟩

omit hx in
theorem State.Pairs.setCls {cls : Vector Cluster 40} : State.Pairs x s { t with cls } := ⟨h.toServes.frame, h.mem, h.sec, h.ctrl⟩

theorem State.Pairs.usDiscard : State.Pairs x s t.usDiscard := by
  have h1 : State.Pairs x s (t.setOwn []) := State.Pairs.setStatus hx h.setUs (by unfold outsideReg; decide) (by decide)
  unfold State.usDiscard
  extract_lets s1 us s2
  have h2 : State.Pairs x s s2 := h1.setUs
  clear_value s2
  refine ⟨h2.toServes.modCx fun z => ?_, ?_, ?_, ?_⟩
  · rw [List.map_map]
    rfl
  · simpa using h2.mem
  · simpa using h2.sec
  · exact ((State.Leaves.refl (fun _ => False) s2).modCx.regs _ id).trans h2.ctrl

theorem State.Pairs.usAgree : State.Pairs x s t.usAgree := by
  have hd := State.Pairs.usDiscard hx h
  have ho : outsideReg MG_US_STATUS := by unfold outsideReg; decide
  unfold State.usAgree
  split
  · exact h
  · split
    · exact h
    · extract_lets s1 mine us s2 clear
      have h2 : State.Pairs x s s2 := hd.setUs
      split
      · exact State.Pairs.setStatus hx h2.setCls ho (by decide)
      · exact State.Pairs.logErr (State.Pairs.setStatus hx (State.Pairs.setStatus hx h2 ho (by decide)) ho (by decide))

theorem State.Pairs.usStart : State.Pairs x s t.usStart := by
  have h1 : State.Pairs x s (t.dw MG_US_STATUS 1) := State.Pairs.setStatus hx h (by unfold outsideReg; decide) (by decide)
  exact State.Pairs.usAgree hx (State.Pairs.sendMgmt hx h1)

end

/-- With pairing off, MG_US_CTRL takes the value, and pairing starts if EN is set (R540). -/
theorem State.writeUsCtrl_spec {x : Nat} (hx : x < 16) {s : State} (h0 : bit (s.dr MG_US_CTRL) 0 = false) {v : Nat} (hv : v < 2 ^ 18) :
    State.Serves x s (s.writeUsCtrl v) ∧ (s.writeUsCtrl v).mem = s.mem ∧ (s.writeUsCtrl v).sec = s.sec
      ∧ (s.writeUsCtrl v).dr MG_US_CTRL = v := by
  have hd : (s.dw MG_US_CTRL (v % 2 ^ 18)).dr MG_US_CTRL = v := by
    rw [State.dr_dw_same, Nat.mod_eq_of_lt hv]
    exact Nat.mod_eq_of_lt (by omega)
  have hs : State.Serves x s (s.dw MG_US_CTRL (v % 2 ^ 18)) :=
    (State.Serves.refl x s).dw (not_ringReg_of_outside hx (by unfold outsideReg; decide))
  have hp := State.Pairs.usStart hx (.refl x (s.dw MG_US_CTRL (v % 2 ^ 18)))
  unfold State.writeUsCtrl
  extract_lets old
  rw [if_neg (by simp [old, h0]), if_neg (by simp [old, h0])]
  split
  · exact ⟨hs.trans hp.toServes, hp.mem, hp.sec, hp.ctrl.trans hd⟩
  · exact ⟨hs, rfl, rfl, hd⟩

theorem execUsPair_spec (x : Ctx) :
    Does (.usPair x) x 0x0804 (fun s k => k.f 16 1 ≤ 15 ∧ k.f 18 2 ≤ 4095 ∧ k.f 20 1 ≤ 3 ∧ bit (s.dr MG_US_CTRL) 0 = false) OK noResult
      (fun s k t => t.dr MG_US_CTRL = k.f 20 1 + 4 * k.f 18 2 + 2 ^ 14 * k.f 16 1 ∧ t.mem = s.mem ∧ t.sec = s.sec) := by
  intro s k h ⟨hctx, hchip, hen, hoff⟩
  have hv : k.f 20 1 + place 13 2 (k.f 18 2) + place 17 14 (k.f 16 1) = k.f 20 1 + 4 * k.f 18 2 + 2 ^ 14 * k.f 16 1 := by
    simp only [place]
    omega
  have he : exec (.usPair x) s = .next (((s.started x.val k).writeUsCtrl
      (k.f 20 1 + place 13 2 (k.f 18 2) + place 17 14 (k.f 16 1))).reply x.val k OK) := by
    change execUsPair x s = _
    unfold execUsPair
    refine opcodeRow_of_due h rfl fun b hb => ?_
    simp only [List.mem_cons, List.not_mem_nil, or_false] at hb
    obtain rfl | rfl | rfl := hb
    · simpa using hctx
    · simpa using hchip
    · simpa using hen
  have hl := s.started_leaves (fun _ => False) x.val k
  obtain ⟨hserve, hmem, hsec, hctrl⟩ := State.writeUsCtrl_spec x.isLt (s := s.started x.val k) (by rwa [hl.regs _ id])
    (v := k.f 20 1 + place 13 2 (k.f 18 2) + place 17 14 (k.f 16 1)) (by rw [hv]; omega)
  obtain ⟨ha, hc⟩ := ((s.started_serves x.val x.val k).trans hserve).answers x.isLt (mem_of_due h) (st := OK) (by decide) []
  have hr := State.reply_leaves ((s.started x.val k).writeUsCtrl (k.f 20 1 + place 13 2 (k.f 18 2) + place 17 14 (k.f 16 1)))
    x.val k OK [] []
  refine ⟨_, he, ha, hc, ?_, hr.mem.trans (hmem.trans hl.mem), hr.sec.trans (hsec.trans hl.sec)⟩
  rw [State.reply_dr _ x.isLt _ _ _ _ (by unfold reportReg; decide), hctrl, hv]

end Sys2Proof.Machine
end

/-! ### Resets that the host commands -/

section
namespace Sys2Proof.Machine

open Claims

/-! #### A warm reset (R589, R647) -/

/-- With debug access closed a warm reset leaves the host's memory as it was. -/
theorem State.warmReset_hostMem {s : State} (h : s.debugOpen = false) (cause : Nat) : (s.warmReset cause).hostMem = s.hostMem := by
  unfold State.warmReset
  extract_lets t
  have hr := t.wiped_atReset (keep := warmKeeps) (by decide) (by decide)
  have hc : s.closeDebug = s := if_pos h
  have hl : s.relockAll.hostMem = s.hostMem := by
    unfold State.relockAll
    split <;> rfl
  have ht : t.hostMem = s.hostMem := by
    unfold t
    rw [hc, State.dinc_hostMem, hl]
  have hw : (t.wiped warmKeeps).hostMem = t.hostMem := rfl
  exact (State.begin0_begins hr.muted cause none).hostMem.trans (hw.trans ht)

theorem resetRow_of_due {s : State} {x : Ctx} {k : Cmd} (h : Due s x 0x0A03 k) {kind : Nat → Bool} {bad : Cmd → List (Bool × Nat)}
    {f : Cmd → State → State} (hk : kind (k.f 16 1) = true) (hb : Fits (bad k)) :
    resetRow x s kind bad f = .next (f k (s.started x.val k)) := by
  have hr : resetRow x s kind bad f = opcodeRow x 0x0A03 s noCount bad f := by
    unfold resetRow
    rw [h.1]
    exact if_pos ⟨h.2.1, hk⟩
  rw [hr, opcodeRow_of_due h rfl hb]

theorem execResetWarm_spec {s : State} {x : Ctx} {k : Cmd} (h : Due s x 0x0A03 k) (hk : k.f 16 1 = 1) :
    ∃ t, exec (.resetWarm x) s = .next t ∧ t.mem = {} ∧ t.sec.lc = s.sec.lc ∧ (∀ y < 16, t.cmds y = [])
      ∧ bits (t.dr MG_SU_STATUS) 10 8 = 1 ∧ (s.debugOpen = false → Told s t x.val k OK) := by
  have he : exec (.resetWarm x) s = .next (((s.started x.val k).reply x.val k OK).warmReset 1) := by
    change execResetWarm x s = _
    unfold execResetWarm
    refine resetRow_of_due h (by rw [hk]; rfl) fun b hb => ?_
    simp only [List.mem_cons, List.not_mem_nil, or_false] at hb
    subst hb
    simp [hk]
  have hl := s.started_leaves (fun _ => False) x.val k
  have hr := (s.started x.val k).reply_leaves x.val k OK [] []
  obtain ⟨-, htold⟩ := ((s.started_serves x.val x.val k).answers x.isLt (mem_of_due h) (st := OK) (by decide) []).1
  have hd : ((s.started x.val k).reply x.val k OK).debugOpen = s.debugOpen := by
    unfold State.debugOpen
    rw [State.reply_dr _ x.isLt _ _ _ _ (by unfold reportReg; decide), hl.regs _ id]
  generalize (s.started x.val k).reply x.val k OK = u at *
  obtain ⟨⟨-, hcause, hmem, -, hcmds, hlc, -⟩, -⟩ := u.warmReset_fresh (cause := 1) (by decide)
  refine ⟨_, he, hmem, hlc.trans (congrArg Security.lc (hr.sec.trans hl.sec)), hcmds, hcause, fun hclosed ho hen hm hq => ?_⟩
  have hm' : replyAt s (u.warmReset 1) x.val = replyAt s u x.val := by
    unfold replyAt
    rw [State.warmReset_hostMem (hd.trans hclosed)]
  rw [hm']
  exact htold ho hen hm hq

/-! #### A port's reset (R651) -/

section
variable {s t : State} (h : State.Tells (fun _ => True) s t)
include h

theorem State.Tells.setRegs {regs : List (Nat × Word)} : State.Tells (fun _ => True) s { t with regs } :=
  h.trans ⟨⟨rfl, rfl, fun _ => id, fun _ => rfl, fun _ ha => absurd trivial ha⟩, fun _ => rfl⟩

theorem State.Tells.linkDown {k : Nat} : State.Tells (fun _ => True) s (t.linkDown k) := h.modLink.dw trivial

theorem State.Tells.setPort {p st : Nat} : State.Tells (fun _ => True) s (t.setPort p st) := (h.dwf trivial).dwf trivial

theorem State.Tells.linkErr {p cause off cls : Nat} : State.Tells (fun _ => True) s (t.linkErr p cause off cls) :=
  (h.dcap trivial).logErr fun _ _ => trivial

theorem State.Tells.sendPortstate {p n : Nat} : State.Tells (fun _ => True) s (t.sendPortstate p n) := by
  unfold State.sendPortstate State.sendCtl
  exact h.modPort

theorem State.Tells.orphan {p : Nat} : State.Tells (fun _ => True) s (t.orphan p) := by
  unfold State.orphan
  extract_lets k q others s1 s2
  have h1 : State.Tells (fun _ => True) s s1 := h.modPort
  have h2 : State.Tells (fun _ => True) s s2 := h1.modPort.modLink
  exact .ite (.ite h1 (h1.dinc trivial).linkErr) (h2.foldl fun _ _ hu => hu.sendPortstate)

/-- Each port may change, but for the end of its reset. -/
theorem State.Tells.mapPorts {f : PortSt → PortSt} (hf : ∀ q, (f q).offAt = q.offAt) :
    State.Tells (fun _ => True) s { t with ports := t.ports.map f } := by
  refine h.trans ⟨⟨rfl, rfl, fun _ => id, fun p => ?_, fun _ ha => absurd trivial ha⟩, fun _ => rfl⟩
  simp only [State.port, Vector.getElem_map]
  split
  · exact hf _
  · rfl

theorem State.Tells.portDown {p st : Nat} : State.Tells (fun _ => True) s (t.portDown p st) := by
  unfold State.portDown
  refine .ite ?_ h.setPort
  extract_lets k s1 s2 s3
  have h2 : State.Tells (fun _ => True) s s2 := (h.setPort.dwf trivial).orphan
  have h3 : State.Tells (fun _ => True) s s3 := h2.mapPorts fun q => by split <;> rfl
  exact .ite h3 h3.linkDown

end

theorem amGet_amErase {α : Type} (d : α) (m : List (Nat × α)) {lo hi k : Nat} (h : lo ≤ k ∧ k < hi) : amGet d (amErase m lo hi) k = d := by
  induction m with
  | nil => rfl
  | cons r m ih =>
    unfold amErase at ih ⊢
    by_cases hr : (decide (r.1 < lo) || decide (hi ≤ r.1)) = true
    · have hne : r.1 ≠ k := by
        simp only [Bool.or_eq_true, decide_eq_true_eq] at hr
        omega
      rw [List.filter_cons_of_pos (by simpa using hr), amGet, if_neg hne, ih]
    · rw [List.filter_cons_of_neg (by simpa using hr), ih]

/-- The page of registers of a port at reset shows the port off. -/
theorem portState_of_erased {s : State} {p : Nat} (hp : p < 8) :
    State.portState { s with regs := amErase s.regs (portReg LK_PORT_CTRL p) (portReg LK_PORT_CTRL p + 0x1000) } p = 0 := by
  have hreset : ∀ p : Fin 8, bits (word (devReset (portReg LK_PORT_STATUS p.val))).toNat 2 0 = 0 := by decide
  have hget := amGet_amErase (word (devReset (portReg LK_PORT_STATUS p))) s.regs
    (lo := portReg LK_PORT_CTRL p) (hi := portReg LK_PORT_CTRL p + 0x1000) (k := portReg LK_PORT_STATUS p)
    (by simp only [portReg, LK_PORT_CTRL, LK_PORT_STATUS]; omega)
  exact (congrArg (fun w : Word => bits w.toNat 2 0) hget).trans (hreset ⟨p, hp⟩)

theorem State.resetPort_spec (s : State) {p : Nat} (hp : p < 8) :
    (∀ y, (s.resetPort p).cmds y = s.cmds y) ∧ (s.resetPort p).portState p = 0
      ∧ ((s.resetPort p).port p).offAt = some (s.timebase + 1000000) ∧ (s.resetPort p).cls = s.cls ∧ (s.resetPort p).mem = s.mem := by
  unfold State.resetPort
  extract_lets k lastKeyed en s1 s2 s3 s4
  have h1 : State.Tells (fun _ => True) s s1 := (State.Tells.refl _ s).portDown
  have h2 : State.Tells (fun _ => True) s s2 := .ite h1.linkDown h1
  have h3 : State.Tells (fun _ => True) s s3 := h2.setRegs
  have h4 : State.Tells (fun _ => True) s s4 := h3.dwf trivial
  have hstate : s4.portState p = 0 := by
    have hne : portReg LK_PORT_STATUS p ≠ portReg LK_PORT_CTRL p := by simp only [portReg, LK_PORT_STATUS, LK_PORT_CTRL]; omega
    have hd : s4.dr (portReg LK_PORT_STATUS p) = s3.dr (portReg LK_PORT_STATUS p) := State.dr_dwf_other _ _ _ _ hne
    rw [State.portState, hd]
    exact portState_of_erased hp
  clear_value s4
  have hne : portReg LK_PORT_STATUS p ≠ MG_SU_CNT_LKRST := by simp only [portReg, LK_PORT_STATUS, MG_SU_CNT_LKRST]; omega
  refine ⟨fun y => ?_, ?_, ?_, ?_, ?_⟩
  · simpa [State.cmds, State.cx] using h4.cmds y
  · rw [State.portState, State.dr_dinc_other _ _ hne]
    simpa [State.portState, State.dr] using hstate
  · have hport : ∀ (u : State) a, (u.dinc a 1).port p = u.port p := fun u a => by simp [State.port]
    rw [hport, State.port_modPort, if_pos ⟨rfl, hp⟩, ← h4.timebase]
  · simpa using h4.cls
  · simpa using h4.mem

theorem execResetLink_spec {s : State} {x : Ctx} {k : Cmd} (h : Due s x 0x0A03 k) (hk : k.f 16 1 = 3) (hp : k.f 18 2 ≤ 7) :
    ∃ t, exec (.resetLink x) s = .next t ∧ (t.cmds x.val).length = (s.cmds x.val).length ∧ t.portState (k.f 18 2) = 0
      ∧ (t.port (k.f 18 2)).offAt = some (s.timebase + 1000000) ∧ t.cls = s.cls ∧ t.mem = s.mem := by
  have he : exec (.resetLink x) s = .next ((s.started x.val k).resetPort (k.f 18 2)) := by
    change execResetLink x s = _
    unfold execResetLink
    refine resetRow_of_due h (by rw [hk]; rfl) fun b hb => ?_
    simp only [List.mem_cons, List.not_mem_nil, or_false] at hb
    subst hb
    simpa using hp
  have hl := s.started_leaves (fun _ => False) x.val k
  obtain ⟨hcmds, hstate, hoff, hcls, hmem⟩ := (s.started x.val k).resetPort_spec (p := k.f 18 2) (by omega)
  exact ⟨_, he, by rw [hcmds, s.started_length], hstate, by rw [hoff, hl.timebase], hcls.trans hl.cls, hmem.trans hl.mem⟩

theorem State.replyResets_leaves (s : State) (kind obj : Nat) : State.Leaves reportReg s (s.replyResets kind obj) :=
  List.foldlRecOn _ _ (.refl _ s) fun _ hu _ hx =>
    List.foldlRecOn _ _ hu fun _ hv _ _ => hv.reply fun _ => reportReg_of_replyReg (List.mem_range.mp hx)

/-- The reset of port p has ended. -/
def State.laserOn (s : State) (p : Nat) : State := s.modPort p fun q => { q with offAt := none }

theorem State.laserOn_offAt (s : State) {p : Nat} (hp : p < 8) : ((s.laserOn p).port p).offAt = none := by
  rw [State.laserOn, State.port_modPort, if_pos ⟨rfl, hp⟩]

theorem State.laserOn_dr (s : State) (p a : Nat) : (s.laserOn p).dr a = s.dr a := by
  simp [State.laserOn, State.dr]

theorem State.laserOn_err (s : State) (p : Nat) : (s.laserOn p).err = s.err := by
  simp [State.laserOn]

theorem portStatus_ne_portCtrl (p : Nat) : portReg LK_PORT_STATUS p ≠ portReg LK_PORT_CTRL p := by
  simp only [portReg, LK_PORT_STATUS, LK_PORT_CTRL]
  omega

theorem State.setPort_portState (s : State) (p : Nat) {st : Nat} (hst : st < 8) : (s.setPort p st).portState p = st := by
  rw [State.portState, State.setPort, State.dr_dwf_same _ _ _ (by decide) (by decide), bits_setBits_other _ _ (by decide) (by decide),
    State.dr_dwf_same _ _ _ (by decide) (by decide), bits_setBits_same _ _ (by decide)]
  exact Nat.mod_eq_of_lt hst

/-- EN takes a port that is off to TRAIN (R445). -/
theorem State.portEn_portState {s : State} {p : Nat} (hp : p < 8) (h0 : s.portState p = 0) (hr : s.role ≠ 0)
    (hoff : (s.port p).offAt = none) (hd : s.err.dead = false) : (s.portEn p).portState p = 1 := by
  have h0' : (s.dwf (portReg LK_PORT_CTRL p) 0 0 1).portState p = 0 := by
    rw [State.portState, State.dr_dwf_other _ _ _ _ (portStatus_ne_portCtrl p)]
    exact h0
  have hr' : (s.dwf (portReg LK_PORT_CTRL p) 0 0 1).role ≠ 0 := by
    rw [State.role, State.dr_dwf_other _ _ _ _ (by simp only [portReg, LK_RV_STATUS, LK_PORT_CTRL]; omega)]
    exact hr
  unfold State.portEn
  extract_lets s1
  rw [if_pos ⟨h0', hr', hoff, hd⟩]
  exact s1.setPort_portState p (by decide)

theorem State.portEn_port (s : State) (p q : Nat) : (s.portEn p).port q = s.port q := by
  unfold State.portEn
  extract_lets s1
  split <;> rfl

theorem execLinkResetOffExpiry_spec {s : State} (p : Port) {d : Nat} (hoff : (s.port p.val).offAt = some d) (hd : d ≤ s.timebase) :
    ∃ t, exec (.linkResetOffExpiry p) s = .next t ∧ (t.port p.val).offAt = none
      ∧ (bit (s.dr (portReg LK_PORT_CTRL p.val)) 0 = true → s.portState p.val = 0 → s.role ≠ 0 → s.err.dead = false →
          t.portState p.val = 1) := by
  have hp : p.val < 8 := p.isLt
  have hu := s.laserOn_offAt hp
  have hdr := s.laserOn_dr p.val
  have herr := s.laserOn_err p.val
  have he : exec (.linkResetOffExpiry p) s = .next ((if bit ((s.laserOn p.val).dr (portReg LK_PORT_CTRL p.val)) 0
      then (s.laserOn p.val).portEn p.val else s.laserOn p.val).replyResets 3 p.val) := by
    change execLinkResetOffExpiry p s = _
    unfold execLinkResetOffExpiry
    rw [hoff]
    exact if_neg (Nat.not_lt.mpr hd)
  generalize s.laserOn p.val = u at *
  have hr := (if bit (u.dr (portReg LK_PORT_CTRL p.val)) 0 then u.portEn p.val else u).replyResets_leaves 3 p.val
  refine ⟨_, he, ?_, fun hen h0 hrole hdead => ?_⟩
  · rw [hr.offAt]
    split
    · rw [State.portEn_port, hu]
    · exact hu
  · have hne : ¬ reportReg (portReg LK_PORT_STATUS p.val) := by
      simp only [reportReg, portReg, LK_PORT_STATUS, MG_CX_CTRL, MG_EL_CNT, LK_RV_CNT_NOROUTE]
      omega
    rw [State.portState, hr.regs _ hne, hdr, if_pos hen]
    refine State.portEn_portState hp ?_ ?_ hu ?_
    · rw [State.portState, hdr]
      exact h0
    · rw [State.role, hdr]
      exact hrole
    · rw [herr]
      exact hdead

end Sys2Proof.Machine
end

/-! ### REG_READ (R218, R588) -/

section
/-! A read of a register can go far: through the debug path's window it is a load of the core, which may fill a line of its
cluster's cache. `State.Reads` is what every part of such a read leaves as it was. -/

namespace Sys2Proof.Machine

open Claims

/-- From s to t the commands of context x are served as before, and ring, security element and weights are as they were. -/
structure State.Reads (x : Nat) (s t : State) : Prop extends State.Serves x s t where
  rv : t.rv = s.rv
  sec : t.sec = s.sec
  wt : t.wt = s.wt

theorem State.Reads.refl (x : Nat) (s : State) : State.Reads x s s := ⟨.refl x s, rfl, rfl, rfl⟩

section
variable {x : Nat} {s t : State} (h : State.Reads x s t)
include h

theorem State.Reads.setCls {cls : Vector Cluster 40} : State.Reads x s { t with cls } := ⟨h.toServes.frame, h.rv, h.sec, h.wt⟩

theorem State.Reads.setMem {mem : MemSys} : State.Reads x s { t with mem } := ⟨h.toServes.frame, h.rv, h.sec, h.wt⟩

theorem State.Reads.setShown {readData : Word} {freeCount : Nat} : State.Reads x s { t with readData, freeCount } :=
  ⟨h.toServes.frame, h.rv, h.sec, h.wt⟩

theorem State.Reads.mod {c : Cl} {f : Cluster → Cluster} : State.Reads x s (t.mod c f) := h.setCls

theorem State.Reads.ite {p : Prop} [Decidable p] {u : State} (h' : State.Reads x s u) : State.Reads x s (if p then t else u) := by
  split
  · exact h
  · exact h'

theorem State.Reads.foldl {α : Type} {l : List α} {f : State → α → State} (hf : ∀ u, ∀ a ∈ l, State.Reads x s u → State.Reads x s (f u a)) :
    State.Reads x s (l.foldl f t) := List.foldlRecOn l f h fun u hu a ha => hf u a ha hu

theorem State.Reads.cinc {c : Cl} {off n : Nat} : State.Reads x s (t.cinc c off n) := .ite h h.mod

theorem State.Reads.ccap {c : Cl} {off v val : Nat} : State.Reads x s (t.ccap c off v val) := h.mod

theorem State.Reads.dw (hx : x < 16) {a v : Nat} (ha : outsideReg a) : State.Reads x s (t.dw a v) :=
  ⟨h.toServes.dw (not_ringReg_of_outside hx ha), h.rv, h.sec, h.wt⟩

theorem State.Reads.dinc (hx : x < 16) {a n : Nat} (ha : outsideReg a) : State.Reads x s (t.dinc a n) := .ite h (h.dw hx ha)

theorem State.Reads.dcap (hx : x < 16) {a v val : Nat} (ha : outsideReg a) : State.Reads x s (t.dcap a v val) :=
  .ite (h.dw hx ha) (h.dw hx ha)

theorem State.Reads.logErr {e : ErrRec} : State.Reads x s (t.logErr e) := by
  have hl : State.Tells (errReg (e.ctx.getD 0)) t (t.logErr e) := (State.Tells.refl _ t).logErr fun _ => id
  exact ⟨h.toServes.tells hl fun a ha hr => not_ringReg_of_errReg hr ha, hl.rv.trans h.rv, hl.sec.trans h.sec,
    hl.wt.trans h.wt⟩

/-! #### Memory and the caches -/

theorem State.Reads.hbmWrite {a : Nat} {bs : List Byte} : State.Reads x s (t.hbmWrite a bs) := h.setCls.setMem

theorem State.Reads.stkErr (hx : x < 16) {a cause : Nat} : State.Reads x s (t.stkErr a cause) := by
  have ho : outsideReg (stkReg HM_STK_ERR (stackOf a)) := by
    right
    simp only [stkReg, HM_STK_ERR, MG_CX_CTRL]
    omega
  unfold State.stkErr
  exact (h.dcap hx ho).logErr

theorem State.Reads.hbmPoison (hx : x < 16) {w : Nat} : State.Reads x s (t.hbmPoison w) := by
  have ho : outsideReg (stkReg HM_CNT_PLOSS (stackOf (w * 8))) := by
    right
    simp only [stkReg, HM_CNT_PLOSS, MG_CX_CTRL]
    omega
  exact .ite h.setMem ((h.hbmWrite.dinc hx ho).stkErr hx)

theorem State.Reads.ccPut (hx : x < 16) {c : Cl} {l : CLine} : State.Reads x s (t.ccPut c l) := by
  unfold State.ccPut
  split
  · exact h.cinc.foldl fun _ _ _ hu => .ite (.ite (hu.hbmWrite.hbmPoison hx) hu.hbmWrite) hu
  · exact h.cinc

theorem State.Reads.ccDrop (hx : x < 16) {c : Cl} {l : CLine} : State.Reads x s (t.ccDrop c l) := by
  unfold State.ccDrop
  extract_lets s1 s2
  have h1 : State.Reads x s s1 := .ite h (h.ccPut hx).mod
  have h2 : State.Reads x s s2 := .ite h1.cinc h1
  exact h2.mod

theorem State.Reads.ccFill (hx : x < 16) {c : Cl} {line cls hint : Nat} {pf : Bool} :
    State.Reads x s (t.ccFill c line cls hint pf) := by
  unfold State.ccFill
  split
  · refine State.Reads.mod ?_
    split
    · exact h.ccDrop hx
    · exact h
  · exact h

theorem State.Reads.ccGet (hx : x < 16) {c : Cl} {a : Nat} : State.Reads x s (t.ccGet c a) := (h.cinc.ccFill hx).mod

theorem State.Reads.ccHit {c : Cl} {line hint : Nat} : State.Reads x s (t.ccHit c line hint) := by
  unfold State.ccHit
  refine State.Reads.mod ?_
  split
  · exact .ite h.cinc.cinc h.cinc
  · exact h.cinc

/-! #### Loads and registers of a cluster -/

theorem State.Reads.clRead {c : Cl} {off : Nat} : State.Reads x s (t.clRead c off).2 := by
  have hpop : ∀ n, State.Reads x s (t.readPop c n).2 := fun n => by
    unfold State.readPop
    split
    · exact h
    · dsimp only
      exact h.mod
  have hres : State.Reads x s (t.readResPop c).2 := by
    unfold State.readResPop
    split
    · exact h
    · dsimp only
      exact h.mod
  have hcue : ∀ n, State.Reads x s (t.readCue c n).2 := fun n => by
    unfold State.readCue
    split
    · dsimp only
      exact h.mod
    · exact h
  unfold State.clRead
  split
  · exact hpop _
  · split
    · exact hres
    · split
      · exact hcue _
      · exact h

/-- Every state that an access of the core may leave. -/
def MemAcc.states : MemAcc → List State
  | .ok _ s | .fault s | .miss _ s => [s]
  | _ => []

theorem State.Reads.memLoad (hx : x < 16) {c : Cl} {a n : Nat} {block : Bool} :
    ∀ u ∈ (t.memLoad c a n .clean block).states, State.Reads x s u := by
  have hone : ∀ {u v : State}, State.Reads x s v → u ∈ [v] → State.Reads x s u := fun hv hu => List.mem_singleton.mp hu ▸ hv
  have hsp : ∀ w, State.Reads x s (t.spCheck c w .clean).2 := fun w => by
    change State.Reads x s (if (t.cl c).bad.contains w then (true, t.spEncounter c 0 w) else (false, t)).2
    split
    · dsimp only [State.spEncounter]
      exact h.cinc.ccap.logErr
    · exact h
  have hlook : State.Reads x s (t.ccLook c a .clean).2 := by
    unfold State.ccLook
    split
    · exact h
    · exact h
  unfold State.memLoad
  split
  · exact fun _ => hone h
  · exact fun _ => hone h
  · split
    · exact fun _ => hone h
    · exact fun _ => hone h.clRead
  · extract_lets r
    split
    · exact fun _ => hone (hsp _)
    · exact fun _ => hone (hsp _)
  · exact fun _ hu => by cases hu
  · split
    · exact fun _ => hone h
    · exact fun _ hu => by cases hu
    · split
      · split
        · exact fun _ hu => by cases hu
        · exact fun _ => hone h
      · extract_lets r hit s1
        have h1 : State.Reads x s s1 := .ite hlook.ccHit (hlook.ccGet hx)
        split
        · exact fun _ => hone hlook
        · split
          · split
            · exact fun _ => hone h1
            · exact fun _ => hone h1
          · exact fun _ => hone h1

/-! #### The debug path and the device's registers -/

theorem State.Reads.dbgErr (hx : x < 16) : State.Reads x s t.dbgErr :=
  State.Reads.setShown (h.dw hx (by unfold outsideReg; decide))

theorem State.Reads.dbgLoad (hx : x < 16) {c : Cl} {a : Nat} : State.Reads x s (t.dbgLoad c a) := by
  have hm := h.memLoad hx (c := c) (a := a) (n := 8) (block := true)
  unfold State.dbgLoad
  split
  · next v u he => exact (hm u (by rw [he]; exact List.mem_singleton_self u)).setShown
  · exact h.setShown
  · exact h.dbgErr hx

theorem State.Reads.dbgCdata (hx : x < 16) : State.Reads x s (t.dbgCdata none) := by
  dsimp only [State.dbgCdata]
  split
  · exact h.dbgErr hx
  · refine .ite (h.dbgErr hx) ?_
    split
    · exact .ite h.setShown (h.dbgErr hx)
    · exact h.dbgErr hx

theorem State.Reads.dbgMdata (hx : x < 16) : State.Reads x s (t.dbgMdata none) := by
  dsimp only [State.dbgMdata]
  split
  · exact h.dbgErr hx
  · exact .ite (h.dbgLoad hx) (h.dbgErr hx)

theorem State.Reads.devRead (hx : x < 16) {a : Nat} : State.Reads x s (t.devRead a).2 := by
  unfold State.devRead
  split
  · exact h.clRead
  · split
    · exact h.dbgCdata hx
    · split
      · exact h.dbgMdata hx
      · exact h

end

end Sys2Proof.Machine
end

section
namespace Sys2Proof.Machine

open Claims

/-! #### What a read shows

A command that starts changes nothing that a register shows, and a load shows what the clusters, memory and the page maps
hold: two states alike in these load alike. -/

/-- Two states alike in clusters, memory and page maps, both counting or neither. -/
structure State.Alike (s t : State) : Prop where
  cls : t.cls = s.cls
  mem : t.mem = s.mem
  pages : t.pages = s.pages
  frozen : t.frozen = s.frozen

theorem State.Alike.of_tells {R : Nat → Prop} (hR : ¬ R MG_DBG_CTRL) {s t u v : State} (h : s.Alike t) (hu : State.Tells R s u)
    (hv : State.Tells R t v) : u.Alike v where
  cls := by rw [hv.cls, hu.cls, h.cls]
  mem := by rw [hv.mem, hu.mem, h.mem]
  pages := by rw [hv.pages, hu.pages, h.pages]
  frozen := by rw [hv.frozen hR, hu.frozen hR, h.frozen]

section
variable {s t : State} (h : s.Alike t)
include h

theorem State.Alike.cl (c : Cl) : t.cl c = s.cl c := by
  unfold State.cl
  rw [h.cls]

theorem State.Alike.translate (x off : Nat) : t.translate x off = s.translate x off := by
  unfold State.translate State.page
  rw [h.pages]

theorem State.Alike.mod {c : Cl} {f : Cluster → Cluster} : (s.mod c f).Alike (t.mod c f) :=
  ⟨by simp only [State.mod, h.cls], h.mem, h.pages, h.frozen⟩

theorem State.Alike.setMem {mem : MemSys} : ({ s with mem } : State).Alike { t with mem } := ⟨h.cls, rfl, h.pages, h.frozen⟩

theorem State.Alike.ite {p q : Prop} [Decidable p] [Decidable q] (hpq : p ↔ q) {u v : State} (h' : u.Alike v) :
    (if p then s else u).Alike (if q then t else v) := by
  by_cases hp : p
  · rw [if_pos hp, if_pos (hpq.mp hp)]
    exact h
  · rw [if_neg hp, if_neg fun hq => hp (hpq.mpr hq)]
    exact h'

theorem State.Alike.foldl {α : Type} (l : List α) {f : State → α → State} (hf : ∀ u v a, u.Alike v → (f u a).Alike (f v a)) :
    (l.foldl f s).Alike (l.foldl f t) := by
  induction l generalizing s t with
  | nil => exact h
  | cons a l ih => exact ih (hf _ _ a h)

theorem State.Alike.cinc {c : Cl} {off n : Nat} : (s.cinc c off n).Alike (t.cinc c off n) :=
  h.ite (by rw [h.frozen]) h.mod

theorem State.Alike.hbmWrite {a : Nat} {bs : List Byte} : (s.hbmWrite a bs).Alike (t.hbmWrite a bs) where
  cls := by simp only [State.hbmWrite, State.breakResv, h.cls]
  mem := by simp only [State.hbmWrite, State.breakResv, h.mem]
  pages := h.pages
  frozen := h.frozen

/-- A register that does not stop the counters. -/
def errorReg (a : Nat) : Prop := a ≠ MG_DBG_CTRL

omit h in
theorem State.stkErr_tells (s : State) (a cause : Nat) : State.Tells errorReg s (s.stkErr a cause) := by
  have hne : errorReg (stkReg HM_STK_ERR (stackOf a)) := by
    have := Nat.mod_lt (shcSlice a) (y := 8) (by decide)
    simp only [errorReg, stkReg, HM_STK_ERR, stackOf, MG_DBG_CTRL]
    omega
  have herr : ∀ b, errReg 0 b → errorReg b := fun b hb e => by
    subst e
    revert hb
    unfold errReg eventReg
    decide
  unfold State.stkErr
  exact ((State.Tells.refl errorReg s).dcap hne).logErr herr

theorem State.Alike.hbmPoison {w : Nat} : (s.hbmPoison w).Alike (t.hbmPoison w) := by
  have hne : errorReg (stkReg HM_CNT_PLOSS (stackOf (w * 8))) := by
    have := Nat.mod_lt (shcSlice (w * 8)) (y := 8) (by decide)
    simp only [errorReg, stkReg, HM_CNT_PLOSS, stackOf, MG_DBG_CTRL]
    omega
  have hl : ∀ u : State, State.Tells errorReg u ((u.dinc (stkReg HM_CNT_PLOSS (stackOf (w * 8))) 1).stkErr (w * 8) 4) :=
    fun u => ((State.Tells.refl errorReg u).dinc hne).trans (State.stkErr_tells _ _ _)
  unfold State.hbmPoison
  simp only [h.mem]
  split
  · exact h.setMem
  · exact h.hbmWrite.of_tells (fun hn => hn rfl) (hl _) (hl _)

theorem State.Alike.ccPut {c : Cl} {l : CLine} : (s.ccPut c l).Alike (t.ccPut c l) := by
  unfold State.ccPut
  rw [h.translate]
  split
  · exact h.cinc.foldl _ fun _ _ _ hu => (hu.hbmWrite.hbmPoison.ite Iff.rfl hu.hbmWrite).ite Iff.rfl hu
  · exact h.cinc

theorem State.Alike.ccDrop {c : Cl} {l : CLine} : (s.ccDrop c l).Alike (t.ccDrop c l) := by
  unfold State.ccDrop
  extract_lets s1 s2 t1 t2
  have h1 : s1.Alike t1 := h.ite Iff.rfl h.ccPut.mod
  have h2 : s2.Alike t2 := h1.cinc.ite Iff.rfl h1
  exact h2.mod

theorem State.Alike.ccFill {c : Cl} {line cls hint : Nat} {pf : Bool} :
    (s.ccFill c line cls hint pf).Alike (t.ccFill c line cls hint pf) := by
  have hfill : ∀ u v : State, u.Alike v → ∀ w p : Nat,
      (u.mod c fun k => { k with cc := ccAge (amIns k.cc (ccSet line * 8 + w) ⟨line, u.hbmRead p 64, 0,
        (List.range 8).foldl (fun m i => if (u.mem.bad ++ u.mem.cbad).contains (p / 8 + i) then m + 2 ^ i else m) 0,
        cls, hint, k.owner, 0, pf⟩) line w }).Alike
      (v.mod c fun k => { k with cc := ccAge (amIns k.cc (ccSet line * 8 + w) ⟨line, v.hbmRead p 64, 0,
        (List.range 8).foldl (fun m i => if (v.mem.bad ++ v.mem.cbad).contains (p / 8 + i) then m + 2 ^ i else m) 0,
        cls, hint, k.owner, 0, pf⟩) line w }) := by
    intro u v huv w p
    unfold State.hbmRead
    rw [huv.mem]
    exact huv.mod
  unfold State.ccFill
  rw [h.cl, h.translate]
  split
  · refine hfill _ _ ?_ _ _
    split
    · exact h.ccDrop
    · exact h
  · exact h

theorem State.Alike.ccGet {c : Cl} {a : Nat} : (s.ccGet c a).Alike (t.ccGet c a) := h.cinc.ccFill.mod

theorem State.Alike.ccHit {c : Cl} {line hint : Nat} : (s.ccHit c line hint).Alike (t.ccHit c line hint) := by
  unfold State.ccHit
  extract_lets s1 s2 t1 t2
  have h1 : s1.Alike t1 := h.cinc
  have h2 : s2.Alike t2 := by
    unfold s2 t2
    rw [h1.cl]
    split
    · exact h1.cinc.ite Iff.rfl h1
    · exact h1
  exact h2.mod

theorem State.Alike.clRead_value (c : Cl) (off : Nat) : (t.clRead c off).1 = (s.clRead c off).1 := by
  have hpop : ∀ n, (t.readPop c n).1 = (s.readPop c n).1 := fun n => by
    unfold State.readPop
    rw [h.cl]
    split <;> rfl
  have hres : (t.readResPop c).1 = (s.readResPop c).1 := by
    unfold State.readResPop
    rw [h.cl]
    split <;> rfl
  have hcue : ∀ n, (t.readCue c n).1 = (s.readCue c n).1 := fun n => by
    unfold State.readCue
    rw [h.cl]
    split <;> rfl
  unfold State.clRead
  split
  · exact hpop _
  · split
    · exact hres
    · split
      · exact hcue _
      · rw [h.cl]

end

/-- What a load of the debug path shows of an access. -/
def MemAcc.shown (free : Word) : MemAcc → Word
  | .ok v _ => word v
  | .host _ => free
  | _ => 0

theorem MemAcc.shown_ok (free : Word) (v : Nat) (s : State) : (MemAcc.ok v s).shown free = word v := rfl

theorem State.dbgLoad_readData (s : State) (c : Cl) (a : Nat) :
    (s.dbgLoad c a).readData = (s.memLoad c a 8 .clean true).shown (Config.freeValue s.freeCount) := by
  unfold State.dbgLoad
  generalize s.memLoad c a 8 .clean true = r
  cases r <;> rfl

theorem State.spCheck_clean (s : State) (c : Cl) (w : Nat) :
    s.spCheck c w .clean = if (s.cl c).bad.contains w then (true, s.spEncounter c 0 w) else (false, s) := rfl

theorem State.ccLook_clean (s : State) (c : Cl) (a : Nat) : s.ccLook c a .clean = ((s.cl c).ccLine (a / 64), s) := by
  unfold State.ccLook
  split
  · next h => rw [h]
  · rfl

theorem MemAcc.shown_fault (free : Word) (s : State) : (MemAcc.fault s).shown free = 0 := rfl

theorem MemAcc.shown_of_fst {p q : Word × State} (h : p.1 = q.1) (free : Word) :
    (MemAcc.ok p.1.toNat p.2).shown free = (MemAcc.ok q.1.toNat q.2).shown free := by
  rw [MemAcc.shown_ok, MemAcc.shown_ok, h]

/-- A load from the scratchpad. -/
def State.loadSp (s : State) (c : Cl) (off : Nat) : MemAcc :=
  if (s.cl c).bad.contains (off / 8) then .fault (s.spEncounter c 0 (off / 8)) else .ok (leNat ((s.cl c).spRead off 8)) s

theorem State.Alike.loadSp_shown {s t : State} (h : s.Alike t) (c : Cl) (off : Nat) (free : Word) :
    (t.loadSp c off).shown free = (s.loadSp c off).shown free := by
  unfold State.loadSp
  rw [h.cl]
  split
  · rw [MemAcc.shown_fault, MemAcc.shown_fault]
  · rw [MemAcc.shown_ok, MemAcc.shown_ok]

/-- A load of a line, once it has been hit or filled. -/
def State.loadLine (s : State) (c : Cl) (a : Nat) : MemAcc :=
  match (s.cl c).ccLine (a / 64) with
  | some l => if bit l.bad (a % 64 / 8) then .fault s else .ok (fieldB l.data (a % 64) 8) s
  | none => .fault s

theorem State.Alike.loadLine_shown {s t : State} (h : s.Alike t) (c : Cl) (a : Nat) (free : Word) :
    (t.loadLine c a).shown free = (s.loadLine c a).shown free := by
  unfold State.loadLine
  rw [h.cl]
  split
  · split <;> rfl
  · rfl

/-- A load from a page that is there. -/
def State.loadHbm (s : State) (c : Cl) (a : Nat) : MemAcc :=
  if (s.cl c).misses.any (fun m => m.line == a / 64 && !m.uses.isEmpty) then .wait
  else (if ((s.cl c).ccLine (a / 64)).isSome then s.ccHit c (a / 64) 1 else s.ccGet c a).loadLine c a

theorem State.Alike.loadHbm_shown {s t : State} (h : s.Alike t) (c : Cl) (a : Nat) (free : Word) :
    (t.loadHbm c a).shown free = (s.loadHbm c a).shown free := by
  unfold State.loadHbm
  rw [h.cl]
  split
  · rfl
  · exact (h.ccHit.ite Iff.rfl h.ccGet).loadLine_shown c a free

/-- What a load of the debug path does, by the place that its address leads to. -/
theorem State.memLoad_clean (s : State) (c : Cl) (a : Nat) :
    s.memLoad c a 8 .clean true = match s.space c a 8 with
      | .none => .fault s
      | .far _ _ _ => .fault s
      | .block off => if 8 ≠ 8 ∨ off % 8 ≠ 0 then .fault s else .ok (s.clRead c off).1.toNat (s.clRead c off).2
      | .sp off => s.loadSp c off
      | .host b => .host b
      | .hbm =>
        match s.translate (s.cl c).owner (gOff a) with
        | .outside => .fault s
        | .absent p => .page p
        | .at_ _ _ => s.loadHbm c a := by
  unfold State.memLoad
  generalize s.space c a 8 = sp
  cases sp with
  | none => rfl
  | far => rfl
  | block => rfl
  | sp =>
    dsimp only
    unfold State.loadSp
    rw [State.spCheck_clean]
    split <;> rfl
  | host => rfl
  | hbm =>
    dsimp only
    generalize s.translate (s.cl c).owner (gOff a) = r
    cases r with
    | outside => rfl
    | absent => rfl
    | at_ =>
      dsimp only
      unfold State.loadHbm
      rw [State.ccLook_clean]
      split
      · rfl
      · cases (s.cl c).ccLine (a / 64) <;> rfl

/-- Loads at a place that is the same in both show the same. -/
theorem State.Alike.memLoad_shown {s t : State} (h : s.Alike t) {c : Cl} {a : Nat} (hsp : t.space c a 8 = s.space c a 8) (free : Word) :
    (t.memLoad c a 8 .clean true).shown free = (s.memLoad c a 8 .clean true).shown free := by
  rw [State.memLoad_clean, State.memLoad_clean, hsp]
  split
  · rfl
  · rfl
  · split
    · rfl
    · exact MemAcc.shown_of_fst (h.clRead_value c _) free
  · exact h.loadSp_shown c _ free
  · rfl
  · rw [h.cl, h.translate]
    split
    · rfl
    · rfl
    · exact h.loadHbm_shown c a free

/-! #### What a register shows while a command starts -/

theorem updFirst_length {α : Type} (p : α → Bool) (f : α → α) (l : List α) : (updFirst p f l).length = l.length := by
  induction l with
  | nil => rfl
  | cons a l ih => simp only [updFirst]; split <;> simp [ih]

theorem State.dbgErr_readData (s : State) : s.dbgErr.readData = 0 := rfl

/-- A command that starts changes of its context only the commands in flight, and not their number. -/
theorem State.started_cx (s : State) (x y : Nat) (k : Cmd) :
    ∃ cmds, (s.started x k).cx y = { s.cx y with cmds := cmds } ∧ cmds.length = (s.cx y).cmds.length := by
  unfold State.started State.modCmd
  by_cases hy : y = x
  · subst hy
    by_cases hlt : y < 16
    · exact ⟨_, State.cx_modCx_same _ _ _ hlt, updFirst_length _ _ _⟩
    · exact ⟨(s.cx y).cmds, by simp [State.cx, hlt], rfl⟩
  · exact ⟨(s.cx y).cmds, by rw [State.cx_modCx_other _ _ _ _ hy], rfl⟩

section
variable {s t : State} {ctx : Vector CtxSt 16} (ht : t = { s with ctx := ctx })
include ht

theorem alike_of_ctx : s.Alike t := by
  subst ht
  exact ⟨rfl, rfl, rfl, rfl⟩

/-- The space of a context's addresses is that of its host windows, whatever else of the contexts differs. -/
theorem space_of_ctx (hw : ∀ y, (t.cx y).wins = (s.cx y).wins) (c : Cl) (a n : Nat) : t.space c a n = s.space c a n := by
  have hwin : ∀ y b m, t.inHostWin y b m = s.inHostWin y b m := fun y b m => by
    unfold State.inHostWin
    rw [hw]
    subst ht
    rfl
  have hin : ∀ y b m, t.inSpace y b m = s.inSpace y b m := fun y b m => by
    unfold State.inSpace
    simp only [hwin]
    subst ht
    rfl
  unfold State.space
  simp only [hin]
  subst ht
  rfl

theorem dr_of_ctx (a : Nat) : t.dr a = s.dr a := by
  subst ht
  rfl

theorem debugOpen_of_ctx : t.debugOpen = s.debugOpen := by
  unfold State.debugOpen
  rw [dr_of_ctx ht]

theorem dbgCdata_of_ctx : (t.dbgCdata none).readData = (s.dbgCdata none).readData := by
  have ha := alike_of_ctx ht
  have hdr := dr_of_ctx ht
  dsimp only [State.dbgCdata]
  simp only [hdr, debugOpen_of_ctx ht, ha.cl]
  split
  · rw [State.dbgErr_readData, State.dbgErr_readData]
  · next c _ =>
    by_cases hopen : s.debugOpen = false
    · rw [if_pos hopen, if_pos hopen, State.dbgErr_readData, State.dbgErr_readData]
    · rw [if_neg hopen, if_neg hopen]
      split
      · by_cases hst : (s.cl c).coreState = 2 ∨ (s.cl c).coreState = 3
        · rw [if_pos hst, if_pos hst]
        · rw [if_neg hst, if_neg hst, State.dbgErr_readData, State.dbgErr_readData]
      · rw [State.dbgErr_readData, State.dbgErr_readData]

theorem dbgMdata_of_ctx (hw : ∀ y, (t.cx y).wins = (s.cx y).wins) : (t.dbgMdata none).readData = (s.dbgMdata none).readData := by
  have ha := alike_of_ctx ht
  have hdr := dr_of_ctx ht
  have hfree : t.freeCount = s.freeCount := by
    subst ht
    rfl
  have hload : ∀ c a, (t.dbgLoad c a).readData = (s.dbgLoad c a).readData := fun c a => by
    rw [State.dbgLoad_readData, State.dbgLoad_readData, hfree, ha.memLoad_shown (space_of_ctx ht hw c a 8)]
  dsimp only [State.dbgMdata]
  simp only [hdr, debugOpen_of_ctx ht, ha.cl]
  split
  · rw [State.dbgErr_readData, State.dbgErr_readData]
  · next c _ =>
    by_cases hok : (s.debugOpen && (decide ((s.cl c).coreState = 2) && s.dr MG_DBG_MADDR % 8 == 0)) = true
    · rw [if_pos hok, if_pos hok]
      exact hload _ _
    · rw [if_neg hok, if_neg hok, State.dbgErr_readData, State.dbgErr_readData]

/-- What the registers outside the clusters show. -/
theorem devValue_of_ctx (hst : ∀ y, (t.cx y).state = (s.cx y).state) (hq : ∀ y, (t.cx y).overQ = (s.cx y).overQ)
    (hl : ∀ y, (t.cx y).cmds.length = (s.cx y).cmds.length) (a : Nat) : t.devValue a = s.devValue a := by
  have hcx : ∀ y, t.cxStatus y = s.cxStatus y := fun y => by
    unfold State.cxStatus State.unreplied State.cmds
    rw [hst, hq, hl]
    subst ht
    rfl
  unfold State.devValue State.liveDev
  simp only [hcx]
  subst ht
  rfl

end

theorem State.started_devRead (s : State) (x : Nat) (k : Cmd) (a : Nat) : ((s.started x k).devRead a).1 = (s.devRead a).1 := by
  obtain ⟨ctx, ht⟩ := s.started_eq x k
  have hcx := fun y => s.started_cx x y k
  have hw : ∀ y, ((s.started x k).cx y).wins = (s.cx y).wins := fun y => by
    obtain ⟨cmds, he, -⟩ := hcx y
    rw [he]
  have hst : ∀ y, ((s.started x k).cx y).state = (s.cx y).state := fun y => by
    obtain ⟨cmds, he, -⟩ := hcx y
    rw [he]
  have hq : ∀ y, ((s.started x k).cx y).overQ = (s.cx y).overQ := fun y => by
    obtain ⟨cmds, he, -⟩ := hcx y
    rw [he]
  have hl : ∀ y, ((s.started x k).cx y).cmds.length = (s.cx y).cmds.length := fun y => by
    obtain ⟨cmds, he, hlen⟩ := hcx y
    rw [he, hlen]
  unfold State.devRead
  split
  · exact (alike_of_ctx ht).clRead_value _ _
  · split
    · exact dbgCdata_of_ctx ht
    · split
      · exact dbgMdata_of_ctx ht hw
      · exact congrArg word (devValue_of_ctx ht hst hq hl a)

/-! #### REG_READ -/

theorem execRegRead_spec (x : Ctx) :
    Does (.regRead x) x 0x0802 (fun s k => k.f 24 8 % 8 = 0 ∧ s.mayRead x.val (k.f 24 8) = true) OK
      (fun s k _ => leBytes 8 (s.devRead (k.f 24 8)).1.toNat) (fun s _ t => t.rv = s.rv ∧ t.sec = s.sec ∧ t.wt = s.wt) := by
  intro s k h ⟨halign, hmay⟩
  have hmay' : (s.started x.val k).mayRead x.val (k.f 24 8) = true := by
    obtain ⟨cmds, he, -⟩ := s.started_cx x.val x.val k
    unfold State.mayRead at hmay ⊢
    rw [he]
    exact hmay
  have he : exec (.regRead x) s = .next (((s.started x.val k).devRead (k.f 24 8)).2.reply x.val k OK
      (leBytes 8 ((s.started x.val k).devRead (k.f 24 8)).1.toNat)) := by
    change execRegRead x s = _
    unfold execRegRead
    rw [opcodeRow_of_due h rfl]
    · exact congrArg Host.Outcome.next (if_pos hmay')
    · intro b hb
      simp only [List.mem_cons, List.not_mem_nil, or_false] at hb
      subst hb
      simp [halign]
  rw [s.started_devRead] at he
  have hr := (State.Reads.refl x.val (s.started x.val k)).devRead x.isLt (a := k.f 24 8)
  have hl := s.started_leaves (fun _ => False) x.val k
  obtain ⟨ha, hc⟩ := ((s.started_serves x.val x.val k).trans hr.toServes).answers x.isLt (mem_of_due h) (st := OK) (by decide)
    (leBytes 8 (s.devRead (k.f 24 8)).1.toNat)
  have hp := State.reply_leaves ((s.started x.val k).devRead (k.f 24 8)).2 x.val k OK
    (leBytes 8 (s.devRead (k.f 24 8)).1.toNat) []
  exact ⟨_, he, ha, hc, hp.rv.trans (hr.rv.trans hl.rv), hp.sec.trans (hr.sec.trans hl.sec), hp.wt.trans (hr.wt.trans hl.wt)⟩

/-! ### The ring is commanded -/

/-- Settles O38: a command that is due starts and is answered by what it changes outside the contexts' pages; a read of a
register shows what it showed before the command started; the resets of the device and of a port by what they wipe. -/
theorem theRingIsCommanded : Obligations.TheRingIsCommanded := by
  refine ⟨fun _ _ _ _ h hd hr hb hf => execRingDesc_ok h hd hr hb hf, fun _ _ _ _ h hd hb hf => execRingDesc_denied h hd hb hf,
    execRtWrite_spec, execSliceBind_spec, fun _ _ _ h hc hr hop => execRelay_spec h hc hr hop,
    fun _ _ _ h hc hr _ hrng hm => execRelay_key h hc hr hrng hm, execRingStatus_spec, execDevStatus_spec, execRegRead_spec,
    fun _ _ _ h ha => execRegWrite_eq h ha, execRegWrite_tbLoad, execUsPair_spec, fun _ _ _ h hk => execResetWarm_spec h hk,
    fun _ _ _ h hk hp => execResetLink_spec h hk hp, fun _ p _ hoff hd => execLinkResetOffExpiry_spec p hoff hd⟩

end Sys2Proof.Machine
end

/-! ### The value of a code -/

section
namespace Sys2Proof.Machine

open Claims

theorem rat_fin (neg : Bool) (m : Nat) (e : Int) : Val.rat (.fin neg m e) = some (signedInt neg m * (2 : ℚ) ^ e) := by
  cases neg <;> simp [Val.rat, signedInt]

theorem rat_ofInt (i e : Int) : Val.rat (.ofInt i e) = some ((i : ℚ) * (2 : ℚ) ^ e) := by
  have hi : signedInt (decide (i < 0)) i.natAbs = i := by
    simp only [signedInt, decide_eq_true_eq]
    split <;> omega
  rw [Val.ofInt, rat_fin, hi]

theorem FloatFmt.decode_of_not_special {f : FloatFmt} {w : Nat} (h : ¬ Special f w) :
    f.decode w = if expOf f w = 0 then .fin (w / 2 ^ (f.mb + f.eb) % 2 == 1) (manOf f w) (1 - (f.bias : Int) - f.mb)
      else .fin (w / 2 ^ (f.mb + f.eb) % 2 == 1) (2 ^ f.mb + manOf f w) ((expOf f w : Int) - f.bias - f.mb) := by
  obtain ⟨hieee, he4m3⟩ : ¬ (expOf f w = 2 ^ f.eb - 1 ∧ f.top = .ieee)
      ∧ ¬ (expOf f w = 2 ^ f.eb - 1 ∧ f.top = .e4m3 ∧ manOf f w = 2 ^ f.mb - 1) := by
    unfold Special at h
    tauto
  exact (if_neg hieee).trans (if_neg he4m3)

theorem signOf_mul (f : FloatFmt) (w n : Nat) :
    signOf f w * (n : ℚ) = signedInt (w / 2 ^ (f.mb + f.eb) % 2 == 1) n := by
  unfold signOf signedInt
  split <;> simp_all

/-- R51: zero and the subnormals have the fixed exponent, the normals the leading one. -/
theorem rat_decode_float {f : FloatFmt} {w : Nat} (h : ¬ Special f w) :
    Val.rat (f.decode w) = some (if expOf f w = 0 then signOf f w * manOf f w * (2 : ℚ) ^ ((1 : Int) - f.bias - f.mb)
      else signOf f w * (2 ^ f.mb + manOf f w : Nat) * (2 : ℚ) ^ ((expOf f w : Int) - f.bias - f.mb)) := by
  rw [FloatFmt.decode_of_not_special h, signOf_mul, signOf_mul]
  split <;> exact rat_fin _ _ _

theorem signOf_ne_zero (f : FloatFmt) (w : Nat) : signOf f w ≠ 0 := by
  unfold signOf
  split <;> norm_num

/-- R56: a code whose mantissa field is not zero has a value that is not zero. -/
theorem rat_decode_float_ne_zero {f : FloatFmt} {w : Nat} {r : ℚ} (h : ¬ Special f w) (hr : Val.rat (f.decode w) = some r)
    (hm : manOf f w ≠ 0) : r ≠ 0 := by
  rw [rat_decode_float h, Option.some.injEq] at hr
  have hs := signOf_ne_zero f w
  rw [← hr]
  split
  · have hmq : (manOf f w : ℚ) ≠ 0 := Nat.cast_ne_zero.2 hm
    positivity
  · have hmq : ((2 ^ f.mb + manOf f w : Nat) : ℚ) ≠ 0 := Nat.cast_ne_zero.2 (Nat.add_pos_left (Nat.two_pow_pos _) _).ne'
    positivity

theorem sgn_of_lt {n w : Nat} (hn : n ≠ 0) (hw : w < 2 ^ n) :
    sgn n w = if w < 2 ^ (n - 1) then (w : Int) else (w : Int) - 2 ^ n := by
  simp only [sgn, Nat.mod_eq_of_lt hw, hn, ne_eq, not_false_eq_true, true_and, ge_iff_le, ← not_lt, ite_not]

theorem Fmt.kind_int_bits {f : Fmt} {n k : Nat} (h : f.kind = .int n k) : n ≠ 0 := by
  cases f <;> simp [Fmt.kind] at h <;> omega

theorem Fmt.decode_float {f : Fmt} {ff : FloatFmt} (h : f.kind = .float ff) (w : Nat) : f.decode w = ff.decode w := by
  simp [Fmt.decode, h]

theorem Fmt.decode_int {f : Fmt} {n k : Nat} (h : f.kind = .int n k) (w : Nat) : f.decode w = .ofInt (sgn n w) (-(k : Int)) := by
  simp [Fmt.decode, h]

/-- Settles O50: a code that is no NaN or infinity is decoded by its exponent field; an integer's code is its signed value. -/
theorem everyCodeHasItsValue : Obligations.EveryCodeHasItsValue := by
  refine ⟨fun f ff w hk hs => ?_, fun f ff w r hk hs hr hm => ?_, fun f n k w hk hw => ?_⟩
  · rw [Fmt.decode_float hk]
    exact rat_decode_float hs
  · rw [Fmt.decode_float hk] at hr
    exact rat_decode_float_ne_zero hs hr hm
  · rw [Fmt.decode_int hk, rat_ofInt, sgn_of_lt (Fmt.kind_int_bits hk) hw]

end Sys2Proof.Machine
end

/-! ### Rounding to whole units -/

section
namespace Sys2Proof.Machine

open Claims

theorem two_zpow_of_nonneg {e : Int} (h : 0 ≤ e) : (2 : ℚ) ^ e = ((2 ^ e.toNat : Nat) : ℚ) := by
  rw [← Int.toNat_of_nonneg h, zpow_natCast, Int.toNat_natCast, Nat.cast_pow, Nat.cast_ofNat]

theorem two_zpow_of_nonpos {e : Int} (h : e ≤ 0) : (2 : ℚ) ^ e = 1 / ((2 ^ (-e).toNat : Nat) : ℚ) := by
  rw [← two_zpow_of_nonneg (by omega), one_div, zpow_neg, inv_inv]

/-! #### Whole units, and the part of a unit above them

With d the number of parts of a unit, a value of i parts is i / d units and i % d parts, the remainder taken toward minus
infinity; a magnitude is cut toward zero, so that the two differ for a negative value with a remainder. -/

theorem signedInt_ediv_emod (neg : Bool) (m : Nat) {d : Nat} (hd : 0 < d) :
    signedInt neg m / (d : Int) = (if neg = true ∧ m % d ≠ 0 then -((m / d : Nat) : Int) - 1 else signedInt neg (m / d))
    ∧ signedInt neg m % (d : Int) = (if neg = true ∧ m % d ≠ 0 then (d : Int) - (m % d : Nat) else ((m % d : Nat) : Int)) := by
  have hm : (m : Int) = d * (m / d : Nat) + (m % d : Nat) := by exact_mod_cast (Nat.div_add_mod m d).symm
  have hr : m % d < d := Nat.mod_lt m hd
  rw [Int.ediv_emod_unique (by exact_mod_cast hd)]
  generalize m / d = k at *
  generalize m % d = r at *
  by_cases hz : neg = true ∧ r ≠ 0
  · obtain ⟨rfl, hr0⟩ := hz
    simp only [signedInt, if_true, true_and, if_pos hr0, hm]
    exact ⟨by ring, by omega, by omega⟩
  · simp only [if_neg hz]
    cases neg with
    | false =>
      simp only [signedInt, Bool.false_eq_true, if_false, hm]
      exact ⟨by ring, by omega, by omega⟩
    | true =>
      obtain rfl : r = 0 := by simpa using hz
      simp only [signedInt, if_true, hm]
      exact ⟨by push_cast; ring, by simp, by omega⟩

/-- R77 in parts of a unit. -/
theorem signedInt_roundUnits_nearest (neg : Bool) (m : Nat) {e q : Int} (h : e < q) {d : Nat}
    (hd : d = 2 ^ (q - e).toNat) {a t : Int} (ha : a = signedInt neg m / d) (ht : t = signedInt neg m % d) :
    signedInt neg (roundUnits .nearest neg m e q) = if 2 * t < d ∨ (2 * t = d ∧ a % 2 = 0) then a else a + 1 := by
  have hpos : 0 < d := hd ▸ Nat.two_pow_pos _
  have hr : m % d < d := Nat.mod_lt m hpos
  obtain ⟨hq, hm⟩ := signedInt_ediv_emod neg m hpos
  rw [hq] at ha
  rw [hm] at ht
  simp only [roundUnits, if_neg (not_le.2 h), ← hd]
  generalize m / d = k at *
  generalize m % d = r at *
  cases neg with
  | false =>
    simp only [signedInt, Bool.false_eq_true, false_and, if_false] at ha ht ⊢
    split_ifs <;> omega
  | true =>
    simp only [signedInt, true_and, if_true] at ha ht ⊢
    split_ifs at * <;> omega

/-- R78 in parts of a unit. -/
theorem signedInt_roundUnits_stoch (neg : Bool) (m : Nat) (w : BitVec 32) {e q : Int} (h : e < q) {d : Nat}
    (hd : d = 2 ^ (q - e).toNat) {a t : Int} (ha : a = signedInt neg m / d) (ht : t = signedInt neg m % d) :
    signedInt neg (roundUnits (.stoch w) neg m e q) = if 2 ^ 32 ≤ t * 2 ^ 32 / d + w.toNat then a + 1 else a := by
  have hpos : 0 < d := hd ▸ Nat.two_pow_pos _
  have hr : m % d < d := Nat.mod_lt m hpos
  obtain ⟨hq, hm⟩ := signedInt_ediv_emod neg m hpos
  rw [hq] at ha
  rw [hm] at ht
  simp only [roundUnits, if_neg (not_le.2 h), ← hd]
  by_cases hz : m % d = 0
  · simp only [hz, ne_eq, not_true_eq_false, and_false, if_false] at ha ht
    simpa [hz, ha, ht] using w.isLt
  · have hfr : t = ((if neg then d - m % d else m % d : Nat) : Int) := by
      cases neg <;> simp [hz] at ht ⊢ <;> omega
    have hup : (2 ^ 32 ≤ t * 2 ^ 32 / d + w.toNat) ↔ 2 ^ 32 ≤ (if neg then d - m % d else m % d) * 2 ^ 32 / d + w.toNat := by
      rw [hfr]
      exact_mod_cast Iff.rfl
    simp only [hup, hz, if_false, decide_eq_true_eq]
    cases neg with
    | false =>
      simp only [signedInt, Bool.false_eq_true, false_and, if_false] at ha ⊢
      split_ifs <;> omega
    | true =>
      simp only [signedInt, true_and, if_true, ne_eq, hz, not_false_eq_true] at ha ⊢
      split_ifs <;> omega

/-! #### The same of the rational value -/

theorem roundUnits_of_le (rnd : Rnd) (neg : Bool) (m : Nat) {e q : Int} (h : q ≤ e) :
    roundUnits rnd neg m e q = m * 2 ^ (e - q).toNat := if_pos h

theorem signedInt_mul (neg : Bool) (m n : Nat) : signedInt neg (m * n) = signedInt neg m * n := by
  cases neg <;> simp [signedInt]

/-- A value in units that are no larger than its last place is a whole number of them. -/
theorem signedInt_mul_zpow_of_le (rnd : Rnd) (neg : Bool) (m : Nat) {e q : Int} (h : q ≤ e) :
    (signedInt neg m : ℚ) * (2 : ℚ) ^ (e - q) = (signedInt neg (roundUnits rnd neg m e q) : ℚ) := by
  rw [roundUnits_of_le rnd neg m h, signedInt_mul, two_zpow_of_nonneg (by omega), Int.cast_mul, Int.cast_natCast]

theorem signedInt_mul_zpow_of_lt (neg : Bool) (m : Nat) {e q : Int} (h : e < q) :
    (signedInt neg m : ℚ) * (2 : ℚ) ^ (e - q) = signedInt neg m / ((2 ^ (q - e).toNat : Nat) : ℚ) := by
  rw [two_zpow_of_nonpos (by omega), neg_sub, mul_one_div]

theorem sub_floor_div (i : Int) (d : Nat) : (i / d : ℚ) - ⌊(i / d : ℚ)⌋ = (i % (d : Int) : Int) / (d : ℚ) :=
  Int.fract_div_intCast_eq_div_intCast_mod

theorem nearestEven_intCast (n : Int) : nearestEven n = n := by
  simp [nearestEven]

theorem nearestEven_div (i : Int) {d : Nat} (hd : 0 < d) :
    nearestEven (i / d) = if 2 * (i % d) < d ∨ (2 * (i % d) = d ∧ i / d % 2 = 0) then i / d else i / d + 1 := by
  have hdq : (0 : ℚ) < d := by exact_mod_cast hd
  have hlt : (((i % (d : Int) : Int) / (d : ℚ)) < 1 / 2) ↔ 2 * (i % (d : Int)) < d := by
    rw [div_lt_div_iff₀ hdq two_pos, one_mul, mul_comm]
    exact_mod_cast Iff.rfl
  have hgt : (((i % (d : Int) : Int) / (d : ℚ)) > 1 / 2) ↔ (d : Int) < 2 * (i % (d : Int)) := by
    rw [gt_iff_lt, div_lt_div_iff₀ two_pos hdq, one_mul, mul_comm]
    exact_mod_cast Iff.rfl
  simp only [nearestEven, sub_floor_div, hlt, hgt]
  rw [Rat.floor_intCast_div_natCast]
  split_ifs <;> omega

theorem floor_sub_floor_mul (i : Int) (d : Nat) :
    ⌊((i / d : ℚ) - ⌊(i / d : ℚ)⌋) * 2 ^ 32⌋ = i % d * 2 ^ 32 / d := by
  rw [sub_floor_div, div_mul_eq_mul_div, ← Rat.floor_intCast_div_natCast]
  push_cast
  rfl

/-- R77. -/
theorem roundUnits_nearest_eq (neg : Bool) (m : Nat) (e q : Int) :
    signedInt neg (roundUnits .nearest neg m e q) = nearestEven (signedInt neg m * (2 : ℚ) ^ (e - q)) := by
  rcases le_or_gt q e with h | h
  · rw [signedInt_mul_zpow_of_le .nearest neg m h, nearestEven_intCast]
  · rw [signedInt_mul_zpow_of_lt neg m h, nearestEven_div _ (Nat.two_pow_pos _),
      signedInt_roundUnits_nearest neg m h rfl rfl rfl]

/-- R78: an integer is its own floor, and no word carries past a fraction of zero. -/
theorem stoch_intCast (n : Int) (w : BitVec 32) :
    (if (2 : Int) ^ 32 ≤ ⌊((n : ℚ) - ⌊(n : ℚ)⌋) * 2 ^ 32⌋ + w.toNat then ⌊(n : ℚ)⌋ + 1 else ⌊(n : ℚ)⌋) = n := by
  simpa using w.isLt

/-- R78. -/
theorem roundUnits_stoch_eq (neg : Bool) (m : Nat) (e q : Int) (w : BitVec 32) {v : ℚ}
    (hv : v = signedInt neg m * (2 : ℚ) ^ (e - q)) :
    signedInt neg (roundUnits (.stoch w) neg m e q)
      = if (2 : Int) ^ 32 ≤ ⌊(v - ⌊v⌋) * 2 ^ 32⌋ + w.toNat then ⌊v⌋ + 1 else ⌊v⌋ := by
  rcases le_or_gt q e with h | h
  · rw [hv, signedInt_mul_zpow_of_le (.stoch w) neg m h, stoch_intCast]
  · rw [hv, signedInt_mul_zpow_of_lt neg m h, floor_sub_floor_mul, Rat.floor_intCast_div_natCast,
      signedInt_roundUnits_stoch neg m w h rfl rfl rfl]

/-- Settles O51: by the floor of the value in units and the parts of a unit above it; a whole number has no parts above it. -/
theorem roundingFollowsItsMode : Obligations.RoundingFollowsItsMode := by
  refine ⟨fun neg m e q v hv => ?_, fun neg m e q w v hv => roundUnits_stoch_eq neg m e q w hv, fun neg m e q w n hn => ?_⟩
  · rw [hv]
    exact roundUnits_nearest_eq neg m e q
  · rw [roundUnits_stoch_eq neg m e q w hn, stoch_intCast]

end Sys2Proof.Machine
end

/-! ### Products and entries -/

section
namespace Sys2Proof.Machine

open Claims

/-! #### Products -/

theorem floorVal_eq (neg : Bool) (m : Nat) (e : Int) : floorVal neg m e = ⌊(signedInt neg m : ℚ) * (2 : ℚ) ^ e⌋ := by
  rcases le_or_gt 0 e with h | h
  · rw [two_zpow_of_nonneg h, ← Int.cast_natCast (R := ℚ), ← Int.cast_mul, Int.floor_intCast]
    exact if_pos h
  · rw [two_zpow_of_nonpos h.le, mul_one_div, Rat.floor_intCast_div_natCast]
    exact if_neg (not_le.2 h)

theorem prodLim_nonneg (h : Nat) : 0 ≤ prodLim h := by
  have := Int.pow_pos (n := 2) (m := 95 - h) (by decide)
  unfold prodLim
  omega

/-- R65: a finite product is the floor of its value in units, held to the limit. -/
theorem gaugeProduct_fin {g : Gauge} {p : Val} {r : ℚ} (hp : Val.rat p = some r) :
    gaugeProduct g p = (if prodLim g.h < ⌊r * (2 : ℚ) ^ (64 - g.g)⌋ then (prodLim g.h, false, true)
      else if ⌊r * (2 : ℚ) ^ (64 - g.g)⌋ < -prodLim g.h then (-prodLim g.h, false, true)
      else (⌊r * (2 : ℚ) ^ (64 - g.g)⌋, false, false)) := by
  cases p with
  | fin neg m e =>
    rw [rat_fin, Option.some.injEq] at hp
    have hu : r * (2 : ℚ) ^ (64 - g.g) = signedInt neg m * (2 : ℚ) ^ (e + (64 - g.g)) := by
      rw [← hp, mul_assoc, ← zpow_add₀ two_ne_zero]
    rw [hu, ← floorVal_eq]
    rfl
  | inf _ => cases hp
  | nan => cases hp

/-- R65, R71: every product, special or not, is within the limit. -/
theorem gaugeProduct_bound (g : Gauge) (p : Val) : -prodLim g.h ≤ (gaugeProduct g p).1 ∧ (gaugeProduct g p).1 ≤ prodLim g.h := by
  have hl := prodLim_nonneg g.h
  cases p with
  | fin neg m e => rw [gaugeProduct]; split_ifs <;> constructor <;> dsimp only <;> omega
  | inf neg => cases neg <;> simp [gaugeProduct] <;> omega
  | nan => simpa [gaugeProduct] using hl

/-! #### Steps -/

/-- What products give without saturation: the sum of their units, and NAN and RANGE if one of them sets it. -/
def gaugedSum (g : Gauge) (ps : List Val) : AccEnt :=
  ⟨(ps.map (fun p => (gaugeProduct g p).1)).sum, ps.any (fun p => (gaugeProduct g p).2.1),
    ps.any (fun p => (gaugeProduct g p).2.2), false⟩

theorem foldl_gaugeProduct (g : Gauge) (ps : List Val) (x : Int) (nan range : Bool) :
    ps.foldl (fun (acc : Int × Bool × Bool) p =>
        let q := gaugeProduct g p
        (acc.1 + q.1, acc.2.1 || q.2.1, acc.2.2 || q.2.2)) (x, nan, range)
      = (x + (gaugedSum g ps).a, nan || (gaugedSum g ps).nan, range || (gaugedSum g ps).range) := by
  induction ps generalizing x nan range with
  | nil => simp [gaugedSum]
  | cons p ps ih =>
    rw [List.foldl_cons, ih]
    simp [gaugedSum, add_assoc, Bool.or_assoc]

/-- R66: a step adds what its products give. -/
theorem accStep_eq_accAdd {g : Gauge} (hg : g.mode = false) (e : AccEnt) (ps : List Val) :
    accStep g e ps = accAdd e (gaugedSum g ps).a (gaugedSum g ps).nan (gaugedSum g ps).range (gaugedSum g ps).sat := by
  simp only [accStep, hg, Bool.false_eq_true, if_false, accStepGauged, foldl_gaugeProduct, zero_add, Bool.false_or]
  rfl

theorem accAdd_a (e : AccEnt) (x : Int) (nan range sat : Bool) :
    (accAdd e x nan range sat).a = max (-(2 ^ 95 - 1)) (min (2 ^ 95 - 1) (e.a + x)) := by
  simp only [accAdd]
  split_ifs <;> omega

theorem accAdd_sat (e : AccEnt) (x : Int) (nan range sat : Bool) :
    (accAdd e x nan range sat).sat = (e.sat || sat || decide (2 ^ 95 - 1 < e.a + x) || decide (e.a + x < -(2 ^ 95 - 1))) := by
  rw [Bool.eq_iff_iff]
  simp [accAdd, or_assoc]

/-- Settles O52: a product by its floor, an entry by the one addition that a step is. -/
theorem productsAndEntries : Obligations.ProductsAndEntries := by
  refine ⟨fun g p r pu lim _ _ hr hpu hlim => ?_, fun g e ps x hg hx => ?_⟩
  · subst hpu hlim
    exact gaugeProduct_fin hr
  · subst hx
    rw [accStep_eq_accAdd hg]
    refine ⟨accAdd_a _ _ _ _ _, ?_, rfl, rfl⟩
    have hs := accAdd_sat e (gaugedSum g ps).a (gaugedSum g ps).nan (gaugedSum g ps).range (gaugedSum g ps).sat
    rwa [show (gaugedSum g ps).sat = false from rfl, Bool.or_false] at hs

end Sys2Proof.Machine
end

/-! ### Sums without an order -/

section
namespace Sys2Proof.Machine

open Claims

/-- R68, R69: at most 2^h products stay within the entry. -/
theorem gaugedSum_bound {g : Gauge} (hh : g.h ≤ 31) {ps : List Val} (hps : ps.length ≤ 2 ^ g.h) :
    -(2 ^ 95 - 1) ≤ (gaugedSum g ps).a ∧ (gaugedSum g ps).a ≤ 2 ^ 95 - 1 := by
  have hlim : (ps.length : Int) * prodLim g.h ≤ 2 ^ 95 - 1 :=
    calc (ps.length : Int) * prodLim g.h
      _ ≤ 2 ^ g.h * prodLim g.h := mul_le_mul_of_nonneg_right (by exact_mod_cast hps) (prodLim_nonneg _)
      _ = 2 ^ 95 - 2 ^ g.h := by rw [prodLim, mul_sub, ← pow_add, Nat.add_sub_cancel' (by omega), mul_one]
      _ ≤ 2 ^ 95 - 1 := sub_le_sub_left (one_le_pow₀ (by decide)) _
  have hub := List.sum_le_card_nsmul (ps.map (fun p => (gaugeProduct g p).1)) (prodLim g.h) (by
    simpa using fun p _ => (gaugeProduct_bound g p).2)
  have hlb := List.card_nsmul_le_sum (ps.map (fun p => (gaugeProduct g p).1)) (-prodLim g.h) (by
    simpa using fun p _ => (gaugeProduct_bound g p).1)
  rw [List.length_map, nsmul_eq_mul] at hub hlb
  rw [mul_neg] at hlb
  exact ⟨(neg_le_neg hlim).trans hlb, hub.trans hlim⟩

/-- R70: a partial sum added to another, when all their products together may be. -/
theorem accAdd_gaugedSum {g : Gauge} (hh : g.h ≤ 31) {ps qs : List Val} (hps : (ps ++ qs).length ≤ 2 ^ g.h) :
    accAdd (gaugedSum g ps) (gaugedSum g qs).a (gaugedSum g qs).nan (gaugedSum g qs).range (gaugedSum g qs).sat
      = gaugedSum g (ps ++ qs) := by
  have ha : (gaugedSum g ps).a + (gaugedSum g qs).a = (gaugedSum g (ps ++ qs)).a := by simp [gaugedSum]
  obtain ⟨hlb, hub⟩ := gaugedSum_bound hh hps
  simp only [accAdd, ha, if_neg (not_lt.2 hlb), if_neg (not_lt.2 hub), decide_eq_false (not_lt.2 hlb),
    decide_eq_false (not_lt.2 hub)]
  simp [gaugedSum]

theorem foldl_accStep_gaugedSum {g : Gauge} (hg : g.mode = false) (hh : g.h ≤ 31) (ss : List (List Val)) (ps : List Val)
    (hps : (ps ++ ss.flatten).length ≤ 2 ^ g.h) : ss.foldl (accStep g) (gaugedSum g ps) = gaugedSum g (ps ++ ss.flatten) := by
  induction ss generalizing ps with
  | nil => simp
  | cons qs ss ih =>
    rw [List.flatten_cons, ← List.append_assoc] at hps ⊢
    have hpq : (ps ++ qs).length ≤ 2 ^ g.h := by
      rw [List.length_append] at hps
      omega
    rw [List.foldl_cons, accStep_eq_accAdd hg, accAdd_gaugedSum hh hpq, ih _ hps]

/-- R69: an entry of at most 2^h products is what its products give, in whatever way they are added. -/
theorem SumTree.entry_eq_gaugedSum {g : Gauge} (hg : g.mode = false) (hh : g.h ≤ 31) (t : SumTree)
    (ht : t.products.length ≤ 2 ^ g.h) : t.entry g = gaugedSum g t.products := by
  induction t with
  | steps ss => exact foldl_accStep_gaugedSum hg hh ss [] ht
  | join a b iha ihb =>
    have hab : a.products.length + b.products.length ≤ 2 ^ g.h := by simpa [SumTree.products] using ht
    rw [SumTree.entry, iha (by omega), ihb (by omega)]
    exact accAdd_gaugedSum hh ht

theorem gaugedSum_perm (g : Gauge) {ps qs : List Val} (h : ps.Perm qs) : gaugedSum g ps = gaugedSum g qs := by
  rw [gaugedSum, (h.map _).sum_eq, h.any_eq, h.any_eq, gaugedSum]

/-- Settles O53: an entry of at most 2^h products is what its products give, which no order changes; with h = 0 two products
at the limit saturate. -/
theorem gaugedSumsHaveNoOrder : Obligations.GaugedSumsHaveNoOrder := by
  refine ⟨fun g t hg hh ht => SumTree.entry_eq_gaugedSum hg hh t ht, fun g t u hg hh ht hp => ?_, ?_⟩
  · rw [SumTree.entry_eq_gaugedSum hg hh t ht, SumTree.entry_eq_gaugedSum hg hh u (hp.length_eq ▸ ht), gaugedSum_perm g hp]
  · exact ⟨{ mode := false, g := 0, h := 0 }, .steps [[.fin false 1 31], [.fin false 1 31]], rfl, by decide, by decide,
      by decide +kernel⟩

end Sys2Proof.Machine
end

/-! ### The tile unit and the array take their instructions -/

section
/-! What a unit's acceptance of its head instruction changes, said once for all units (`Cluster.took`), and what else each
of tile.cfg, tile.rel, tile.ld, mx.load, mx.gauge and mx.run changes with it. -/

namespace Sys2Proof.Machine

/-! #### The units' queues (R228) -/

theorem unitNo_lt (u : EngUnit) : unitNo u < 5 := by cases u <;> decide

theorem unitNo_injective : Function.Injective unitNo := by
  intro u v
  cases u <;> cases v <;> decide

theorem Cluster.unit_eq (k : Cluster) (u : EngUnit) : k.unit u = k.uq[unitNo u]'(unitNo_lt u) := by cases u <;> rfl

theorem Cluster.setUnit_eq (k : Cluster) (u : EngUnit) (q : UnitQs) :
    k.setUnit u q = { k with uq := k.uq.set (unitNo u) q (unitNo_lt u) } := by cases u <;> rfl

theorem Cluster.unit_setUnit_same (k : Cluster) (u : EngUnit) (q : UnitQs) : (k.setUnit u q).unit u = q := by
  simp [Cluster.unit_eq, Cluster.setUnit_eq]

theorem Cluster.unit_setUnit_other (k : Cluster) {u v : EngUnit} (q : UnitQs) (h : v ≠ u) :
    (k.setUnit u q).unit v = k.unit v := by
  have hne : unitNo u ≠ unitNo v := fun e => h (unitNo_injective e.symm)
  simp [Cluster.unit_eq, Cluster.setUnit_eq, hne]

/-! #### Handle queues and tile registers -/

theorem Cluster.port_lt (k : Cluster) (p : Nat) : k.port p < 8 := by
  have := bits_lt (k.r CL_Q_ROUTE) (4 * p + 2) (4 * p)
  rwa [show 4 * p + 2 + 1 - 4 * p = 3 by omega] at this

theorem Cluster.setQueue_eq (k : Cluster) (n : Nat) (q : List HEntry) : ∃ hq, k.setQueue n q = { k with hq } := by
  unfold Cluster.setQueue
  split
  · exact ⟨_, rfl⟩
  · exact ⟨k.hq, rfl⟩

theorem Cluster.queue_setQueue_same (k : Cluster) {n : Nat} (q : List HEntry) (h : n < 8) : (k.setQueue n q).queue n = q := by
  simp [Cluster.queue, Cluster.setQueue, h]

theorem Cluster.setTile_eq (k : Cluster) (t : Nat) (x : Tile) : ∃ tiles, k.setTile t x = { k with tiles } := by
  unfold Cluster.setTile
  split
  · exact ⟨_, rfl⟩
  · exact ⟨k.tiles, rfl⟩

theorem Cluster.tile_setTile_same (k : Cluster) {t : Nat} (x : Tile) (h : t < 8) : (k.setTile t x).tile t = x := by
  simp [Cluster.tile, Cluster.setTile, h]

theorem Cluster.tile_setTile_other (k : Cluster) {t u : Nat} (x : Tile) (h : t ≠ u) : (k.setTile u x).tile t = k.tile t := by
  unfold Cluster.tile Cluster.setTile
  by_cases hu : u < 8 <;> by_cases ht : t < 8 <;> simp [hu, ht, Ne.symm h]

/-! #### The head of a queue is taken -/

/-- Unit u takes its head q at time now, with v for q's rd (R230, R746). -/
def Cluster.took (k : Cluster) (u : EngUnit) (q : QInsn) (v : Word) (now : Nat) : Cluster :=
  { k.popUnit u with
    core := { k.core.set q.rd v with awaiting := nsDel k.core.awaiting q.rd }
    hangAt := now
    hung := false }

theorem State.acceptHead_eq (s : State) (c : Cl) (u : EngUnit) (q : QInsn) (v : Word) :
    s.acceptHead c u q v = s.mod c (fun k => k.took u q v s.timebase) := by
  simp only [State.acceptHead, State.wrRd, State.core_eq, State.progressed_eq, State.mod_mod]
  rfl

theorem Cluster.took_unit_same (k : Cluster) (u : EngUnit) (q : QInsn) (v : Word) (now : Nat) :
    ((k.took u q v now).unit u).q = (k.unit u).q.tail := by
  show ((k.popUnit u).unit u).q = _
  rw [Cluster.popUnit, Cluster.unit_setUnit_same]

theorem Cluster.took_unit_other (k : Cluster) {u w : EngUnit} (q : QInsn) (v : Word) (now : Nat) (h : w ≠ u) :
    (k.took u q v now).unit w = k.unit w := Cluster.unit_setUnit_other k _ h

theorem Cluster.took_get (k : Cluster) (u : EngUnit) (q : QInsn) (v : Word) (now : Nat) {r : Nat} (hr : r < 32) :
    (k.took u q v now).core.get r = if r = q.rd ∧ r ≠ 0 then v else k.core.get r := CoreSt.get_set k.core q.rd r v hr

theorem Cluster.took_pc (k : Cluster) (u : EngUnit) (q : QInsn) (v : Word) (now : Nat) :
    (k.took u q v now).core.pc = k.core.pc := by
  show (k.core.set q.rd v).pc = _
  unfold CoreSt.set
  split_ifs <;> rfl

@[simp] theorem Cluster.took_arr (k : Cluster) (u : EngUnit) (q : QInsn) (v : Word) (now : Nat) :
    (k.took u q v now).arr = k.arr := rfl
@[simp] theorem Cluster.took_tiles (k : Cluster) (u : EngUnit) (q : QInsn) (v : Word) (now : Nat) :
    (k.took u q v now).tiles = k.tiles := rfl
@[simp] theorem Cluster.took_lds (k : Cluster) (u : EngUnit) (q : QInsn) (v : Word) (now : Nat) :
    (k.took u q v now).lds = k.lds := rfl

/-- The core, the units' queues and the scratchpad are as before. -/
structure Cluster.SameUnits (k j : Cluster) : Prop where
  core : j.core = k.core
  uq : j.uq = k.uq
  sp : j.sp = k.sp

theorem Cluster.SameUnits.unit {k j : Cluster} (h : k.SameUnits j) (u : EngUnit) : j.unit u = k.unit u := by
  simp only [Cluster.unit_eq, h.uq]

theorem Cluster.SameUnits.refl (k : Cluster) : k.SameUnits k := ⟨rfl, rfl, rfl⟩

section
variable {k j : Cluster} (h : k.SameUnits j)
include h

theorem Cluster.SameUnits.setTile {t : Nat} {x : Tile} : k.SameUnits (j.setTile t x) := by
  obtain ⟨tiles, e⟩ := j.setTile_eq t x
  rw [e]
  exact ⟨h.core, h.uq, h.sp⟩

theorem Cluster.SameUnits.wf {off hi lo v : Nat} : k.SameUnits (j.wf off hi lo v) := ⟨h.core, h.uq, h.sp⟩

theorem Cluster.SameUnits.ite {p : Prop} [Decidable p] {i : Cluster} (h' : k.SameUnits i) :
    k.SameUnits (if p then j else i) := by
  split
  · exact h
  · exact h'

end

/-! #### tile.cfg and tile.rel (R143, R146) -/

theorem Cluster.configure_sameUnits (k : Cluster) (a : Nat) (f : Fmt) : k.SameUnits (k.configure a f) := by
  have hk := Cluster.SameUnits.refl k
  refine .ite (.setTile (.ite (.setTile ?_) ?_)) ?_ <;> exact .setTile (.ite hk.setTile hk)

/-- R143: the register that tile.cfg names; those after it that a pair takes or gives up are others. -/
theorem Cluster.configure_tile (k : Cluster) (a : Nat) (f : Fmt) :
    (k.configure a f).tile (bits a 2 0) = { (k.tile (bits a 2 0)).unset with
      shape := bits a 5 3, fmt := f, pair := bit a 10
      rows := if bits a 5 3 = 1 ∨ bits a 5 3 = 4 then 1024 else bits a 21 11 } := by
  have ht : bits a 2 0 < 8 := bits_lt a 2 0
  have ne1 : bits a 2 0 ≠ bits a 2 0 + 1 := by omega
  have ne2 : bits a 2 0 ≠ bits a 2 0 + 2 := by omega
  dsimp only [Cluster.configure]
  split_ifs <;> simp only [Cluster.tile_setTile_other _ _ ne1, Cluster.tile_setTile_other _ _ ne2,
    Cluster.tile_setTile_same _ _ ht]

/-- R146: register t, which is x, is unset, and with it the other one of its pair. -/
def Cluster.release (k : Cluster) (t : Nat) (x : Tile) : Cluster :=
  let k := k.setTile t x.unset
  if x.pair then k.setTile (t + 1) (k.tile (t + 1)).unset else k

theorem Cluster.release_sameUnits (k : Cluster) (t : Nat) (x : Tile) : k.SameUnits (k.release t x) :=
  .ite (Cluster.SameUnits.refl k).setTile.setTile (Cluster.SameUnits.refl k).setTile

theorem Cluster.release_tile (k : Cluster) {t : Nat} (x : Tile) (ht : t < 8) : (k.release t x).tile t = x.unset := by
  unfold Cluster.release
  split_ifs <;> simp only [Cluster.tile_setTile_other _ _ (Nat.ne_of_lt t.lt_succ_self), Cluster.tile_setTile_same _ _ ht]

/-! #### The array, and mx.run (R95, R126) -/

@[simp] theorem State.arr_eq (s : State) (c : Cl) (f : MxArray → MxArray) :
    s.arr c f = s.mod c (fun k => { k with arr := f k.arr }) := rfl

/-- What accepting run r does before mx.run leaves its queue: the handle of its buffer is popped, and a gauged run is noted. -/
def Cluster.sourced (k : Cluster) (r : MxRun) : Cluster :=
  let k := if r.handle.isSome then k.setQueue (k.port 0) (k.queue (k.port 0)).tail else k
  if r.gauge.mode then { k with flags := Nat.lor k.flags 1 } else k

theorem Cluster.sourced_sameUnits (k : Cluster) (r : MxRun) : k.SameUnits (k.sourced r) := by
  obtain ⟨hq, e⟩ := k.setQueue_eq (k.port 0) (k.queue (k.port 0)).tail
  unfold Cluster.sourced
  rw [e]
  split_ifs <;> exact ⟨rfl, rfl, rfl⟩

theorem Cluster.sourced_arr (k : Cluster) (r : MxRun) : (k.sourced r).arr = k.arr := by
  obtain ⟨hq, e⟩ := k.setQueue_eq (k.port 0) (k.queue (k.port 0)).tail
  unfold Cluster.sourced
  rw [e]
  split_ifs <;> rfl

theorem Cluster.sourced_queue (k : Cluster) {r : MxRun} (h : r.handle.isSome = true) :
    (k.sourced r).queue (k.port 0) = (k.queue (k.port 0)).tail := by
  have popped := k.queue_setQueue_same (k.queue (k.port 0)).tail (k.port_lt 0)
  unfold Cluster.sourced
  rw [if_pos h]
  split_ifs <;> exact popped

theorem State.acceptRun_eq (s : State) (c : Cl) (q : QInsn) (r : MxRun) :
    s.acceptRun c q r = ((s.mod c (fun k => k.sourced r)).acceptHead c .array q (word r.num)).mod c (fun k =>
      { k with arr := { k.arr with runs := k.arr.runs ++ [r], nextRun := (k.arr.nextRun + 1) % 65536 } }) := by
  have popped : s.popQ c ((s.cl c).port 0) = s.mod c (fun k => k.setQueue (k.port 0) (k.queue (k.port 0)).tail) := rfl
  unfold State.acceptRun Cluster.sourced
  rw [popped]
  split_ifs <;> simp only [State.arr_eq, State.mod_mod, State.mod_self]

theorem State.acceptRun_arr (s : State) (c : Cl) (q : QInsn) (r : MxRun) : ((s.acceptRun c q r).cl c).arr = { (s.cl c).arr with
    runs := (s.cl c).arr.runs ++ [r], nextRun := ((s.cl c).arr.nextRun + 1) % 65536 } := by
  simp [State.acceptRun_eq, State.acceptHead_eq, Cluster.sourced_arr]

theorem State.acceptRun_queue (s : State) (c : Cl) (q : QInsn) {r : MxRun} (h : r.handle.isSome = true) :
    ((s.acceptRun c q r).cl c).queue ((s.cl c).port 0) = ((s.cl c).queue ((s.cl c).port 0)).tail := by
  rw [State.acceptRun_eq, State.acceptHead_eq, State.mod_mod, State.mod_mod, State.cl_mod_same]
  exact (s.cl c).sourced_queue h

end Sys2Proof.Machine
end

section
namespace Sys2Proof.Claims
open Machine

/-! #### What taking an instruction leaves alone -/

theorem Takes.acceptHead (s : State) (c : Cl) (u : EngUnit) (q : QInsn) (v : Word) :
    Takes s (s.acceptHead c u q v) c u q v := by
  rw [State.acceptHead_eq]
  refine ⟨s.within_mod c _, ?_⟩
  rw [State.cl_mod_same]
  exact ⟨Cluster.took_unit_same .., fun w hw => Cluster.took_unit_other _ _ _ _ hw, fun r hr => Cluster.took_get _ _ _ _ _ hr,
    Cluster.took_pc .., rfl⟩

theorem Takes.mod {s t : State} {c : Cl} {u : EngUnit} {q : QInsn} {v : Word} (h : Takes s t c u q v)
    {f : Cluster → Cluster} (hf : (t.cl c).SameUnits (f (t.cl c)) := by exact ⟨rfl, rfl, rfl⟩) :
    Takes s (t.mod c f) c u q v := by
  obtain ⟨hwithin, hhead, hothers, hget, hpc, hsp⟩ := h
  refine ⟨hwithin.trans (t.within_mod c f), ?_⟩
  simp only [State.cl_mod_same, hf.unit, hf.core, hf.sp]
  exact ⟨hhead, hothers, hget, hpc, hsp⟩

/-- What happens in the same step before the instruction leaves its queue. -/
theorem Takes.of_mod {s t : State} {c : Cl} {u : EngUnit} {q : QInsn} {v : Word} {f : Cluster → Cluster}
    (h : Takes (s.mod c f) t c u q v) (hf : (s.cl c).SameUnits (f (s.cl c))) : Takes s t c u q v := by
  obtain ⟨hwithin, hrest⟩ := h
  refine ⟨(s.within_mod c f).trans hwithin, ?_⟩
  simpa only [State.cl_mod_same, hf.unit, hf.core, hf.sp] using hrest

theorem Takes.acceptRun (s : State) (c : Cl) (q : QInsn) (r : MxRun) :
    Takes s (s.acceptRun c q r) c .array q (word r.num) := by
  rw [State.acceptRun_eq]
  exact ((Takes.acceptHead ..).of_mod (Cluster.sourced_sameUnits _ r)).mod

end Sys2Proof.Claims
end

section
namespace Sys2Proof.Machine
open Claims

/-! #### Each instruction at its unit -/

section
variable {s : State} {c : Cl} {q : QInsn}

theorem execTileCfgAccept_spec {f : Fmt} (hq : (s.cl c).ready .tile 0 = some q) (hpass : tileCfgCheck (s.cl c) q = .pass)
    (hf : Fmt.ofCode (bits q.rs1.toNat 9 6) = some f) :
    ∃ t, execTileCfgAccept c s = .next t
      ∧ Takes s t c .tile q (word ((s.cl c).tileCfg (bits q.rs1.toNat 2 0) % 2 ^ 32))
      ∧ ((t.cl c).tile (bits q.rs1.toNat 2 0)).shape = bits q.rs1.toNat 5 3
      ∧ ((t.cl c).tile (bits q.rs1.toNat 2 0)).fmt = f
      ∧ ((t.cl c).tile (bits q.rs1.toNat 2 0)).pair = bit q.rs1.toNat 10
      ∧ ((t.cl c).tile (bits q.rs1.toNat 2 0)).valid = [] := by
  simp only [execTileCfgAccept, hq, hpass, hf]
  refine ⟨_, rfl, (Takes.acceptHead ..).mod (Cluster.configure_sameUnits ..), ?_⟩
  simp [Cluster.configure_tile, Tile.unset]

theorem execTileRelAccept_spec (hq : (s.cl c).ready .tile 2 = some q) (hrsv : bits q.rs1.toNat 63 3 = 0)
    (hmember : ((s.cl c).tile (bits q.rs1.toNat 2 0)).member = false) :
    ∃ t, execTileRelAccept c s = .next t ∧ Takes s t c .tile q 0
      ∧ ((t.cl c).tile (bits q.rs1.toNat 2 0)).shape = 0 ∧ ((t.cl c).tile (bits q.rs1.toNat 2 0)).valid = [] := by
  have hok : ¬ (bits q.rs1.toNat 63 3 ≠ 0 ∨ ((s.cl c).tile (bits q.rs1.toNat 2 0)).member = true) := by simp [hrsv, hmember]
  simp only [execTileRelAccept, hq, if_neg hok]
  refine ⟨_, rfl, (Takes.acceptHead ..).mod (Cluster.release_sameUnits ..), ?_⟩
  rw [State.cl_mod_same, ← Cluster.release, Cluster.release_tile _ _ (bits_lt _ 2 0)]
  exact ⟨rfl, rfl⟩

theorem execTileLdAccept_spec (hq : (s.cl c).ready .tile 1 = some q) (hpass : tileLdCheck (s.cl c) q = .pass) :
    ∃ t, execTileLdAccept c s = .next t ∧ Takes s t c .tile q 0 ∧ (t.cl c).tiles = (s.cl c).tiles
      ∧ (t.cl c).lds = (s.cl c).lds ++
        [{ tk := q.tk, t := tileLdReg q, addr := q.rs1.toNat, first := bits q.rs2.toNat 9 0,
           count := bits q.rs2.toNat 20 10, stride := bits q.rs2.toNat 39 21, scoff := bits q.rs2.toNat 63 40 }] := by
  simp only [execTileLdAccept, hq, hpass]
  exact ⟨_, rfl, (Takes.acceptHead ..).mod, by simp [State.acceptHead_eq]⟩

theorem execMxLoadAccept_spec (hq : (s.cl c).ready .array 0 = some q)
    (hidle : (s.cl c).arr.loads.any (fun l => l.started.isNone) = false) (hok : mxLoadOk (s.cl c) q = true) :
    ∃ t, execMxLoadAccept c s = .next t ∧ Takes s t c .array q 0 ∧ (t.cl c).arr = { (s.cl c).arr with
      loads := (s.cl c).arr.loads ++
        [{ tk := q.tk, t := mxLoadT q, pack := mxLoadPack q, rep := mxLoadRep q
           fmt := ((s.cl c).tile (mxLoadT q)).fmt }] } := by
  simp only [execMxLoadAccept, hq, hidle, hok, Bool.false_eq_true, Bool.true_eq_false, if_false]
  exact ⟨_, rfl, (Takes.acceptHead ..).mod, by simp [State.acceptHead_eq]⟩

theorem execMxGaugeAccept_spec (hq : (s.cl c).ready .array 2 = some q) (hrsv : bits q.rs1.toNat 63 16 = 0) :
    ∃ t, execMxGaugeAccept c s = .next t ∧ Takes s t c .array q (word (s.cl c).arr.gauge.code)
      ∧ (t.cl c).arr = { (s.cl c).arr with gauge := Gauge.ofCode q.rs1.toNat } := by
  simp only [execMxGaugeAccept, hq, if_neg (not_not.2 hrsv)]
  exact ⟨_, rfl, (Takes.acceptHead ..).mod, by simp [State.acceptHead_eq]⟩

section
variable {f : Fmt} (hq : (s.cl c).ready .array 1 = some q)
  (hidle : (s.cl c).arr.runs.any (fun r => !r.begun && r.count != 0) = false)
  (hcheck : mxRunCheck1 (s.cl c) (runDesc q) = .pass) (hf : Fmt.ofCode (runDesc q).wfmt = some f)
include hq hidle hcheck hf

theorem execMxRunAccept_tile (hkind : (runDesc q).kind = true)
    (hpass : mxRunCheck2 (s.cl c) (mkRun (s.cl c) q (runDesc q) f none ⟨0, 0⟩) = .pass) :
    execMxRunAccept c false s = .next (s.acceptRun c q (mkRun (s.cl c) q (runDesc q) f none ⟨0, 0⟩)) := by
  simp only [execMxRunAccept, mxRunAccept, hq, hidle, hcheck, hf, hkind, hpass, Bool.false_eq_true, if_false, if_true]

theorem execMxRunAccept_queue {h : HEntry} (hkind : (runDesc q).kind = false)
    (hhead : ((s.cl c).queue ((s.cl c).port 0)).head? = some h)
    (hpass : mxRunCheck2 (s.cl c) (mkRun (s.cl c) q (runDesc q) f (some h) ((s.cl c).prop h.handle)) = .pass) :
    execMxRunAccept c false s
      = .next (s.acceptRun c q (mkRun (s.cl c) q (runDesc q) f (some h) ((s.cl c).prop h.handle))) := by
  obtain ⟨hs, hqueue⟩ := List.head?_eq_some_iff.1 hhead
  simp only [execMxRunAccept, mxRunAccept, hq, hidle, hcheck, hf, hkind, hqueue, hpass, Bool.false_eq_true, if_false]

end

/-! #### Discarding (R241) -/

theorem State.endWait_of_not_sync (s : State) (c : Cl) {q : QInsn} (h : q.word.toNat % 128 ≠ 0x7B) : s.endWait c q = s := by
  have hop : bits q.word.toNat 6 0 = q.word.toNat % 128 := by simp [bits]
  simp only [State.endWait, hop]
  exact if_neg fun hc => h hc.1

theorem execInstructionDiscard_spec {u : EngUnit} (hq : (s.cl c).head u = some q) (hpend : (s.cl c).pend u = true)
    (hop : q.word.toNat % 128 ≠ 0x7B) :
    ∃ t, execInstructionDiscard c u s = .next t ∧ Takes s t c u q allOnes := by
  simp only [execInstructionDiscard, hq, hpend, Bool.true_eq_false, if_false, State.endWait_of_not_sync _ _ hop]
  split_ifs
  · exact ⟨_, rfl, (Takes.acceptHead ..).mod (Cluster.SameUnits.refl _).wf⟩
  · exact ⟨_, rfl, Takes.acceptHead ..⟩

end

/-- Settles O14: each instruction by what its unit takes with it, and by the part of the tile unit or of the array that it
changes besides. -/
theorem tileAndArrayAccept : Obligations.TileAndArrayAccept := by
  refine ⟨fun s c q f => execTileCfgAccept_spec, fun s c q => execTileRelAccept_spec, fun s c q => execTileLdAccept_spec,
    fun s c q => execMxLoadAccept_spec, fun s c q => execMxGaugeAccept_spec, ?_, ?_, fun s c u q => execInstructionDiscard_spec⟩
  · intro s c q f hq hidle hcheck hf hkind hpass
    exact ⟨_, execMxRunAccept_tile hq hidle hcheck hf hkind hpass, Takes.acceptRun .., State.acceptRun_arr ..⟩
  · intro s c q f h hq hidle hcheck hf hkind hhead hpass
    exact ⟨_, execMxRunAccept_queue hq hidle hcheck hf hkind hhead hpass, Takes.acceptRun .., State.acceptRun_queue _ _ _ rfl,
      congrArg MxArray.runs (State.acceptRun_arr ..)⟩

end Sys2Proof.Machine
end

/-! ### What a step of the array leaves alone -/

section
/-! Counters, error records, interrupts, tile registers, the vector engine and the streams: what they do in a step leaves
the array, the count of steps and the queues that the array pushes onto as they are (`State.SameArray`). It is carried
along a chain of operations as `State.Tells` is. -/

namespace Sys2Proof.Machine

/-- The array, the count of steps, and the queues that the array pushes onto are as before. -/
structure Cluster.SameArray (k j : Cluster) : Prop where
  arr : j.arr = k.arr
  steps : j.steps = k.steps
  hq : j.hq = k.hq
  resq : j.resq = k.resq
  route : j.r CL_Q_ROUTE = k.r CL_Q_ROUTE

theorem Cluster.SameArray.refl (k : Cluster) : k.SameArray k := ⟨rfl, rfl, rfl, rfl, rfl⟩

theorem Cluster.SameArray.trans {k j i : Cluster} (h : k.SameArray j) (h' : j.SameArray i) : k.SameArray i :=
  ⟨h'.arr.trans h.arr, h'.steps.trans h.steps, h'.hq.trans h.hq, h'.resq.trans h.resq, h'.route.trans h.route⟩

section
variable {k j : Cluster} (h : k.SameArray j)
include h

theorem Cluster.SameArray.w {off v : Nat} (ho : off ≠ CL_Q_ROUTE) : k.SameArray (j.w off v) :=
  h.trans ⟨rfl, rfl, rfl, rfl, Cluster.r_w_other j _ _ _ ho.symm⟩

theorem Cluster.SameArray.setTile {t : Nat} {x : Tile} : k.SameArray (j.setTile t x) := by
  obtain ⟨tiles, e⟩ := j.setTile_eq t x
  rw [e]
  exact h.trans ⟨rfl, rfl, rfl, rfl, rfl⟩

theorem Cluster.SameArray.ite {p : Prop} [Decidable p] {i : Cluster} (h' : k.SameArray i) :
    k.SameArray (if p then j else i) := by
  split
  · exact h
  · exact h'

theorem Cluster.SameArray.backpressure : j.backpressure = k.backpressure := by
  unfold Cluster.backpressure Cluster.pushRoom Cluster.room Cluster.queue Cluster.port
  rw [h.arr, h.hq, h.resq, h.route]

theorem Cluster.SameArray.starved : j.starved = k.starved := by
  unfold Cluster.starved Cluster.admissible Cluster.due
  rw [h.arr, h.steps]

end

/-- In cluster c the array, the count of steps, and the queues that the array pushes onto are as before. -/
def State.SameArray (c : Cl) (s t : State) : Prop := (s.cl c).SameArray (t.cl c)

theorem State.SameArray.refl (c : Cl) (s : State) : s.SameArray c s := Cluster.SameArray.refl _

section
variable {s t : State} {c d : Cl} (h : State.SameArray c s t)
include h

theorem State.SameArray.mod {f : Cluster → Cluster}
    (hf : ∀ k : Cluster, k.SameArray (f k) := by exact fun _ => ⟨rfl, rfl, rfl, rfl, rfl⟩) :
    State.SameArray c s (t.mod d f) := by
  refine Cluster.SameArray.trans h ?_
  by_cases hd : c = d
  · subst hd
    rw [State.cl_mod_same]
    exact hf _
  · rw [State.cl_mod_other _ _ _ _ hd]
    exact .refl _

theorem State.SameArray.of_cls {u : State} (e : u.cls = t.cls) : State.SameArray c s u := by
  have : u.cl c = t.cl c := by rw [State.cl, e, State.cl]
  rwa [State.SameArray, this]

theorem State.SameArray.ite {p : Prop} [Decidable p] {u : State} (h' : State.SameArray c s u) :
    State.SameArray c s (if p then t else u) := by
  split
  · exact h
  · exact h'

theorem State.SameArray.foldl {α : Type} {l : List α} {f : State → α → State}
    (hf : ∀ u a, State.SameArray c s u → State.SameArray c s (f u a)) : State.SameArray c s (l.foldl f t) :=
  List.foldlRecOn l f h fun u hu a _ => hf u a hu

theorem State.SameArray.cinc {off n : Nat} (ho : off ≠ CL_Q_ROUTE := by decide) : State.SameArray c s (t.cinc d off n) :=
  .ite h (h.mod fun k => (Cluster.SameArray.refl k).w ho)

theorem State.SameArray.ccap {off v val : Nat} (ho : off ≠ CL_Q_ROUTE := by decide) :
    State.SameArray c s (t.ccap d off v val) := h.mod fun k => (Cluster.SameArray.refl k).w ho

theorem State.SameArray.dinc {a n : Nat} : State.SameArray c s (t.dinc a n) := .ite h (h.of_cls rfl)

theorem State.SameArray.logErr {e : ErrRec} : State.SameArray c s (t.logErr e) :=
  h.of_cls ((State.Tells.refl (fun _ => True) t).logErr fun _ _ => trivial).cls

theorem State.SameArray.irq {n : Nat} : State.SameArray c s (t.irq d n) := h.mod

/-! #### Words met by the array (R162, R163, R267, R268) -/

theorem State.SameArray.tileUe {r n : Nat} : State.SameArray c s (t.tileUe d r n) := by
  unfold State.tileUe
  extract_lets poisoned counted logged
  have told : State.SameArray c s logged := (h.mod fun k => (Cluster.SameArray.refl k).setTile).cinc.logErr
  exact .ite h (.ite told.irq told)

theorem State.SameArray.tileEcc {r : Nat} {e : Ecc} : State.SameArray c s (t.tileEcc d r e) := by
  cases e with
  | clean => exact h
  | corrected w => exact h.cinc
  | uncorrectable w =>
    refine h.mod fun k => .ite ?_ (.ite ?_ ?_) <;> exact .setTile (.refl k)

theorem State.SameArray.spEcc {e : Ecc} : State.SameArray c s (t.spEcc d e) := by
  cases e with
  | clean => exact h
  | corrected w => exact h.cinc.mod
  | uncorrectable w => exact h.mod

theorem State.SameArray.spEncounters {port : Nat} {ws : List Nat} : State.SameArray c s (t.spEncounters d port ws) :=
  h.foldl fun _ _ hu => hu.cinc.ccap.logErr

/-! #### The rest of a step (R209, R325) -/

theorem State.SameArray.countStep : State.SameArray c s (t.countStep d) :=
  h.cinc.cinc.cinc.cinc.cinc.cinc.cinc.cinc.dinc

theorem State.SameArray.vectorStep : State.SameArray c s (t.vectorStep d) := h.mod

theorem State.SameArray.strmStep {slot : Nat} : State.SameArray c s (t.strmStep d slot) := by
  dsimp only [State.strmStep]
  split
  · exact h
  · refine .mod ?_
    split
    · split
      · exact h.cinc
      · exact h
    · exact h

end

theorem State.vectorStreams_sameArray (s : State) (c : Cl) :
    s.SameArray c ((List.range 8).foldl (fun s n => s.strmStep c n) (s.vectorStep c)) :=
  (State.SameArray.refl c s).vectorStep.foldl fun _ _ hu => hu.strmStep

/-! #### A frozen step (R112) -/

section
variable {s : State} {c : Cl}

theorem State.arrayStep_of_frozen {sl : Option Slip} {ecc : Ecc} (h : (s.cl c).backpressure = true ∨ (s.cl c).starved = true) :
    ∃ ctr, ctr ≠ CL_Q_ROUTE ∧ s.arrayStep c sl ecc = s.frozenStep c ctr := by
  unfold State.arrayStep
  split_ifs with hbp hst
  · exact ⟨_, by decide, rfl⟩
  · exact ⟨_, by decide, rfl⟩
  · exact absurd h (by simp [hbp, hst])

theorem State.frozenStep_arr (s : State) (c : Cl) {ctr : Nat} (hc : ctr ≠ CL_Q_ROUTE) :
    ((s.frozenStep c ctr).cl c).arr = { (s.cl c).arr.passStep with frozen := true } := by
  rw [State.frozenStep, State.arr_eq, State.cl_mod_same, ((State.SameArray.refl c s).cinc hc).arr]

theorem State.frozenStep_steps (s : State) (c : Cl) {ctr : Nat} (hc : ctr ≠ CL_Q_ROUTE) :
    ((s.frozenStep c ctr).cl c).steps = (s.cl c).steps := by
  rw [State.frozenStep, State.arr_eq, State.cl_mod_same, ((State.SameArray.refl c s).cinc hc).steps]

theorem execArrayPipelineStep_of_frozen {sl : Option Slip} {ecc : Ecc} (hready : (s.cl c).stepReady = true)
    (h : (s.cl c).backpressure = true ∨ (s.cl c).starved = true) :
    ∃ t, execArrayPipelineStep c sl ecc s = .next t ∧ (t.cl c).arr = { (s.cl c).arr.passStep with frozen := true }
      ∧ (t.cl c).steps = (s.cl c).steps + 1 := by
  have counted := (State.SameArray.refl c s).countStep (d := c)
  rw [← counted.backpressure, ← counted.starved] at h
  obtain ⟨ctr, hc, hstep⟩ := State.arrayStep_of_frozen (sl := sl) (ecc := ecc) h
  have rest := ((s.countStep c).frozenStep c ctr).vectorStreams_sameArray c
  simp only [execArrayPipelineStep, hready, if_true, hstep]
  refine ⟨_, rfl, ?_, ?_⟩
  · rw [State.cl_mod_same, rest.arr, State.frozenStep_arr _ _ hc, counted.arr]
  · rw [State.cl_mod_same, rest.steps, State.frozenStep_steps _ _ hc, counted.steps]

end

end Sys2Proof.Machine
end

/-! ### Loads, rows, pushes and completed runs -/

section
namespace Sys2Proof.Machine

/-! #### Rows of a tile.ld (R149 to R151) -/

theorem State.ldRead_k (s : State) (c : Cl) (l : TileLd) (k : Nat) : (s.ldRead c l k).1.k = k := by
  unfold State.ldRead
  extract_lets x n sb a sa own
  split_ifs <;> rfl

/-- Row r of load l is written, and counted. -/
def State.ldWrite (s : State) (c : Cl) (l : TileLd) (r : LdRow) : State :=
  (s.mod c (fun k => (k.putTileRow l.t (l.first + r.k) r.bytes).putTileScales l.t (l.first + r.k) r.sc)).cinc c
    CL_TILE_CNT_LDROWS 1

theorem State.ldWrite_tiles (s : State) (c : Cl) (l : TileLd) (r : LdRow) : ((s.ldWrite c l r).cl c).tiles
    = (((s.cl c).putTileRow l.t (l.first + r.k) r.bytes).putTileScales l.t (l.first + r.k) r.sc).tiles := by
  rw [State.ldWrite, State.cinc_eq, State.mod_mod, State.cl_mod_same]
  split_ifs <;> rfl

/-- R150: a row that came back well is written, and the rows after it follow. -/
theorem State.ldCommit_row (s : State) (c : Cl) {l : TileLd} {r : LdRow} (fuel : Nat) (hmore : l.done ≠ l.count)
    (hback : l.back.find? (fun r => r.k == l.done) = some r) (hok : r.cause = 0) :
    s.ldCommit c l (fuel + 1) = (s.ldWrite c l r).ldCommit c
      { l with done := l.done + 1, back := l.back.filter (fun y => y.k ≠ r.k) } fuel := by
  simp only [State.ldCommit, State.ldWrite, hmore, hback, hok, ne_eq, not_true_eq_false, if_false]

theorem State.ldCommit_done (s : State) (c : Cl) {l : TileLd} (fuel : Nat) (hdone : l.done = l.count) :
    s.ldCommit c l (fuel + 1) = (s, none) := by
  rw [State.ldCommit, if_pos hdone]

/-- R151: the last row of a load is written, and ends it. -/
theorem State.ldCommit_last (s : State) (c : Cl) {l : TileLd} {r : LdRow} (hback : l.back = [r]) (hk : r.k = l.done)
    (hok : r.cause = 0) (hlast : l.done + 1 = l.count) :
    s.ldCommit c l (l.count + 1) = (s.ldWrite c l r, none) := by
  have hfound : l.back.find? (fun r => r.k == l.done) = some r := by simp [hback, hk]
  rw [State.ldCommit_row s c _ (by omega) hfound hok, ← hlast]
  exact State.ldCommit_done _ _ _ rfl

theorem execTileLdRowArrive_last {s u : State} {c : Cl} {row : Nat} {l : TileLd} {r : LdRow}
    (hl : (ldsOpen (s.cl c).lds).find? (fun l => decide (l.first ≤ row) && l.issuedRow (row - l.first)) = some l)
    (hr : s.ldRead c l (row - l.first) = (r, u)) (hok : r.cause = 0) (hback : l.back = []) (hdone : row - l.first = l.done)
    (hlast : l.done + 1 = l.count) :
    ∃ t, execTileLdRowArrive c row s = .next t ∧ (∀ y ∈ (t.cl c).lds, y.tk ≠ l.tk)
      ∧ (t.cl c).tiles = (((u.cl c).putTileRow l.t row r.bytes).putTileScales l.t row r.sc).tiles := by
  have hfirst : l.first ≤ row := by
    have := List.find?_some hl
    simp only [Bool.and_eq_true, decide_eq_true_eq] at this
    exact this.1
  have hk : r.k = row - l.first := by rw [← State.ldRead_k s c l (row - l.first), hr]
  have hrow : l.first + r.k = row := by omega
  have commit := State.ldCommit_last u c (l := { l with back := l.back ++ [r] }) (by simp [hback]) (hk.trans hdone) hok hlast
  dsimp only at commit
  simp only [execTileLdRowArrive, hl, hr, commit]
  refine ⟨_, rfl, ?_, ?_⟩
  · intro y hy
    rw [State.cl_mod_same] at hy
    obtain ⟨z, -, hz⟩ := List.mem_flatMap.1 hy
    split_ifs at hz with htk
    · cases hz
    · obtain rfl := List.mem_singleton.1 hz
      exact htk
  · rw [State.progressed_eq, State.cl_mod_same, State.cl_mod_same]
    simpa only [hrow] using u.ldWrite_tiles c { l with back := l.back ++ [r] } r

/-! #### Loads of the array (R89, R111) -/

section
variable {s : State} {c : Cl}

/-- A transfer of a tile without a poisoned word copies it as it stands. -/
theorem execMxLoadTransferStart_clean {l : MxLoad} (hl : (s.cl c).arr.startable = some l)
    (hdata : ((s.cl c).tile l.t).badData = []) (hscale : ((s.cl c).tile l.t).badScale = [])
    (hpair : ((s.cl c).tile (l.t + 1)).badData = []) :
    execMxLoadTransferStart c .clean s = .next (s.arr c (fun a => { a with
      loads := a.loads.map (fun y => if y.tk = l.tk then { y with started := some 0, tile :=
        ⟨true, l.fmt, l.pack, l.rep, false, l.tk, ((s.cl c).tileCopy l.t).1, ((s.cl c).tileCopy l.t).2⟩ } else y) })) := by
  simp [execMxLoadTransferStart, hl, State.tileEcc, State.tileUe, hdata, hscale, hpair]

theorem MxArray.setStore_active (a : MxArray) (i : Nat) (x : Store) : (a.setStore i x).active = a.active := by
  unfold MxArray.setStore
  split_ifs <;> rfl

/-- R89: the transferred tile stands in the shadow store, and the active one is as before. -/
theorem MxArray.store_setStore_shadow (a : MxArray) (x : Store) (h : a.active < 2) :
    (a.setStore a.shadow x).store a.shadow = x ∧ (a.setStore a.shadow x).store a.active = a.store a.active := by
  obtain h0 | h1 : a.active = 0 ∨ a.active = 1 := by omega
  · simp [MxArray.setStore, MxArray.store, MxArray.shadow, h0]
  · simp [MxArray.setStore, MxArray.store, MxArray.shadow, h1]

theorem execMxLoadComplete_spec {l : MxLoad} {ls : List MxLoad} {n : Nat} (hl : (s.cl c).arr.loads = l :: ls)
    (hn : l.started = some n) (hmoved : loadKib l.fmt + 4 ≤ n) :
    ∃ t, execMxLoadComplete c s = .next t ∧ s.within t c ∧ (t.cl c).arr.loads = ls
      ∧ (t.cl c).arr.active = (s.cl c).arr.active
      ∧ ((s.cl c).arr.active < 2 → (t.cl c).arr.store (s.cl c).arr.shadow = l.tile
          ∧ (t.cl c).arr.store (s.cl c).arr.active = (s.cl c).arr.store (s.cl c).arr.active) := by
  simp only [execMxLoadComplete, hl, hn, whenever, decide_eq_true hmoved, if_true, State.progressed_eq, State.arr_eq,
    State.mod_mod]
  refine ⟨_, rfl, s.within_mod c _, ?_⟩
  rw [State.cl_mod_same]
  exact ⟨congrArg List.tail hl, MxArray.setStore_active .., MxArray.store_setStore_shadow (s.cl c).arr l.tile⟩

/-! #### Rows enter (R98, R108) -/

/-- Rows that enter join the flights as one, whichever store or queue they touch besides. -/
theorem State.admitRows_spec (s : State) (c : Cl) (r : MxRun) (ecc : Ecc) :
    ∃ rows, rows.length = r.nextRows.length
      ∧ ((s.admitRows c r ecc).cl c).arr.flights = (s.cl c).arr.flights ++ [⟨r.tk, r.admitted, 0, rows, [], []⟩]
      ∧ ((s.admitRows c r ecc).cl c).arr.admitted = some (rampCost r.fmt) := by
  unfold State.admitRows
  extract_lets js fresh s1 k rows s2 s3
  have h1 : s.SameArray c s1 := by
    unfold s1
    split
    · exact (State.SameArray.refl c s).spEcc
    · exact (State.SameArray.refl c s).tileEcc.tileUe
  have h3 : s.SameArray c s3 := h1.spEncounters.cinc
  refine ⟨rows.map (·.1), by simp [rows, js], ?_⟩
  rw [State.arr_eq, State.cl_mod_same, h3.arr]
  dsimp only
  -- Whether the handle of the buffer becomes due, and whether the stores swap, the flights are the same.
  split <;> split <;> exact ⟨rfl, rfl⟩

theorem execArrayRowAdmit_spec {r : MxRun} {ecc : Ecc} (hr : (s.cl c).admissible = some r) :
    ∃ t rows, execArrayRowAdmit c ecc s = .next t ∧ rows.length = r.nextRows.length
      ∧ (t.cl c).arr.flights = (s.cl c).arr.flights ++ [⟨r.tk, r.admitted, 0, rows, [], []⟩]
      ∧ (t.cl c).arr.admitted = some (rampCost r.fmt) := by
  obtain ⟨rows, hlength, hflights, hadmitted⟩ := s.admitRows_spec c r ecc
  simp only [execArrayRowAdmit, hr]
  exact ⟨_, rows, rfl, hlength, hflights, hadmitted⟩

/-! #### Pushes and completed runs (R95, R107, R110, R112) -/

theorem State.pushQ_of_no_signal (s : State) (c : Cl) {n : Nat} (e : HEntry)
    (hsig : bit (s.cr c CL_Q_SIG) (8 * n + 6) = false) :
    s.pushQ c n e = s.mod c (fun k => k.setQueue n (k.queue n ++ [e])) := by
  obtain ⟨hq, heq⟩ := (s.cl c).setQueue_eq n ((s.cl c).queue n ++ [e])
  have same : (s.mod c (fun k => k.setQueue n (k.queue n ++ [e]))).cr c CL_Q_SIG = s.cr c CL_Q_SIG := by
    rw [State.cr, State.cl_mod_same, heq]
    rfl
  simp only [State.pushQ, same, hsig, Bool.false_eq_true, if_false]

theorem execArrayHandlePush_result {w : BitVec 32} {ps : List ArrPush} (hps : (s.cl c).arr.pushes = .result w :: ps)
    (hroom : (s.cl c).resq.length < 8) :
    execArrayHandlePush c s = .next (s.mod c (fun k => { k with
      resq := k.resq ++ [w], arr := { k.arr with pushes := k.arr.pushes.tail } })) := by
  have hpush : (s.cl c).pushRoom = true := by simp [Cluster.pushRoom, hps, hroom]
  simp [execArrayHandlePush, hpush, hps]

theorem execArrayHandlePush_handle {h : HEntry} {ps : List ArrPush} (hps : (s.cl c).arr.pushes = .handle h :: ps)
    (hroom : (s.cl c).room ((s.cl c).port 1) = true) (hsig : bit (s.cr c CL_Q_SIG) (8 * (s.cl c).port 1 + 6) = false) :
    execArrayHandlePush c s = .next ((s.mod c (fun k => k.setQueue ((s.cl c).port 1) (k.queue ((s.cl c).port 1) ++ [h]))).arr c
      (fun a => { a with pushes := a.pushes.tail })) := by
  have hpush : (s.cl c).pushRoom = true := by simp [Cluster.pushRoom, hps, hroom]
  simp only [execArrayHandlePush, hpush, hps, Bool.true_eq_false, if_false, State.pushQ_of_no_signal _ _ _ hsig]

theorem execRunComplete_spec {r : MxRun} (hr : (s.cl c).arr.completable = some r) :
    ∃ t, execRunComplete c s = .next t ∧ s.within t c ∧ (t.cl c).arr.runs = (s.cl c).arr.runs.tail
      ∧ (t.cl c).arr.lastRun = r.num ∧ (t.cl c).arr.pushes = (s.cl c).arr.pushes ++ [.result r.result]
      ∧ (t.cl c).arr.peak = if r.count = 0 then (s.cl c).arr.peak else (s.cl c).arr.peak.join r.peak := by
  simp only [execRunComplete, hr, State.progressed_eq, State.arr_eq, State.mod_mod]
  refine ⟨_, rfl, s.within_mod c _, ?_⟩
  rw [State.cl_mod_same]
  exact ⟨rfl, rfl, rfl, rfl⟩

end

/-- Settles O16: a frozen step by what every other part of a step leaves of the array; the last row of a load by what its
commit writes; the others by the one change of the array that each makes. -/
theorem arrayPipelineSteps : Obligations.ArrayPipelineSteps := by
  refine ⟨fun s c row l r u => execTileLdRowArrive_last, ?_, fun s c l ls n => execMxLoadComplete_spec,
    fun s c r ecc => execArrayRowAdmit_spec, ?_, ?_, ?_, fun s c r => execRunComplete_spec⟩
  · intro s c l hl hdata hscale hpair
    refine ⟨_, execMxLoadTransferStart_clean hl hdata hscale hpair, s.within_mod c _, ?_⟩
    rw [State.arr_eq, State.cl_mod_same]
  · intro s c sl ecc hready h
    obtain ⟨t, ht, harr, hsteps⟩ := execArrayPipelineStep_of_frozen (sl := sl) (ecc := ecc) hready h
    refine ⟨t, ht, ?_⟩
    rw [harr]
    exact ⟨rfl, rfl, rfl, rfl, hsteps⟩
  · intro s c w ps hps hroom
    refine ⟨_, execArrayHandlePush_result hps hroom, s.within_mod c _, ?_⟩
    rw [State.cl_mod_same]
    exact ⟨rfl, rfl, congrArg List.tail hps⟩
  · intro s c h ps hps hroom hsig
    obtain ⟨hq, heq⟩ := (s.cl c).setQueue_eq ((s.cl c).port 1) ((s.cl c).queue ((s.cl c).port 1) ++ [h])
    have pushed := (s.cl c).queue_setQueue_same ((s.cl c).queue ((s.cl c).port 1) ++ [h]) ((s.cl c).port_lt 1)
    refine ⟨_, execArrayHandlePush_handle hps hroom hsig, (s.within_mod c _).trans (State.within_mod _ c _), ?_⟩
    rw [State.arr_eq, State.mod_mod, State.cl_mod_same]
    refine ⟨?_, ?_, pushed⟩
    · rw [heq]
    · rw [heq]
      exact congrArg List.tail hps

end Sys2Proof.Machine
end

/-! ### What starting and ending launches leaves alone -/

section
/-! Counters, reports, caches, watches and the pairing of an understudy end no command, keep no record of ended launches, and give
no cluster a launch; those that stop no core leave it running for its owner with its operands. `State.Minds` says so, and is
carried along the operations as `State.Tells` is. -/

namespace Sys2Proof.Machine

/-- The core's mode, the owner and the operands that a launch gives are as before. -/
structure Cluster.SamePost (k j : Cluster) : Prop where
  mode : j.core.mode = k.core.mode
  owner : j.owner = k.owner
  seed : j.r CL_VX_SEED = k.r CL_VX_SEED
  arg : j.r CL_CORE_ARG = k.r CL_CORE_ARG

theorem Cluster.SamePost.refl (k : Cluster) : k.SamePost k := ⟨rfl, rfl, rfl, rfl⟩

theorem Cluster.SamePost.trans {k j i : Cluster} (h : k.SamePost j) (h' : j.SamePost i) : k.SamePost i :=
  ⟨h'.mode.trans h.mode, h'.owner.trans h.owner, h'.seed.trans h.seed, h'.arg.trans h.arg⟩

theorem Cluster.SamePost.w {k j : Cluster} (h : k.SamePost j) {off v : Nat} (hs : off ≠ CL_VX_SEED := by decide)
    (ha : off ≠ CL_CORE_ARG := by decide) : k.SamePost (j.w off v) :=
  h.trans ⟨rfl, rfl, Cluster.r_w_other j _ _ _ hs.symm, Cluster.r_w_other j _ _ _ ha.symm⟩

/-- From s to t no command is taken or answered and no launch recorded as ended; the clusters in L hold the launch that they held,
those in P their posts. -/
structure State.Minds (L P : Cl → Prop) (s t : State) : Prop where
  keys : ∀ y, (t.cmds y).map Cmd.key = (s.cmds y).map Cmd.key
  done : ∀ y, (t.cx y).doneL = (s.cx y).doneL
  launch : ∀ c, L c → (t.cl c).launch = (s.cl c).launch
  post : ∀ c, P c → (s.cl c).SamePost (t.cl c)

theorem State.Minds.refl (L P : Cl → Prop) (s : State) : State.Minds L P s s :=
  ⟨fun _ => rfl, fun _ => rfl, fun _ _ => rfl, fun _ _ => .refl _⟩

section
variable {L P : Cl → Prop} {s t : State} (h : State.Minds L P s t)
include h

theorem State.Minds.trans {u : State} (h' : State.Minds L P t u) : State.Minds L P s u :=
  ⟨fun y => (h'.keys y).trans (h.keys y), fun y => (h'.done y).trans (h.done y),
    fun c hc => (h'.launch c hc).trans (h.launch c hc), fun c hc => (h.post c hc).trans (h'.post c hc)⟩

/-- A state with the same clusters and contexts. -/
theorem State.Minds.frame {u : State} (hc : u.cls = t.cls := by exact rfl) (hx : u.ctx = t.ctx := by exact rfl) :
    State.Minds L P s u := by
  have hcl : ∀ c, u.cl c = t.cl c := fun c => by simp only [State.cl, hc]
  have hcx : ∀ y, u.cx y = t.cx y := fun y => by simp only [State.cx, hx]
  refine h.trans ⟨fun y => ?_, fun y => ?_, fun c _ => ?_, fun c _ => ?_⟩
  · rw [State.cmds, hcx, State.cmds]
  · rw [hcx]
  · rw [hcl]
  · rw [hcl]
    exact .refl _

theorem State.Minds.ite {p : Prop} [Decidable p] {u : State} (h' : State.Minds L P s u) :
    State.Minds L P s (if p then t else u) := by
  split
  · exact h
  · exact h'

theorem State.Minds.foldl {α : Type} {l : List α} {f : State → α → State}
    (hf : ∀ u a, State.Minds L P s u → State.Minds L P s (f u a)) : State.Minds L P s (l.foldl f t) :=
  List.foldlRecOn l f h fun u hu a _ => hf u a hu

theorem State.Minds.mod_cl {c : Cl} {f : Cluster → Cluster} (hl : L c → (f (t.cl c)).launch = (t.cl c).launch)
    (hp : P c → (t.cl c).SamePost (f (t.cl c))) : State.Minds L P s (t.mod c f) := by
  refine h.trans ⟨fun _ => rfl, fun _ => rfl, fun d hd => ?_, fun d hd => ?_⟩
  · by_cases hdc : d = c
    · subst hdc
      rw [State.cl_mod_same, hl hd]
    · rw [State.cl_mod_other _ _ _ _ hdc]
  · by_cases hdc : d = c
    · subst hdc
      rw [State.cl_mod_same]
      exact hp hd
    · rw [State.cl_mod_other _ _ _ _ hdc]
      exact .refl _

theorem State.Minds.mod {c : Cl} {f : Cluster → Cluster} (hl : ∀ k, (f k).launch = k.launch := by exact fun _ => rfl)
    (hp : ∀ k : Cluster, k.SamePost (f k) := by exact fun _ => ⟨rfl, rfl, rfl, rfl⟩) : State.Minds L P s (t.mod c f) :=
  h.mod_cl (fun _ => hl _) fun _ => hp _

theorem State.Minds.modN {n : Nat} {f : Cluster → Cluster} (hl : ∀ k, (f k).launch = k.launch := by exact fun _ => rfl)
    (hp : ∀ k : Cluster, k.SamePost (f k) := by exact fun _ => ⟨rfl, rfl, rfl, rfl⟩) : State.Minds L P s (t.modN n f) := by
  unfold State.modN
  split
  · exact h.mod hl hp
  · exact h

theorem State.Minds.modCx {x : Nat} {f : CtxSt → CtxSt}
    (hk : ∀ z, (f z).cmds.map Cmd.key = z.cmds.map Cmd.key := by exact fun _ => rfl)
    (hd : ∀ z, (f z).doneL = z.doneL := by exact fun _ => rfl) : State.Minds L P s (t.modCx x f) := by
  have hcx : ∀ y, (t.modCx x f).cx y = t.cx y ∨ (t.modCx x f).cx y = f (t.cx y) := fun y => by
    by_cases hy : y = x
    · subst hy
      by_cases hlt : y < 16
      · exact .inr (State.cx_modCx_same _ _ _ hlt)
      · left
        simp [State.cx, hlt]
    · exact .inl (State.cx_modCx_other _ _ _ _ hy)
  refine h.trans ⟨fun y => ?_, fun y => ?_, fun c _ => ?_, fun c _ => ?_⟩
  · unfold State.cmds
    obtain e | e := hcx y
    · rw [e]
    · rw [e, hk]
  · obtain e | e := hcx y
    · rw [e]
    · rw [e, hd]
  · simp [State.cl]
  · simpa [State.cl] using Cluster.SamePost.refl _

theorem State.Minds.modPort {p : Nat} {f : PortSt → PortSt} : State.Minds L P s (t.modPort p f) := h.frame (by simp) (by simp)

/-! #### Registers and counters -/

theorem State.Minds.dw {a v : Nat} : State.Minds L P s (t.dw a v) := h.frame

theorem State.Minds.dwf {a hi lo v : Nat} : State.Minds L P s (t.dwf a hi lo v) := h.dw

theorem State.Minds.dinc {a n : Nat} : State.Minds L P s (t.dinc a n) := .ite h h.dw

theorem State.Minds.dcap {a v val : Nat} : State.Minds L P s (t.dcap a v val) := .ite h.dwf h.dw

theorem State.Minds.cinc {c : Cl} {off n : Nat} (hs : off ≠ CL_VX_SEED := by decide) (ha : off ≠ CL_CORE_ARG := by decide) :
    State.Minds L P s (t.cinc c off n) := .ite h (h.mod (hp := fun _ => (Cluster.SamePost.refl _).w hs ha))

/-! #### Reports -/

theorem State.Minds.hostWrite {fn a : Nat} {bs : List Byte} : State.Minds L P s (t.hostWrite fn a bs) := .ite h.frame h.frame

theorem State.Minds.msixSend {fn v : Nat} : State.Minds L P s (t.msixSend fn v) := .ite (.ite h.frame h.frame) h.frame

theorem State.Minds.msix {x v : Nat} : State.Minds L P s (t.msix x v) := by
  dsimp only [State.msix]
  refine .ite h.msixSend ?_
  split
  · exact h.modCx
  · exact h.modCx.msixSend

theorem State.Minds.eventPut {x kind status time : Nat} {payload : List Byte} :
    State.Minds L P s (t.eventPut x kind status time payload) := h.hostWrite.dwf.modCx.dinc.msix

theorem State.Minds.event {x kind status time : Nat} {payload : List Byte} :
    State.Minds L P s (t.event x kind status time payload) :=
  .ite h.dinc (.ite h.modCx.dinc (.ite h.eventPut (.ite h.eventPut.modCx.eventPut h.eventPut.modCx.modCx.dinc)))

theorem State.Minds.putErr {e : ErrRec} {time count : Nat} : State.Minds L P s (t.putErr e time count) :=
  (State.Minds.frame h).event

theorem State.Minds.logErr {e : ErrRec} : State.Minds L P s (t.logErr e) :=
  .ite h.dinc (.ite h.dinc.putErr (.ite h.dinc.frame h.dinc.putErr.frame))

theorem State.Minds.sendMgmt {dst : Nat} {msg : List Byte} : State.Minds L P s (t.sendMgmt dst msg) := by
  dsimp only [State.sendMgmt]
  split
  · exact h.dinc.logErr
  · exact h.foldl fun _ _ hu => hu.modPort

theorem State.Minds.writeReply {x op status seq tag chip : Nat} {noirq : Bool} {result : List Byte} {conts : List (List Byte)} :
    State.Minds L P s (t.writeReply x op status seq tag chip noirq result conts) := by
  unfold State.writeReply
  extract_lets i logn phase s1 s2 s3 s4 s5
  have h1 : State.Minds L P s s1 := h.foldl fun _ _ hu => hu.hostWrite
  have h2 : State.Minds L P s s2 := .ite h1.hostWrite h1.frame
  have h5 : State.Minds L P s s5 := h2.dwf.dinc.dinc
  exact .ite h (.ite h5 h5.msix)

theorem State.Minds.answer {x : Nat} {k : Cmd} {status : Nat} {result : List Byte} {conts : List (List Byte)} :
    State.Minds L P s (t.answer x k status result conts) := by
  unfold State.answer
  split
  · exact h.sendMgmt
  · exact .ite h h.writeReply

/-! #### Watches and cues (R384) -/

theorem State.Minds.countCue {cue : Word} {wscope : Nat} {sc : Option Nat} : State.Minds L P s (t.countCue cue wscope sc) := by
  unfold State.countCue
  extract_lets n s1 s2
  have h1 : State.Minds L P s s1 := .ite h.dinc h
  have h2 : State.Minds L P s s2 := .ite h1.dinc h1
  split
  · exact .ite h2.dinc h2
  · exact h2

theorem State.Minds.sendCue {d : CueDest} {w : Word} : State.Minds L P s (t.sendCue d w) := h.frame

theorem State.Minds.evalSlot {c : Cl} {n : Nat} {ab : Bool} {sc : Option Nat} {i : Fin 16} :
    State.Minds L P s (t.evalSlot c n ab sc i) := by
  unfold State.evalSlot
  split
  · refine .ite ?_ h
    split
    · exact h.mod.sendCue.countCue
    · exact h
  · exact h

theorem State.Minds.evalWait {c : Cl} {n : Nat} {ab : Bool} {sc : Option Nat} : State.Minds L P s (t.evalWait c n ab sc) := by
  unfold State.evalWait
  split
  · refine .ite ?_ h
    split
    · exact h.mod.sendCue.countCue
    · exact h
  · exact h

theorem State.Minds.abandonLocal {c : Cl} : State.Minds L P s (t.abandonLocal c) :=
  h.foldl fun _ _ hu => (hu.foldl fun _ _ hv => hv.evalSlot).evalWait

/-! #### HBM and the cluster caches (R350) -/

theorem State.Minds.hbmWrite {a : Nat} {bs : List Byte} : State.Minds L P s (t.hbmWrite a bs) := by
  have hcl : ∀ c, ((t.hbmWrite a bs).cl c).launch = (t.cl c).launch ∧ (t.cl c).SamePost ((t.hbmWrite a bs).cl c) := fun c => by
    simp only [State.hbmWrite, State.breakResv, State.cl, Vector.getElem_map]
    split
    · split
      · exact ⟨rfl, rfl, rfl, rfl, rfl⟩
      · exact ⟨rfl, .refl _⟩
    · exact ⟨rfl, .refl _⟩
  exact h.trans ⟨fun _ => rfl, fun _ => rfl, fun c _ => (hcl c).1, fun c _ => (hcl c).2⟩

theorem State.Minds.stkErr {a cause : Nat} : State.Minds L P s (t.stkErr a cause) := by
  unfold State.stkErr
  exact h.dcap.logErr

theorem State.Minds.hbmPoison {w : Nat} : State.Minds L P s (t.hbmPoison w) := .ite h.frame h.hbmWrite.dinc.stkErr

theorem State.Minds.ccPut {c : Cl} {l : CLine} : State.Minds L P s (t.ccPut c l) := by
  unfold State.ccPut
  split
  · exact h.cinc.foldl fun _ _ hu => .ite (.ite hu.hbmWrite.hbmPoison hu.hbmWrite) hu
  · exact h.cinc

theorem State.Minds.ccClean {c : Cl} {l : CLine} : State.Minds L P s (t.ccClean c l) := .ite h h.ccPut.mod

theorem State.Minds.ccFlush {c : Cl} : State.Minds L P s (t.ccFlush c) := h.foldl fun _ _ hu => hu.ccClean

theorem State.Minds.ccInv {c : Cl} {p : CLine → Bool} : State.Minds L P s (t.ccInv c p) :=
  h.foldl fun _ _ hu => (State.Minds.ite hu.ccClean.cinc hu.ccClean).mod.cinc

/-! #### Clusters that pass, are stopped or launched (R166, R167, R247, R251) -/

theorem State.Minds.dropInject {c : Cl} : State.Minds L P s (t.dropInject c) :=
  .ite (.ite h.frame (.ite h (.ite h.frame h.frame))) h

theorem State.Minds.clearHalt {c : Cl} : State.Minds L P s (t.clearHalt c) := by
  unfold State.clearHalt State.core
  exact (h.mod (hp := fun _ => (Cluster.SamePost.refl _).w)).mod

theorem State.Minds.clearDebug {c : Cl} : State.Minds L P s (t.clearDebug c) := h.clearHalt.mod.dw.dwf

theorem State.Minds.dropWatches {c : Cl} : State.Minds L P s (t.dropWatches c) := h.frame

theorem State.Minds.beforeWipe {c : Cl} : State.Minds L P s (t.beforeWipe c) :=
  h.ccFlush.abandonLocal.dropWatches.dropInject.clearDebug

theorem State.Minds.passCluster {c : Cl} {x : Nat} (hl : L c → (t.cl c).launch = none) (hp : ¬ P c) :
    State.Minds L P s (t.passCluster c x) := by
  have hb : State.Minds (fun _ => True) P t (t.beforeWipe c) := (State.Minds.refl _ _ t).beforeWipe
  exact h.beforeWipe.mod_cl (fun hc => ((hb.launch c trivial).trans (hl hc)).symm) fun hc => absurd hc hp

theorem State.Minds.noteEnd {c : Cl} {e : KEnd} : State.Minds L P s (t.noteEnd c e) := by
  unfold State.noteEnd
  split
  · exact h
  · refine h.modCx fun z => ?_
    rw [List.map_map]
    refine List.map_congr_left fun k _ => ?_
    dsimp only [Function.comp_apply]
    split <;> rfl

theorem State.Minds.stopCore {c : Cl} (hp : ¬ P c) : State.Minds L P s (t.stopCore c) := by
  have hc : State.Minds L P s (t.mod c fun k => k.wf CL_CORE_CTRL 0 0 0) := h.mod (hp := fun _ => (Cluster.SamePost.refl _).w)
  unfold State.stopCore State.core
  exact hc.mod_cl (fun _ => rfl) fun hc => absurd hc hp

theorem State.Minds.stopKernel {c : Cl} {status : Nat} (hp : ¬ P c) : State.Minds L P s (t.stopKernel c status) :=
  .ite h (h.noteEnd.stopCore hp).mod

theorem State.Minds.modCmd {x : Nat} {k : Cmd} {f : Cmd → Cmd} (hf : ∀ j : Cmd, (f j).key = j.key := by exact fun _ => rfl) :
    State.Minds L P s (t.modCmd x k f) := h.modCx fun _ => map_updFirst hf _

theorem State.Minds.endLaunch {x : Nat} {k : Cmd} {why : CmdEnd} {status : Nat} (hp : ∀ c, ¬ P c) :
    State.Minds L P s (t.endLaunch x k why status) := (h.foldl fun _ c hu => hu.stopKernel (hp c)).modCmd

/-! #### Bytes that the firmware writes (R518, R522) -/

theorem State.Minds.fwWrite {x a : Nat} {bs : List Byte} : State.Minds L P s (t.fwWrite x a bs) := by
  unfold State.fwWrite
  split
  · refine h.foldl fun _ _ hu => ?_
    split
    · exact hu.hbmWrite
    · exact hu
  · refine h.modN (hp := fun k => ⟨?_, rfl, rfl, rfl⟩)
    unfold Cluster.spWrite
    extract_lets hit
    cases hit <;> rfl
  · exact h.hostWrite
  · exact h

theorem State.Minds.writeBills {x : Nat} {k : Cmd} {incomplete : Bool} : State.Minds L P s (t.writeBills x k incomplete) :=
  .ite (h.foldl fun _ _ hu => hu.fwWrite.dinc) h

/-! #### The understudy's part in the end of a launch (R534 to R537) -/

theorem State.Minds.usCapture {r : UsRec} {kind : Nat} : State.Minds L P s (t.usCapture r kind) := by
  unfold State.usCapture
  extract_lets s1 s2
  have h2 : State.Minds L P s s2 := h.dw.dw.dw
  exact .ite h.dwf (.ite h2.frame.sendMgmt h2)

theorem State.Minds.usHalt (hp : ∀ c, ¬ P c) : State.Minds L P s t.usHalt :=
  .ite (h.foldl fun _ _ hu => hu.endLaunch hp) h

theorem State.Minds.diverge {r : UsRec} {kind : Nat} (hp : ∀ c, ¬ P c) : State.Minds L P s (t.diverge r kind) := by
  unfold State.diverge
  extract_lets s1 first s2 s3 s4 d
  have h2 : State.Minds L P s s2 := h.dinc.usCapture.modCx fun z => by
    rw [List.map_map]
    rfl
  exact (State.Minds.ite h2.dwf.event.logErr h2).usHalt hp

theorem State.Minds.usLaunchEnd {x : Nat} (hp : ∀ c, ¬ P c) : State.Minds L P s (t.usLaunchEnd x) := by
  refine .ite ?_ h
  extract_lets s1
  have h1 : State.Minds L P s s1 := h.sendMgmt
  split
  · refine h1.frame.foldl fun _ _ hu => ?_
    split
    · exact hu.diverge hp
    · exact hu
  · exact h1

/-! #### Free clusters and quotas (R570) -/

theorem State.Minds.assign (hp : ∀ c, ¬ P c) : State.Minds L P s t.assign := by
  refine h.foldl fun u c hu => ?_
  dsimp only
  split
  · next hfree =>
    have hn : (u.cl c).launch.isNone = true := by
      have hf := hfree.2.1
      simp only [Cluster.free, Bool.and_eq_true] at hf
      exact hf.1.1.1
    exact hu.passCluster (fun _ => Option.isNone_iff_eq_none.mp hn) (hp c)
  · exact hu

theorem State.Minds.settleQuota {x : Nat} : State.Minds L P s (t.settleQuota x) := .ite h h.modCx.event

end

end Sys2Proof.Machine
end

/-! ### The start and the end of a launch -/

section
namespace Sys2Proof.Machine

open Claims

/-! #### Lists -/

theorem mem_amIns_self {α : Type} (m : List (Nat × α)) (k : Nat) (v : α) : (k, v) ∈ amIns m k v := by
  induction m with
  | nil => exact List.mem_singleton_self _
  | cons e m ih =>
    obtain ⟨j, u⟩ := e
    simp only [amIns]
    split_ifs
    · exact List.mem_cons_self
    · exact List.mem_cons_self
    · exact List.mem_cons_of_mem _ ih

/-- The change of the first element that satisfies p stands in the list. -/
theorem exists_mem_updFirst {α : Type} {p : α → Bool} {q : α → Prop} {f : α → α} {l : List α} (h : ∃ a ∈ l, p a = true)
    (hf : ∀ a, p a = true → q (f a)) : ∃ b ∈ updFirst p f l, q b := by
  induction l with
  | nil => simp at h
  | cons a l ih =>
    simp only [updFirst]
    split
    · next ha => exact ⟨f a, List.mem_cons_self, hf a ha⟩
    · next ha =>
      obtain ⟨b, hb, hp⟩ := h
      obtain rfl | hb := List.mem_cons.mp hb
      · exact absurd hp ha
      · obtain ⟨c, hc, hq⟩ := ih ⟨b, hb, hp⟩
        exact ⟨c, List.mem_cons_of_mem _ hc, hq⟩

theorem mem_dropFirst {α : Type} {p : α → Bool} {a : α} {l : List α} (h : a ∈ l) (ha : p a = false) : a ∈ dropFirst p l := by
  induction l with
  | nil => exact h
  | cons b l ih =>
    simp only [dropFirst]
    obtain rfl | hm := List.mem_cons.mp h
    · rw [if_neg (by simp [ha])]
      exact List.mem_cons_self
    · split
      · exact hm
      · exact List.mem_cons_of_mem _ (ih hm)

section
variable {α : Type} {p q : α → Bool} {f : α → α} (hq : ∀ a, q (f a) = q a)
include hq

/-- A search that does not see the change finds none where it found none. -/
theorem find?_updFirst_none {l : List α} (h : l.find? q = none) : (updFirst p f l).find? q = none := by
  rw [List.find?_eq_none] at h ⊢
  intro a ha
  have hm : q a ∈ l.map q := map_updFirst (p := p) hq l ▸ List.mem_map_of_mem ha
  obtain ⟨b, hb, he⟩ := List.mem_map.mp hm
  exact he ▸ h b hb

/-- It finds what it found, where that is not what is changed. -/
theorem find?_updFirst_some {l : List α} {b : α} (h : l.find? q = some b) (hb : p b = false) :
    (updFirst p f l).find? q = some b := by
  induction l with
  | nil => cases h
  | cons a l ih =>
    rw [List.find?_cons] at h
    simp only [updFirst]
    cases hqa : q a with
    | true =>
      simp only [hqa, Option.some.injEq] at h
      subst h
      rw [if_neg (by simp [hb]), List.find?_cons, hqa]
    | false =>
      simp only [hqa] at h
      split
      · rw [List.find?_cons, hq, hqa]
        exact h
      · rw [List.find?_cons, hqa]
        exact ih h

end

/-- What each step of a fold brings about for its own element, and the others leave, holds of every element at the end. -/
theorem forall_mem_foldl {α σ : Type} {f : σ → α → σ} {q : α → σ → Prop} {l : List α} (hown : ∀ u, ∀ a ∈ l, q a (f u a))
    (hothers : ∀ u a, ∀ b ∈ l, q a u → q a (f u b)) (s : σ) : ∀ a ∈ l, q a (l.foldl f s) := by
  induction l generalizing s with
  | nil => simp
  | cons b l ih =>
    intro a ha
    rw [List.foldl_cons]
    obtain rfl | ha := List.mem_cons.mp ha
    · exact List.foldlRecOn l f (hown s a List.mem_cons_self) fun u hu c hc => hothers u a c (List.mem_cons_of_mem _ hc) hu
    · exact ih (fun u c hc => hown u c (List.mem_cons_of_mem _ hc))
        (fun u c d hd => hothers u c d (List.mem_cons_of_mem _ hd)) _ a ha

theorem length_upFrom (lo n : Nat) : (upFrom lo n).length = n := by
  induction n generalizing lo with
  | zero => rfl
  | succ n ih => exact congrArg Nat.succ (ih _)

theorem mem_allCl (c : Cl) : c ∈ allCl := by
  refine List.mem_filterMap.mpr ⟨c.val, List.mem_range.mpr c.isLt, ?_⟩
  simp [toCl]

theorem State.mem_launchCls {s : State} {x : Nat} {k : Cmd} {c : Cl} :
    c ∈ s.launchCls x k ↔ (s.cl c).launch = some (x, k.seq) := by
  simp [State.launchCls, mem_allCl]

/-! #### Commands in flight -/

theorem Cmd.same_refl (k : Cmd) : k.same k = true := (Cmd.same_iff k k).mpr rfl

/-- Of two commands that are not the same, none is both. -/
theorem Cmd.same_false_of_same {i j k : Cmd} (h : j.same k = false) (hi : i.same j = true) : i.same k = false := by
  rw [Bool.eq_false_iff, Ne, Cmd.same_iff] at h ⊢
  rw [Cmd.same_iff] at hi
  rwa [hi]

theorem exists_same_of_keys {s t : State} {x : Nat} {k : Cmd} (h : (t.cmds x).map Cmd.key = (s.cmds x).map Cmd.key)
    (hk : k ∈ s.cmds x) : ∃ j ∈ t.cmds x, j.same k = true := by
  have hm : k.key ∈ (t.cmds x).map Cmd.key := h ▸ List.mem_map_of_mem hk
  obtain ⟨j, hj, he⟩ := List.mem_map.mp hm
  exact ⟨j, hj, (Cmd.same_iff j k).mpr he⟩

theorem State.cmds_modCmd_same (s : State) {x : Nat} (hx : x < 16) (k : Cmd) (f : Cmd → Cmd) :
    (s.modCmd x k f).cmds x = updFirst (fun j => j.same k) f (s.cmds x) :=
  congrArg CtxSt.cmds (State.cx_modCx_same s x _ hx)

theorem mem_of_findCmd {s : State} {x : Ctx} {seq op : Nat} {k : Cmd} (h : s.findCmd x seq op = some k) : k ∈ s.cmds x.val :=
  List.mem_of_find?_eq_some h

theorem mem_of_launchNamed {s : State} {x : Nat} {k j : Cmd} (h : s.launchNamed x k = some j) : j ∈ s.cmds x :=
  List.mem_of_find?_eq_some h

theorem State.started_launchNamed_none {s : State} {x : Nat} (hx : x < 16) {k : Cmd} (h : s.launchNamed x k = none) :
    (s.started x k).launchNamed x k = none := by
  unfold State.launchNamed
  rw [State.started, State.cmds_modCmd_same s hx]
  exact find?_updFirst_none (f := fun j => { j with started := true }) (fun _ => rfl) h

theorem State.started_launchNamed_some {s : State} {x : Nat} (hx : x < 16) {k j : Cmd} (h : s.launchNamed x k = some j)
    (hj : j.same k = false) : (s.started x k).launchNamed x k = some j := by
  unfold State.launchNamed
  rw [State.started, State.cmds_modCmd_same s hx]
  exact find?_updFirst_some (p := fun j => j.same k) (f := fun j => { j with started := true }) (fun _ => rfl) h hj

theorem State.started_cl (s : State) (x : Nat) (k : Cmd) (c : Cl) : (s.started x k).cl c = s.cl c := by
  simp only [State.cl, (s.started_leaves (fun _ => False) x k).cls]

/-- A command that is due and changes its context no further stays in flight as started. -/
theorem begins_of_ctx {s t : State} {x : Ctx} {op : Nat} {k : Cmd} (h : Due s x op k) (ht : t.ctx = (s.started x.val k).ctx) :
    (t.cmds x.val).length = (s.cmds x.val).length ∧ ∃ j ∈ t.cmds x.val, j.same k = true ∧ j.started = true := by
  have hc : t.cmds x.val = updFirst (fun j => j.same k) (fun j => { j with started := true }) (s.cmds x.val) := by
    rw [← State.cmds_modCmd_same s x.isLt]
    simp only [State.cmds, State.cx, ht, State.started]
  rw [hc]
  exact ⟨updFirst_length _ _ _, exists_mem_updFirst ⟨k, mem_of_due h, k.same_refl⟩ fun _ hj => ⟨hj, rfl⟩⟩

theorem State.reply_cl (s : State) (x : Nat) (k : Cmd) (st : Nat) (r : List Byte) (conts : List (List Byte)) (c : Cl) :
    (s.reply x k st r conts).cl c = s.cl c := by
  simp only [State.cl, (s.reply_leaves x k st r conts).cls]

/-- A reply records no launch as ended. -/
theorem State.reply_doneL (s : State) (x : Nat) (k : Cmd) (st : Nat) (r : List Byte) (conts : List (List Byte)) (y : Nat) :
    ((s.reply x k st r conts).cx y).doneL = (s.cx y).doneL := by
  have ha := ((State.Minds.refl (fun _ => False) (fun _ => False) (s.dropCmd x k)).answer (x := x) (k := k) (status := st)
    (result := r) (conts := conts)).done y
  refine ha.trans ?_
  unfold State.dropCmd
  by_cases hy : y = x
  · subst hy
    by_cases hlt : y < 16
    · rw [State.cx_modCx_same _ _ _ hlt]
    · simp [State.cx, hlt]
  · rw [State.cx_modCx_other _ _ _ _ hy]

/-! #### LAUNCH (R577, R578) -/

theorem State.started_inSpace (s : State) (x : Nat) (k : Cmd) (y a n : Nat) : (s.started x k).inSpace y a n = s.inSpace y a n := by
  obtain ⟨ctx, ht⟩ := s.started_eq x k
  have hwin : ∀ b m, (s.started x k).inHostWin y b m = s.inHostWin y b m := fun b m => by
    obtain ⟨cmds, hc, -⟩ := s.started_cx x y k
    unfold State.inHostWin
    rw [hc, ht]
    rfl
  unfold State.inSpace
  simp only [hwin]
  rw [ht]
  rfl

theorem State.started_launchSpace (s : State) (x y : Nat) (k j : Cmd) : (s.started x k).launchSpace y j = s.launchSpace y j := by
  have hchip : (s.started x k).chip = s.chip := by
    obtain ⟨ctx, ht⟩ := s.started_eq x k
    rw [ht]
    rfl
  unfold State.launchSpace State.cmdSpace State.stackIn
  simp only [State.started_inSpace, hchip]

theorem execLaunch_spec (x : Ctx) :
    Begins (.launch x) x 0x0401 (fun s k => 0 < k.f 32 8 ∧ Fits (s.badLaunch x.val k) ∧ s.launchSpace x.val k = true
      ∧ ∀ c ∈ k.mask, bit (s.cx x.val).quota.clmask c.val = true) OnlyAnswers := by
  intro s k h ⟨hpos, hfit, hspace, hmask⟩
  have hquota : k.mask.all (fun c => bit ((s.started x.val k).cx x.val).quota.clmask c.val) = true := by
    obtain ⟨cmds, hc, -⟩ := s.started_cx x.val x.val k
    rw [hc]
    exact List.all_eq_true.mpr hmask
  have he : exec (.launch x) s = .next (s.started x.val k) := by
    change execLaunch x s = _
    unfold execLaunch
    rw [opcodeRow_of_due (zero := fun k => k.f 32 8 == 0) h (beq_false_of_ne (Nat.ne_of_gt hpos)) hfit]
    refine congrArg Host.Outcome.next ?_
    rw [if_neg (by simp [hquota]), if_neg (by simp [State.started_launchSpace, hspace])]
  obtain ⟨hlen, hj⟩ := begins_of_ctx h rfl
  exact ⟨_, he, hlen, hj, (s.started_leaves (fun _ => False) x.val k).onlyAnswers k⟩

/-! #### The start (R247, R248, R518) -/

/-- Cluster j is k with its program entered: the launch and the operands are as they were, and the core runs. -/
structure Cluster.Entered (k j : Cluster) : Prop where
  launch : j.launch = k.launch
  mode : j.core.mode = .running
  owner : j.owner = k.owner
  seed : j.r CL_VX_SEED = k.r CL_VX_SEED
  arg : j.r CL_CORE_ARG = k.r CL_CORE_ARG

section
variable {k j : Cluster} (h : k.Entered j)
include h

theorem Cluster.Entered.w {off v : Nat} (hs : off ≠ CL_VX_SEED := by decide) (ha : off ≠ CL_CORE_ARG := by decide) :
    k.Entered (j.w off v) :=
  ⟨h.launch, h.mode, h.owner, (Cluster.r_w_other j _ _ _ hs.symm).trans h.seed, (Cluster.r_w_other j _ _ _ ha.symm).trans h.arg⟩

theorem Cluster.Entered.launchProps : k.Entered j.launchProps := by
  refine List.foldlRecOn _ _ h fun i hi n _ => ?_
  dsimp only
  split
  · exact hi
  · exact hi.w (by simp only [CL_PROP, CL_VX_SEED]; omega) (by simp only [CL_PROP, CL_CORE_ARG]; omega)

theorem Cluster.Entered.frame {misses : List Miss} {hangAt : Nat} {hung : Bool} : k.Entered { j with misses, hangAt, hung } :=
  ⟨h.launch, h.mode, h.owner, h.seed, h.arg⟩

end

theorem Cluster.entry_entered (k : Cluster) : k.Entered k.entry := by
  unfold Cluster.entry
  extract_lets l x0 x1 core0 core k1 clr k2
  have h1 : k.Entered k1 := ⟨rfl, rfl, rfl, rfl, rfl⟩
  have h2 : k.Entered k2 := h1.w.w.w.w.w.w.w
  exact h2.launchProps.w

theorem State.launchCore_eq (s : State) (c : Cl) : ∃ (sy : SyncUnit) (misses : Cluster → List Miss),
    s.launchCore c = ({ s.ccInv c (fun _ => true) with sy } : State).mod c fun k =>
      { k.entry with misses := misses k, hangAt := (s.ccInv c fun _ => true).timebase, hung := false } := by
  unfold State.launchCore
  extract_lets s1 mine sy0 sy store keep
  rw [State.progressed_eq, State.mod_mod]
  exact ⟨sy, fun k => (k.misses.map keep).filter (fun m => !m.uses.isEmpty), rfl⟩

theorem State.launchCore_entered (s : State) (c : Cl) : (s.cl c).Entered ((s.launchCore c).cl c) := by
  have hi := (State.Minds.refl (fun _ => True) (fun _ => True) s).ccInv (c := c) (p := fun _ => true)
  obtain ⟨sy, misses, he⟩ := s.launchCore_eq c
  have hk : ({ s.ccInv c (fun _ => true) with sy } : State).cl c = (s.ccInv c fun _ => true).cl c := rfl
  rw [he, State.cl_mod_same, hk]
  obtain ⟨hl, hm, ho, hs, ha⟩ := ((s.ccInv c fun _ => true).cl c).entry_entered.frame
    (misses := misses ((s.ccInv c fun _ => true).cl c)) (hangAt := (s.ccInv c fun _ => true).timebase) (hung := false)
  have hp := hi.post c trivial
  exact ⟨hl.trans (hi.launch c trivial), hm, ho.trans hp.owner, hs.trans hp.seed, ha.trans hp.arg⟩

/-- Cluster c runs launch k of context x. -/
structure State.RunsOn (t : State) (x : Nat) (k : Cmd) (c : Cl) : Prop where
  launch : (t.cl c).launch = some (x, k.seq)
  mode : (t.cl c).core.mode = .running
  owner : (t.cl c).owner = x
  seed : (t.cl c).r CL_VX_SEED = k.f 72 8
  arg : (t.cl c).r CL_CORE_ARG = k.f 40 8

section
variable {L P : Cl → Prop} {s t : State}

theorem State.RunsOn.of_minds {x : Nat} {k : Cmd} {c : Cl} (h : t.RunsOn x k c) {u : State} (h' : State.Minds L P t u) (hl : L c)
    (hp : P c) : u.RunsOn x k c :=
  ⟨(h'.launch c hl).trans h.launch, (h'.post c hp).mode.trans h.mode, (h'.post c hp).owner.trans h.owner,
    (h'.post c hp).seed.trans h.seed, (h'.post c hp).arg.trans h.arg⟩

theorem State.Minds.launchCore (h : State.Minds L P s t) {c : Cl} (hp : ¬ P c) : State.Minds L P s (t.launchCore c) := by
  obtain ⟨sy, misses, he⟩ := t.launchCore_eq c
  have h1 : State.Minds L P s { t.ccInv c (fun _ => true) with sy } := h.ccInv.frame
  rw [he]
  exact h1.mod_cl (fun _ => ((Cluster.entry_entered _).frame).launch) fun hc => absurd hc hp

theorem State.Minds.startOn (h : State.Minds L P s t) {x : Nat} {k : Cmd} {c : Cl} {n : Nat} (hl : ¬ L c) (hp : ¬ P c) :
    State.Minds L P s (t.startOn x k c n) := by
  unfold State.startOn
  extract_lets s1 entry s2
  have h1 : State.Minds L P s s1 := .ite h (h.passCluster (fun hc => absurd hc hl) hp)
  have h2 : State.Minds L P s s2 := h1.mod_cl (fun hc => absurd hc hl) fun hc => absurd hc hp
  exact h2.launchCore hp

end

/-- Cluster k with the operands of launch j of context x. -/
def Cluster.given (k : Cluster) (x : Nat) (j : Cmd) (entry lindex stack : Nat) : Cluster :=
  { (((((k.w CL_VX_SEED (j.f 72 8)).w CL_CORE_ENTRY entry).w CL_CORE_ARG (j.f 40 8)).w CL_CORE_LAUNCH lindex).w CL_CORE_STACK
      stack) with launch := some (x, j.seq), flags := 0 }

section
variable (k : Cluster) (x : Nat) (j : Cmd) (entry lindex stack : Nat)

theorem Cluster.given_launch : (k.given x j entry lindex stack).launch = some (x, j.seq) := rfl

theorem Cluster.given_owner : (k.given x j entry lindex stack).owner = k.owner := by
  unfold Cluster.given
  simp only [Cluster.w_owner]

theorem Cluster.given_seed : (k.given x j entry lindex stack).r CL_VX_SEED = j.f 72 8 := by
  refine (Cluster.r_w_other _ CL_CORE_STACK _ _ (by decide)).trans ?_
  rw [Cluster.r_w_other _ CL_CORE_LAUNCH _ _ (by decide), Cluster.r_w_other _ CL_CORE_ARG _ _ (by decide),
    Cluster.r_w_other _ CL_CORE_ENTRY _ _ (by decide), Cluster.r_w_same]
  exact Nat.mod_eq_of_lt (j.f_lt 72 8)

theorem Cluster.given_arg : (k.given x j entry lindex stack).r CL_CORE_ARG = j.f 40 8 := by
  refine (Cluster.r_w_other _ CL_CORE_STACK _ _ (by decide)).trans ?_
  rw [Cluster.r_w_other _ CL_CORE_LAUNCH _ _ (by decide), Cluster.r_w_same]
  exact Nat.mod_eq_of_lt (j.f_lt 40 8)

end

theorem State.startOn_runsOn (s : State) (x : Nat) (k : Cmd) (c : Cl) (n : Nat) : (s.startOn x k c n).RunsOn x k c := by
  unfold State.startOn
  extract_lets s1 entry s2
  have hown : (s1.cl c).owner = x := by
    unfold s1
    split
    · assumption
    · rw [State.passCluster, State.cl_mod_same]
      rfl
  have h2 : s2.cl c = (s1.cl c).given x k entry (n + place 31 16 k.mask.length) (k.stack n) := by
    unfold s2
    rw [State.cl_mod_same]
    rfl
  obtain ⟨hl, hm, ho, hs, ha⟩ := s2.launchCore_entered c
  rw [h2] at hl ho hs ha
  rw [Cluster.given_launch] at hl
  rw [Cluster.given_owner, hown] at ho
  rw [Cluster.given_seed] at hs
  rw [Cluster.given_arg] at ha
  exact ⟨hl, hm, ho, hs, ha⟩

/-- A launch starts: it runs, and each of its clusters runs it. -/
theorem State.startLaunch_spec {s : State} {x : Nat} (hx : x < 16) {k : Cmd} (hk : k ∈ s.cmds x) :
    (∃ j ∈ (s.startLaunch x k).cmds x, j.same k = true ∧ j.running = true)
      ∧ ∀ c ∈ k.mask, (s.startLaunch x k).RunsOn x k c := by
  unfold State.startLaunch
  extract_lets s1 s2
  have h1 : State.Minds (fun _ => False) (fun _ => False) s s1 := (State.Minds.refl _ _ s).fwWrite
  have h2 : State.Minds (fun _ => False) (fun _ => False) s s2 := h1.foldl fun _ _ hu => hu.startOn id id
  refine ⟨?_, fun c hc => ?_⟩
  · rw [State.cmds_modCmd_same _ hx]
    exact exists_mem_updFirst (exists_same_of_keys (h2.keys x) hk) fun _ hj => ⟨hj, rfl⟩
  · have hruns : ∀ p ∈ (upFrom 0 k.mask.length).zip k.mask, s2.RunsOn x k p.2 := by
      refine forall_mem_foldl (q := fun (p : Nat × Cl) (u : State) => u.RunsOn x k p.2)
        (fun u p _ => u.startOn_runsOn x k p.2 p.1) (fun u p r _ hp => ?_) s1
      by_cases hpr : r.2 = p.2
      · rw [← hpr]
        exact u.startOn_runsOn x k r.2 r.1
      · exact hp.of_minds ((State.Minds.refl (· = p.2) (· = p.2) u).startOn hpr hpr) rfl rfl
    rw [← List.map_snd_zip (l₁ := upFrom 0 k.mask.length) (l₂ := k.mask) (Nat.le_of_eq (length_upFrom _ _).symm)] at hc
    obtain ⟨p, hp, rfl⟩ := List.mem_map.mp hc
    exact (hruns p hp).of_minds ((State.Minds.refl (fun _ => True) (fun _ => True) s2).modCmd) trivial trivial

theorem execLaunchStart_spec {s : State} {x : Ctx} {sq : BitVec 32} {k : Cmd} (hf : s.findCmd x sq.toNat 0x0401 = some k)
    (hrun : k.running = false) (hbefore : s.launchBefore x.val k = false) (hswap : s.swapDue x.val k = false)
    (htake : ∀ c ∈ k.mask, s.canTakeKernel x.val c = true) (hpage : s.absentPage x.val (k.f 40 8) 64 = none) :
    ∃ t, exec (.launchStart x sq) s = .next t ∧ (∃ j ∈ t.cmds x.val, j.same k = true ∧ j.running = true)
      ∧ ∀ c ∈ k.mask, (t.cl c).launch = some (x.val, k.seq) ∧ (t.cl c).core.mode = .running ∧ (t.cl c).owner = x.val
          ∧ (t.cl c).r CL_VX_SEED = k.f 72 8 ∧ (t.cl c).r CL_CORE_ARG = k.f 40 8 := by
  have hall : k.mask.all (fun c => s.canTakeKernel x.val c) = true := List.all_eq_true.mpr htake
  have he : exec (.launchStart x sq) s = .next (s.startLaunch x.val k) := by
    change execLaunchStart x sq s = _
    unfold execLaunchStart
    simp only [hf, hrun, hbefore, hswap, hall, hpage, Bool.or_false, Bool.not_true, Bool.false_eq_true, if_false]
  obtain ⟨hj, hc⟩ := State.startLaunch_spec x.isLt (mem_of_findCmd hf)
  exact ⟨_, he, hj, fun c hm => ⟨(hc c hm).launch, (hc c hm).mode, (hc c hm).owner, (hc c hm).seed, (hc c hm).arg⟩⟩

/-! #### The end (R522, R579) -/

theorem State.replyLaunch_eq (s : State) (x : Nat) (k : Cmd) (strms : List (Nat × EndedStrm)) :
    ∃ st r conts, s.replyLaunch x k strms = s.reply x k st r conts := by
  dsimp only [State.replyLaunch]
  split
  · exact ⟨_, _, _, rfl⟩
  · exact ⟨_, _, _, rfl⟩
  · exact ⟨_, _, _, rfl⟩
  · exact ⟨_, _, _, rfl⟩
  · exact ⟨_, _, _, rfl⟩

/-- The clusters of a list hold no launch any more. -/
def State.freed (s : State) (l : List Cl) : State := l.foldl (fun s c => s.mod c fun j => { j with launch := none }) s

theorem State.freed_ctx (s : State) (l : List Cl) : (s.freed l).ctx = s.ctx :=
  List.foldlRecOn (motive := fun u : State => u.ctx = s.ctx) _ _ rfl fun _ hu _ _ => hu

/-- Once every cluster that holds a launch is freed, none holds it. -/
theorem State.freed_launch {s : State} {l : List Cl} {v : Nat × Nat} (h : ∀ c, (s.cl c).launch = some v → c ∈ l) (c : Cl) :
    ((s.freed l).cl c).launch ≠ some v := by
  have hothers : ∀ (u : State) (a b : Cl), (u.cl a).launch ≠ some v →
      ((u.mod b fun j => { j with launch := none }).cl a).launch ≠ some v := fun u a b hu => by
    by_cases hab : a = b
    · subst hab
      simp
    · rwa [State.cl_mod_other _ _ _ _ hab]
  by_cases hc : c ∈ l
  · exact forall_mem_foldl (q := fun (c : Cl) (u : State) => (u.cl c).launch ≠ some v) (fun u a _ => by simp)
      (fun u a b _ hu => hothers u a b hu) s c hc
  · exact List.foldlRecOn (motive := fun u : State => (u.cl c).launch ≠ some v) _ _ (fun e => hc (h c e))
      fun u hu b _ => hothers u c b hu

/-- A launch that completes leaves the commands in flight, its exits are kept, and no cluster holds it. -/
theorem State.finishLaunch_spec {s : State} {x : Nat} (hx : x < 16) {k : Cmd} (hk : k ∈ s.cmds x) :
    ((s.finishLaunch x k).cmds x).length + 1 = (s.cmds x).length ∧ (k.seq, k.exits) ∈ ((s.finishLaunch x k).cx x).doneL
      ∧ ∀ c, ((s.finishLaunch x k).cl c).launch ≠ some (x, k.seq) := by
  unfold State.finishLaunch
  extract_lets k' cs s1 bad s2 s3 s4 s5
  have h2 : State.Minds (fun _ => True) (fun _ => False) s s2 :=
    ((State.Minds.refl _ _ s).foldl fun _ _ hu => hu.ccFlush).writeBills
  obtain ⟨st, r, conts, h3⟩ := s2.replyLaunch_eq x k' (s2.endedStrms x k')
  replace h3 : s3 = s2.reply x k' st r conts := h3
  have hcs : ∀ c, (s3.cl c).launch = some (x, k.seq) → c ∈ cs := fun c hc => by
    rw [h3, State.reply_cl, h2.launch c trivial] at hc
    exact State.mem_launchCls.mpr hc
  have hctx : s4.ctx = s3.ctx := s3.freed_ctx cs
  have hfree : ∀ c, (s4.cl c).launch ≠ some (x, k.seq) := State.freed_launch hcs
  have hlen : (s5.cmds x).length + 1 = (s.cmds x).length := by
    have hc5 : s5.cmds x = s4.cmds x :=
      s4.cmds_modCx_of (f := fun y => { y with doneL := amIns y.doneL k'.seq k'.exits }) (fun _ => rfl) x
    have hc4 : s4.cmds x = s3.cmds x := by simp only [State.cmds, State.cx, hctx]
    have hmem : ∃ j ∈ s2.cmds x, j.same k = true := exists_same_of_keys (h2.keys x) hk
    rw [hc5, hc4, h3, State.reply_cmds hx, length_dropFirst (p := fun j : Cmd => j.same k') hmem]
    simpa using congrArg List.length (h2.keys x)
  have hdone : (k.seq, k.exits) ∈ (s5.cx x).doneL := by
    unfold s5
    rw [State.cx_modCx_same _ _ _ hx]
    exact mem_amIns_self _ _ _
  have hrest : State.Minds (fun _ => True) (fun _ => False) s5 (((s5.usLaunchEnd x).assign).settleQuota x) :=
    (((State.Minds.refl _ _ s5).usLaunchEnd fun _ => id).assign fun _ => id).settleQuota
  refine ⟨?_, ?_, fun c => ?_⟩
  · rw [← hlen]
    simpa using congrArg List.length (hrest.keys x)
  · rwa [hrest.done]
  · rw [hrest.launch c trivial]
    simpa [s5, State.cl] using hfree c

theorem execLaunchComplete_spec {s : State} {x : Ctx} {sq : BitVec 32} {k : Cmd} (hf : s.findCmd x sq.toNat 0x0401 = some k)
    (hrun : k.running = true) (hend : k.allEnded = true)
    (hdone : ∀ c, (s.cl c).launch = some (x.val, k.seq) → s.kernelDone c = true)
    (hpage : ∀ a ∈ k.bills, s.absentPage x.val a 64 = none) :
    ∃ t, exec (.launchComplete x sq) s = .next t ∧ (t.cmds x.val).length + 1 = (s.cmds x.val).length
      ∧ (k.seq, k.exits) ∈ (t.cx x.val).doneL ∧ ∀ c, (t.cl c).launch ≠ some (x.val, k.seq) := by
  have hall : (s.launchCls x.val k).all (fun c => s.kernelDone c) = true :=
    List.all_eq_true.mpr fun c hc => hdone c (State.mem_launchCls.mp hc)
  have hbills : k.bills.findSome? (fun a => s.absentPage x.val a 64) = none := List.findSome?_eq_none_iff.mpr hpage
  have he : exec (.launchComplete x sq) s = .next (s.finishLaunch x.val k) := by
    change execLaunchComplete x sq s = _
    unfold execLaunchComplete
    simp only [hf, hrun, hend, hall, hbills, Bool.or_false, Bool.not_true, Bool.false_eq_true, if_false]
  exact ⟨_, he, State.finishLaunch_spec x.isLt (mem_of_findCmd hf)⟩

/-! #### A launch ended before its time (R251, R579, R580) -/

theorem State.stopKernel_eq (s : State) (c : Cl) (status : Nat) : ∃ ctx cls, s.stopKernel c status = { s with ctx, cls } := by
  have hn : ∀ e, ∃ ctx, s.noteEnd c e = { s with ctx } := fun e => by
    unfold State.noteEnd State.modCx
    split
    · exact ⟨_, rfl⟩
    · split
      · exact ⟨_, rfl⟩
      · exact ⟨_, rfl⟩
  obtain ⟨ctx, hn⟩ := hn { clus := c.val, exited := false, status := status }
  unfold State.stopKernel
  split
  · exact ⟨_, _, rfl⟩
  · rw [hn]
    exact ⟨_, _, rfl⟩

theorem State.endLaunch_eq (s : State) (x : Nat) (k : Cmd) (why : CmdEnd) (status : Nat) :
    ∃ ctx cls, s.endLaunch x k why status = { s with ctx, cls } := by
  have hs : ∃ ctx cls, (s.launchCls x k).foldl (fun s c => s.stopKernel c status) s = { s with ctx, cls } := by
    refine List.foldlRecOn (motive := fun u : State => ∃ ctx cls, u = { s with ctx, cls }) _ _ ⟨_, _, rfl⟩ ?_
    rintro _ ⟨ctx, cls, rfl⟩ c _
    obtain ⟨ctx', cls', he⟩ := State.stopKernel_eq { s with ctx, cls } c status
    exact ⟨ctx', cls', he⟩
  obtain ⟨ctx, cls, hs⟩ := hs
  unfold State.endLaunch State.modCmd State.modCx
  rw [hs]
  split
  · exact ⟨_, _, rfl⟩
  · exact ⟨_, _, rfl⟩

theorem State.endLaunch_serves (s : State) (x y : Nat) (k : Cmd) (why : CmdEnd) (status : Nat) :
    State.Serves x s (s.endLaunch y k why status) := by
  have hm := (State.Minds.refl (fun _ => False) (fun _ => False) s).endLaunch (x := y) (k := k) (why := why) (status := status)
    fun _ => id
  obtain ⟨ctx, cls, he⟩ := s.endLaunch_eq y k why status
  exact ⟨hm.keys x, by rw [he]; rfl, fun a _ => by rw [he]; rfl⟩

theorem State.stopKernel_stopped (s : State) (c : Cl) (status : Nat) : ((s.stopKernel c status).cl c).core.mode = .stopped := by
  unfold State.stopKernel
  split
  · assumption
  · rw [State.cl_mod_same, State.stopCore, State.core_eq, State.cl_mod_same]
    rfl

/-- A launch that is ended is marked, and its clusters are stopped. -/
theorem State.endLaunch_spec {s : State} {x : Nat} (hx : x < 16) {k : Cmd} (hk : k ∈ s.cmds x) {why : CmdEnd} (hw : why ≠ .none)
    (status : Nat) : (∃ j ∈ (s.endLaunch x k why status).cmds x, j.same k = true ∧ j.ended ≠ .none)
      ∧ ∀ c, (s.cl c).launch = some (x, k.seq) → ((s.endLaunch x k why status).cl c).core.mode = .stopped := by
  unfold State.endLaunch
  have hfold : State.Minds (fun _ => False) (fun _ => False) s ((s.launchCls x k).foldl (fun s c => s.stopKernel c status) s) :=
    (State.Minds.refl _ _ s).foldl fun _ _ hu => hu.stopKernel id
  refine ⟨?_, fun c hc => ?_⟩
  · rw [State.cmds_modCmd_same _ hx]
    refine exists_mem_updFirst (exists_same_of_keys (hfold.keys x) hk) fun j hj => ⟨hj, ?_⟩
    dsimp only
    split
    · exact hw
    · assumption
  · have hstop : ∀ c ∈ s.launchCls x k,
        (((s.launchCls x k).foldl (fun s c => s.stopKernel c status) s).cl c).core.mode = .stopped := by
      refine forall_mem_foldl (q := fun (c : Cl) (u : State) => (u.cl c).core.mode = .stopped)
        (fun u c _ => u.stopKernel_stopped c status) (fun u c d _ hu => ?_) s
      by_cases hcd : d = c
      · subst hcd
        exact u.stopKernel_stopped d status
      · exact (((State.Minds.refl (fun _ => False) (· = c) u).stopKernel hcd).post c rfl).mode.trans hu
    have hcmd : ∀ (u : State) (f : Cmd → Cmd), (u.modCmd x k f).cl c = u.cl c := fun u f => by
      simp only [State.cl, State.modCmd, State.modCx_cls]
    rw [hcmd]
    exact hstop c (State.mem_launchCls.mpr hc)

theorem execLaunchTimeout_spec {s : State} {x : Ctx} {sq : BitVec 32} {k : Cmd} {d : Nat}
    (hf : s.findCmd x sq.toNat 0x0401 = some k) (hrun : k.running = true) (hend : k.allEnded = false) (hd : k.deadline = some d)
    (hle : d ≤ s.timebase) :
    ∃ t, exec (.launchTimeout x sq) s = .next t ∧ (∃ j ∈ t.cmds x.val, j.same k = true ∧ j.ended ≠ .none)
      ∧ ∀ c, (s.cl c).launch = some (x.val, k.seq) → (t.cl c).core.mode = .stopped := by
  have he : exec (.launchTimeout x sq) s = .next (s.endLaunch x.val k .timeout TIMEOUT) := by
    change execLaunchTimeout x sq s = _
    unfold execLaunchTimeout
    simp only [hf, hrun, hend, hd, hle, whenever, decide_true, Bool.not_false, Bool.and_self, if_true]
  exact ⟨_, he, State.endLaunch_spec x.isLt (mem_of_findCmd hf) (by simp) TIMEOUT⟩

/-! #### LAUNCH_CANCEL and LAUNCH_QUERY (R566, R580) -/

theorem execLaunchCancel_unknown (x : Ctx) :
    Does (.launchCancel x) x 0x0402 (fun s k => s.launchNamed x.val k = none) OK (fun _ _ _ => leBytes 1 0) OnlyAnswers := by
  intro s k h hn
  have he : exec (.launchCancel x) s = .next ((s.started x.val k).reply x.val k OK (leBytes 1 0)) := by
    change execLaunchCancel x s = _
    unfold execLaunchCancel
    rw [opcodeRow_of_due h rfl fits_nil, State.started_launchNamed_none x.isLt hn]
  exact ⟨_, he, answers_of_tells h (.refl _ _) (by decide) _⟩

section
variable {s : State} {x : Ctx} {k j : Cmd}

theorem execLaunchCancel_running (h : Due s x 0x0402 k) (hn : s.launchNamed x.val k = some j) (hj : j.same k = false)
    (hrun : j.running = true) (hend : j.allEnded = false) :
    ∃ t, exec (.launchCancel x) s = .next t ∧ Answers s t x.val k OK ∧ Carries s t x.val k OK (leBytes 1 1)
      ∧ (∃ y ∈ t.cmds x.val, y.same j = true ∧ y.ended ≠ .none)
      ∧ ∀ c, (s.cl c).launch = some (x.val, j.seq) → (t.cl c).core.mode = .stopped := by
  have hn' := State.started_launchNamed_some x.isLt hn hj
  have he : exec (.launchCancel x) s
      = .next (((s.started x.val k).endLaunch x.val j .cancel ABANDONED).reply x.val k OK (leBytes 1 1)) := by
    change execLaunchCancel x s = _
    unfold execLaunchCancel
    rw [opcodeRow_of_due h rfl fits_nil, hn']
    simp only [hrun, hend, Bool.not_true, Bool.not_false, Bool.and_false, Bool.and_self, Bool.false_eq_true, if_false, if_true]
  obtain ⟨⟨y, hy, hyj, hyend⟩, hstop⟩ :=
    State.endLaunch_spec x.isLt (mem_of_launchNamed hn') (why := .cancel) (by simp) ABANDONED
  have hserve := (s.started_serves x.val x.val k).trans (State.endLaunch_serves _ x.val x.val j .cancel ABANDONED)
  obtain ⟨ha, hc⟩ := hserve.answers x.isLt (mem_of_due h) (st := OK) (by decide) (leBytes 1 1)
  refine ⟨_, he, ha, hc, ⟨y, ?_, hyj, hyend⟩, fun c hl => ?_⟩
  · rw [State.reply_cmds x.isLt]
    exact mem_dropFirst hy (Cmd.same_false_of_same hj hyj)
  · rw [State.reply_cl]
    exact hstop c (by rwa [State.started_cl])

theorem execLaunchCancel_waiting (h : Due s x 0x0402 k) (hn : s.launchNamed x.val k = some j) (hj : j.same k = false)
    (hstart : j.started = true) (hrun : j.running = false) :
    ∃ t, exec (.launchCancel x) s = .next t ∧ (t.cmds x.val).length + 2 = (s.cmds x.val).length
      ∧ (j.seq, 0) ∈ (t.cx x.val).doneL ∧ t.cls = s.cls ∧ t.mem = s.mem := by
  have hn' := State.started_launchNamed_some x.isLt hn hj
  let u : State := (s.started x.val k).modCx x.val fun y => { y with doneL := amIns y.doneL j.seq 0 }
  have he : exec (.launchCancel x) s = .next ((u.replyAbandoned x.val j).reply x.val k OK (leBytes 1 1)) := by
    change execLaunchCancel x s = _
    unfold execLaunchCancel
    rw [opcodeRow_of_due h rfl fits_nil, hn']
    simp only [hstart, hrun, Bool.not_false, Bool.and_self, if_true]
    rfl
  have hu : u.cmds x.val = (s.started x.val k).cmds x.val :=
    State.cmds_modCx_of (f := fun y => { y with doneL := amIns y.doneL j.seq 0 }) (fun _ => rfl) _
  have hl : State.Leaves (fun _ => True) s ((u.replyAbandoned x.val j).reply x.val k OK (leBytes 1 1)) :=
    (((s.started_leaves _ x.val k).modCx).trans (u.reply_leaves x.val j ABANDONED [] _)).trans (State.reply_leaves _ _ _ _ _ _)
  refine ⟨_, he, ?_, ?_, hl.cls, hl.mem⟩
  · obtain ⟨i, hi, hik⟩ := exists_same_of_keys (s.started_serves x.val x.val k).keys (mem_of_due h)
    have hij : i.same j = false := by
      rw [Bool.eq_false_iff, Ne, Cmd.same_iff] at hj ⊢
      rw [Cmd.same_iff] at hik
      exact fun e => hj (e.symm.trans hik)
    have hdrop : ∃ i ∈ dropFirst (fun i => i.same j) ((s.started x.val k).cmds x.val), i.same k = true :=
      ⟨i, mem_dropFirst hi hij, hik⟩
    have hlen : ((s.started x.val k).cmds x.val).length = (s.cmds x.val).length := (begins_of_ctx h rfl).1
    have h1 := length_dropFirst hdrop
    have h2 := length_dropFirst (p := fun i => i.same j) ⟨j, mem_of_launchNamed hn', j.same_refl⟩
    rw [State.reply_cmds x.isLt, State.replyAbandoned, State.reply_cmds x.isLt, hu]
    omega
  · rw [State.reply_doneL, State.replyAbandoned, State.reply_doneL]
    unfold u
    rw [State.cx_modCx_same _ _ _ x.isLt]
    exact mem_amIns_self _ _ _

theorem execLaunchQuery_known (h : Due s x 0x0403 k) (hn : s.launchNamed x.val k = some j) (hj : j.same k = false) :
    ∃ t, exec (.launchQuery x) s = .next t ∧ Answers s t x.val k OK ∧ OnlyAnswers s k t
      ∧ Carries s t x.val k OK (if j.running then leBytes 1 2 ++ leBytes 1 j.exits else leBytes 1 1) := by
  have he : exec (.launchQuery x) s = .next ((s.started x.val k).reply x.val k OK
      (if j.running then leBytes 1 2 ++ leBytes 1 j.exits else leBytes 1 1)) := by
    change execLaunchQuery x s = _
    unfold execLaunchQuery
    rw [opcodeRow_of_due h rfl fits_nil, State.started_launchNamed_some x.isLt hn hj]
  obtain ⟨ha, hc, ho⟩ := answers_of_tells h (.refl _ _) (st := OK) (by decide)
    (if j.running then leBytes 1 2 ++ leBytes 1 j.exits else leBytes 1 1)
  exact ⟨_, he, ha, ho, hc⟩

end

theorem execLaunchQuery_unknown (x : Ctx) :
    Does (.launchQuery x) x 0x0403 (fun s k => s.launchNamed x.val k = none ∧ ∀ e ∈ (s.cx x.val).doneL, e.1 ≠ k.f 16 4) OK
      (fun _ _ _ => leBytes 1 0) OnlyAnswers := by
  intro s k h ⟨hn, hdone⟩
  have hnone : ((s.started x.val k).cx x.val).doneL.find? (fun e => e.1 == k.f 16 4) = none := by
    obtain ⟨cmds, hc, -⟩ := s.started_cx x.val x.val k
    rw [hc]
    exact List.find?_eq_none.mpr fun e he => by simpa using hdone e he
  have he : exec (.launchQuery x) s = .next ((s.started x.val k).reply x.val k OK (leBytes 1 0)) := by
    change execLaunchQuery x s = _
    unfold execLaunchQuery
    rw [opcodeRow_of_due h rfl fits_nil, State.started_launchNamed_none x.isLt hn]
    simp only [hnone]
  exact ⟨_, he, answers_of_tells h (.refl _ _) (by decide) _⟩

end Sys2Proof.Machine
end

/-! ### Passes are commanded -/

section
namespace Sys2Proof.Machine

open Claims

/-! #### A reply with continuation records (R555, R556) -/

/-- The first record of a reply is written last, at the tail of the reply ring. -/
theorem State.writeReply_conts_hostMem {s : State} {x : Nat} (hen : bit (s.dr (cxReg MG_CX_CTRL x)) 0 = true)
    (hm : s.mayMaster x = true) (op status seq tag chip : Nat) (noirq : Bool) (r : List Byte) (conts : List (List Byte)) :
    ∃ mem phase, (s.writeReply x op status seq tag chip noirq r conts).hostMem
      = amSetMany 0 mem (s.replyAddr x (bits (s.dr (cxReg MG_CX_RRHEAD x)) 63 32))
          (replyRec op status seq tag conts.length x chip phase r) := by
  unfold State.writeReply
  rw [if_neg (by simp [hen])]
  extract_lets i logn phase s1 s2 s3 s4 s5
  have h1 : State.Tells (fun _ => False) s s1 := (State.Tells.refl _ s).foldl fun _ _ hu => hu.hostWrite
  have h2 : s2.hostMem = amSetMany 0 s1.hostMem (s.replyAddr x i) (replyRec op status seq tag conts.length x chip phase r) := by
    unfold s2
    rw [State.hostRecord_hostMem (by rw [h1.mayMaster, hm])]
    simp only [State.replyAddr, h1.regs _ id]
  clear_value s2
  have h5 : s5.hostMem = s2.hostMem :=
    (State.dinc_hostMem s4 _ _).trans ((State.dinc_hostMem s3 _ _).trans (State.dw_hostMem s2 _ _))
  clear_value s5
  refine ⟨s1.hostMem, phase, Eq.trans ?_ (h5.trans h2)⟩
  split
  · rfl
  · exact State.msix_hostMem _ _ _

/-- A command that is served is answered by its reply, whatever records continue it. -/
theorem State.Serves.answers_conts {x : Nat} (hx : x < 16) {s t : State} (h : State.Serves x s t) {k : Cmd} (hk : k ∈ s.cmds x)
    {st : Nat} (hst : st < 65536) (hok : st ≠ OK) (r : List Byte) (conts : List (List Byte)) :
    Answers s (t.reply x k st r conts) x k st ∧ Carries s (t.reply x k st r conts) x k st r := by
  have hrec : k.origin = none → bit (s.dr (cxReg MG_CX_CTRL x)) 0 = true → s.mayMaster x = true → ∃ chip phase,
      replyAt s (t.reply x k st r conts) x = replyRec k.op st k.seq (k.f 12 4) conts.length x chip phase r := fun ho hen hm => by
    have hd : State.Leaves (fun _ => False) t (t.dropCmd x k) := (State.Leaves.refl _ t).dropCmd
    have hr : ∀ a, ringReg x a → (t.dropCmd x k).dr a = s.dr a := fun a ha => (hd.regs a id).trans (h.regs a ha)
    have hhead := hr _ (.inr (.inr rfl))
    obtain ⟨mem, phase, hw⟩ := State.writeReply_conts_hostMem (s := t.dropCmd x k) (x := x) (by rw [hr _ (.inl rfl), hen])
      (by rw [hd.mayMaster, h.master, hm]) k.op st k.seq (k.f 12 4) (t.dropCmd x k).chip (k.flag 2) r conts
    refine ⟨(t.dropCmd x k).chip, phase, ?_⟩
    have he : t.reply x k st r conts
        = (t.dropCmd x k).writeReply x k.op st k.seq (k.f 12 4) (t.dropCmd x k).chip (k.flag 2) r conts := by
      unfold State.reply State.answer
      rw [ho]
      exact if_neg (by simp [hok])
    unfold replyAt
    rw [he, hw, hhead]
    simp only [State.replyAddr, hr _ (.inr (.inl rfl))]
    have hl := replyRec_length k.op st k.seq (k.f 12 4) conts.length x (t.dropCmd x k).chip phase r
    exact hl ▸ amGetMany_amSetMany 0 _ _ _
  refine ⟨⟨h.reply_length hx hk st r conts, fun ho hen hm _ => ?_⟩, fun ho hen hm _ => ?_⟩
  · obtain ⟨chip, phase, he⟩ := hrec ho hen hm
    rw [he]
    exact ⟨(replyRec_op ..).trans (Nat.mod_eq_of_lt k.op_lt), (replyRec_status ..).trans (Nat.mod_eq_of_lt hst), replyRec_seq ..⟩
  · obtain ⟨chip, phase, he⟩ := hrec ho hen hm
    rw [he]
    exact replyRec_result ..

/-! #### REVOLVE (R396, R581) -/

theorem State.sendBcast_eq (s : State) (dir remain bop src : Nat) (data : List Byte) :
    ∃ ports, s.sendBcast dir remain bop src data = { s with ports } := by
  unfold State.sendBcast
  split
  · exact ⟨_, rfl⟩
  · split
    · unfold State.enqueue State.modPort
      split
      · exact ⟨_, rfl⟩
      · exact ⟨_, rfl⟩
    · exact ⟨_, rfl⟩

theorem State.broadcast_eq (s : State) (bop : Nat) (data : List Byte) : ∃ ports, s.broadcast bop data = { s with ports } := by
  obtain ⟨ports, h1⟩ := s.sendBcast_eq 0 (s.startRemain 0) bop s.chip data
  obtain ⟨ports', h2⟩ := State.sendBcast_eq { s with ports } 1 (State.startRemain { s with ports } 1) bop
    (State.chip { s with ports }) data
  refine ⟨ports', Eq.trans ?_ h2⟩
  unfold State.broadcast
  rw [h1]

/-- A release of a curtain other than the layer curtain is sent, and its REL set to be raised. -/
theorem State.release_eq (s : State) {k : Nat} (hk : k ≠ 15) (g : Nat) : ∃ sy ports, s.release k g = { s with sy, ports } := by
  unfold State.release State.applyRelease
  rw [if_neg fun h => hk h.1]
  split
  · exact ⟨_, _, rfl⟩
  · extract_lets sy0 s1 rel s2
    obtain ⟨ports, hb⟩ := s1.broadcast_eq 1 (curtainData k g)
    rw [if_neg fun h : k = 15 ∧ g = s2.rv.pass => hk h.1]
    unfold s2 State.raiseRel State.sendChange
    rw [hb]
    split
    · exact ⟨_, _, rfl⟩
    · exact ⟨_, _, rfl⟩

theorem bits_eq_of_set {w : Nat} (h54 : bit w 54 = true) (h53 : bit w 53 = true) (h52 : bit w 52 = true) : bits w 54 52 = 7 := by
  simp only [bit, beq_iff_eq] at h54 h53 h52
  unfold bits
  omega

/-- With the layer curtain not managed here, holding the central counters against their curtains releases no pass. -/
theorem State.checkCentral_eq {s : State} (h : bits (s.dr (curReg SY_CUR_CFG 15)) 54 52 ≠ 7) :
    ∃ sy ports, s.checkCentral = { s with sy, ports } := by
  unfold State.checkCentral
  refine List.foldlRecOn (motive := fun u : State => ∃ sy ports, u = { s with sy, ports }) _ _ ⟨_, _, rfl⟩ ?_
  rintro _ ⟨sy, ports, rfl⟩ k _
  dsimp only
  split
  · next hcond =>
    have hk : k ≠ 15 := by
      rintro rfl
      simp only [Bool.and_eq_true] at hcond
      obtain ⟨⟨⟨h54, h52⟩, h53⟩, -⟩ := hcond
      exact h (bits_eq_of_set h54 h53 h52)
    refine List.foldlRecOn (motive := fun u : State => ∃ sy ports, u = { s with sy, ports }) _ _ ⟨_, _, rfl⟩ ?_
    rintro _ ⟨sy, ports, rfl⟩ g _
    obtain ⟨sy', ports', he⟩ := State.release_eq { s with sy, ports } hk g
    exact ⟨sy', ports', he⟩
  · exact ⟨_, _, rfl⟩

theorem execRevolve_begins (x : Ctx) :
    Begins (.revolve x) x 0x0404 (fun s k => 0 < k.f 16 4 ∧ k.f 20 4 = s.rv.pass ∧ s.rv.reports = []
      ∧ bits (s.dr (curReg SY_CUR_CFG 15)) 54 52 ≠ 7) (fun s _ t => t.rv = s.rv ∧ t.mem = s.mem ∧ t.pages = s.pages) := by
  intro s k h ⟨hpos, hpass, hrep, hcur⟩
  have hl := s.started_leaves (fun _ => False) x.val k
  have he : exec (.revolve x) s = .next (s.started x.val k).checkCentral := by
    change execRevolve x s = _
    unfold execRevolve
    rw [opcodeRow_of_due (zero := fun k => k.f 16 4 == 0) h (beq_false_of_ne (Nat.ne_of_gt hpos))]
    · rw [hl.rv, hrep]
      rfl
    · intro b hb
      rw [List.mem_singleton.mp hb]
      simp [hpass]
  obtain ⟨sy, ports, hc⟩ := State.checkCentral_eq (s := s.started x.val k) (by rwa [hl.regs _ id])
  obtain ⟨hlen, hj⟩ := begins_of_ctx h (t := (s.started x.val k).checkCentral) (by rw [hc])
  refine ⟨_, he, hlen, hj, ?_⟩
  rw [hc]
  exact ⟨hl.rv, hl.mem, hl.pages⟩

theorem execRevolve_reported {s : State} {k : Cmd} {rep : List Byte} (h : Due s 0 0x0404 k) (hpos : 0 < k.f 16 4)
    (hpass : k.f 20 4 = s.rv.pass) (hrep : s.rv.reports.find? (fun r => fieldB r 4 4 == k.f 20 4) = some rep) :
    ∃ t, exec (.revolve 0) s = .next t ∧ Answers s t 0 k SHARD ∧ Carries s t 0 k SHARD rep ∧ OnlyAnswers s k t := by
  have hl := s.started_leaves (fun _ => True) (0 : Ctx).val k
  have he : exec (.revolve 0) s = .next ((s.started 0 k).reply 0 k SHARD rep ((s.started 0 k).progress k none [])) := by
    change execRevolve 0 s = _
    unfold execRevolve
    rw [opcodeRow_of_due (zero := fun k => k.f 16 4 == 0) h (beq_false_of_ne (Nat.ne_of_gt hpos))]
    · rw [hl.rv, hrep]
      rfl
    · intro b hb
      rw [List.mem_singleton.mp hb]
      simp [hpass]
  obtain ⟨ha, hc⟩ := (s.started_serves 0 0 k).answers_conts (by decide) (mem_of_due h) (st := SHARD) (by decide) (by decide) rep
    ((s.started 0 k).progress k none [])
  exact ⟨_, he, ha, hc, (hl.trans (State.reply_leaves _ _ _ _ _ _)).onlyAnswers k⟩

/-- Settles O35: a launch starts by what entering a kernel sets on each of its clusters and leaves on the others, and ends by what
the firmware's last writes leave of commands and clusters; the others by their replies, REVOLVE by the curtains it may release. -/
theorem launchesAreCommanded : Obligations.LaunchesAreCommanded :=
  ⟨execLaunch_spec, fun _ _ _ _ hf hrun hb hs ht hp => execLaunchStart_spec hf hrun hb hs ht hp,
    fun _ _ _ _ hf hrun hend hd hp => execLaunchComplete_spec hf hrun hend hd hp,
    fun _ _ _ _ _ hf hrun hend hd hle => execLaunchTimeout_spec hf hrun hend hd hle, execLaunchCancel_unknown,
    fun _ _ _ _ h hn hj hrun hend => execLaunchCancel_running h hn hj hrun hend,
    fun _ _ _ _ h hn hj hst hrun => execLaunchCancel_waiting h hn hj hst hrun,
    fun _ _ _ _ h hn hj => execLaunchQuery_known h hn hj, execLaunchQuery_unknown, execRevolve_begins,
    fun _ _ _ h hpos hpass hrep => execRevolve_reported h hpos hpass hrep⟩

end Sys2Proof.Machine
end

/-! ### Vector chains run -/

section
/-! What a chain does to the vector engine is said once for its acceptance, its beats and its end. All that goes with them,
the bytes a beat writes, counters, error records, pushes and their signals, leaves the vector engine as it is. -/

namespace Sys2Proof.Machine
open Claims

/-! #### Changes of a cluster that leave its vector engine alone -/

section
variable {k : Cluster}

theorem Cluster.foldl_vx {α : Type} {l : List α} {f : Cluster → α → Cluster} (hf : ∀ i a, (f i a).vx = i.vx) :
    (l.foldl f k).vx = k.vx :=
  List.foldlRecOn (motive := fun i => i.vx = k.vx) l f rfl fun i hi a _ => (hf i a).trans hi

theorem Cluster.setQueue_vx (n : Nat) (q : List HEntry) : (k.setQueue n q).vx = k.vx := by
  obtain ⟨hq, e⟩ := k.setQueue_eq n q
  rw [e]

theorem Cluster.setTile_vx (t : Nat) (x : Tile) : (k.setTile t x).vx = k.vx := by
  obtain ⟨tiles, e⟩ := k.setTile_eq t x
  rw [e]

theorem Cluster.putTileByte_vx (t o : Nat) (b : Byte) : (k.putTileByte t o b).vx = k.vx := by
  unfold Cluster.putTileByte
  split_ifs <;> exact Cluster.setTile_vx ..

theorem Cluster.putTileElem_vx (t : Nat) (p : Nat × Nat) (code : Nat) : (k.putTileElem t p code).vx = k.vx := by
  unfold Cluster.putTileElem
  extract_lets x sp offs old j used
  have hj : j.vx = k.vx := Cluster.foldl_vx fun _ _ => Cluster.putTileByte_vx ..
  split_ifs
  · exact (Cluster.foldl_vx fun _ _ => Cluster.putTileByte_vx ..).trans hj
  · exact hj

theorem Cluster.clearRead_vx (d : List Byte) (ps : List Idx) : (k.clearRead d ps).vx = k.vx := by
  refine Cluster.foldl_vx fun i a => ?_
  dsimp only
  split_ifs
  · exact Cluster.foldl_vx fun _ _ => rfl
  · rfl

end

/-! #### Acceptance (R182, R204) -/

section
variable {s : State} {c : Cl} {q : QInsn}

theorem Cluster.SameUnits.setQueue {k j : Cluster} (h : k.SameUnits j) {n : Nat} {l : List HEntry} :
    k.SameUnits (j.setQueue n l) := by
  obtain ⟨hq, e⟩ := j.setQueue_eq n l
  rw [e]
  exact ⟨h.core, h.uq, h.sp⟩

theorem Cluster.popChain_sameUnits (k : Cluster) (d : List Byte) : k.SameUnits (k.popChain d) := by
  have hk := Cluster.SameUnits.refl k
  unfold Cluster.popChain
  extract_lets k1 k2
  have h1 : k.SameUnits k1 := .ite hk.setQueue hk
  have h2 : k.SameUnits k2 := .ite h1.setQueue h1
  have h3 : k.SameUnits { k2 with resq := k2.resq.tail } := ⟨h2.core, h2.uq, h2.sp⟩
  exact .ite hk (.ite h3 h2)

theorem Cluster.popChain_vx (k : Cluster) (d : List Byte) : (k.popChain d).vx = k.vx := by
  unfold Cluster.popChain
  split_ifs <;> simp only [Cluster.setQueue_vx]

theorem State.acceptChain_takes (s : State) (c : Cl) (q : QInsn) (d : List Byte) :
    Takes s (s.acceptChain c q d) c .vector q (word (s.cl c).vx.nextChain) := by
  unfold State.acceptChain State.vxm
  exact ((Takes.acceptHead ..).mod (Cluster.popChain_sameUnits _ d)).mod

theorem State.acceptChain_vx (s : State) (c : Cl) (q : QInsn) (d : List Byte) :
    ((s.acceptChain c q d).cl c).vx = { (s.cl c).vx with
      chains := (s.cl c).vx.chains ++ [mkChain s c q d], nextChain := ((s.cl c).vx.nextChain + 1) % 65536 } := by
  simp only [State.acceptChain, State.acceptHead_eq, State.vxm, State.cl_mod_same, Cluster.popChain_vx]
  rfl

theorem execVxChainAccept_pass (hq : (s.cl c).ready .vector 0 = some q) (hus : s.usWaits c = false)
    (hqueues : (s.cl c).queuesReady ((s.cl c).spRead (bits q.rs1.toNat 18 0) 320) = true)
    (hpass : (s.cl c).chainCheck q ((s.cl c).spRead (bits q.rs1.toNat 18 0) 320) = .pass) :
    execVxChainAccept c s = .next (s.acceptChain c q ((s.cl c).spRead (bits q.rs1.toNat 18 0) 320)) := by
  simp only [execVxChainAccept, hq, hus, hqueues, hpass, Bool.not_true, Bool.or_false, Bool.false_eq_true, if_false]

end

/-! #### The chain a beat goes on with (R174, R208) -/

theorem Vx.setChain_setChain (v : Vx) {x y : Chain} (h : y.tk = x.tk) : (v.setChain x).setChain y = v.setChain y := by
  have step : ∀ z : Chain, (if (if z.tk = x.tk then x else z).tk = y.tk then y else if z.tk = x.tk then x else z)
      = if z.tk = y.tk then y else z := fun z => by
    by_cases hz : z.tk = x.tk <;> simp [hz, h]
  simp only [Vx.setChain, List.map_map, Function.comp_def, step]

theorem Vx.mem_setChain {v : Vx} {x y : Chain} (hy : y ∈ v.chains) (h : y.tk = x.tk) : x ∈ (v.setChain x).chains :=
  List.mem_map.2 ⟨y, hy, if_pos h⟩

/-- Beat b' has the same vector engine as b, and its chain is the same one, at the same beat. -/
structure Beat.SameChain (b b' : Beat) : Prop where
  vx : b'.k.vx = b.k.vx
  tk : b'.x.tk = b.x.tk
  desc : b'.x.desc = b.x.desc
  beat : b'.x.beat = b.x.beat

theorem Beat.SameChain.refl (b : Beat) : b.SameChain b := ⟨rfl, rfl, rfl, rfl⟩

theorem Beat.SameChain.trans {a b d : Beat} (h : a.SameChain b) (h' : b.SameChain d) : a.SameChain d :=
  ⟨h'.vx.trans h.vx, h'.tk.trans h.tk, h'.desc.trans h.desc, h'.beat.trans h.beat⟩

section
variable {a b : Beat} (h : a.SameChain b)
include h

theorem Beat.SameChain.ite {p : Prop} [Decidable p] {b' : Beat} (h' : a.SameChain b') :
    a.SameChain (if p then b else b') := by
  split
  · exact h
  · exact h'

theorem Beat.SameChain.foldl {α : Type} {l : List α} {f : Beat → α → Beat}
    (hf : ∀ d e, a.SameChain d → a.SameChain (f d e)) : a.SameChain (l.foldl f b) :=
  List.foldlRecOn l f h fun d hd e _ => hf d e hd

/-- The beat after a change that leaves the vector engine and the chain's place alone. -/
theorem Beat.SameChain.step {b' : Beat} (hk : b'.k.vx = b.k.vx := by exact rfl) (ht : b'.x.tk = b.x.tk := by exact rfl)
    (hd : b'.x.desc = b.x.desc := by exact rfl) (hb : b'.x.beat = b.x.beat := by exact rfl) : a.SameChain b' :=
  h.trans ⟨hk, ht, hd, hb⟩

theorem Beat.SameChain.rowDone {t row : Nat} : a.SameChain (b.rowDone t row) := by
  refine .ite (h.step ?_) h
  dsimp only
  split_ifs <;> simp only [Cluster.setTile_vx]

theorem Beat.SameChain.put {i : Nat} {t : TensorD} {e code : Nat} : a.SameChain (b.put i t e code) :=
  .ite (h.step (Cluster.putTileElem_vx ..)).rowDone h.step

theorem Beat.SameChain.putScale {i : Nat} {t : TensorD} {e scale : Nat} : a.SameChain (b.putScale i t e scale) :=
  .ite (h.step (Cluster.setTile_vx ..)) h.step

theorem Beat.SameChain.putAll {i : Nat} {t : TensorD} {es : List Nat} {r : List Nat × List Conv} :
    a.SameChain (b.putAll i t es r) :=
  ((h.foldl fun _ _ hd => hd.put).foldl fun _ _ hd => hd.putScale).step

theorem Beat.SameChain.flush {t : TensorD} {rows : List Nat} : a.SameChain (b.flush t rows) := h.putAll.step

theorem Beat.SameChain.sink {t : TensorD} {ps : List Idx} {vs : List (Val × Rnd)} {pick : Nat}
    {cv : Fmt → List (Val × Rnd) → List Nat × List Conv} : a.SameChain (b.sink t ps vs pick cv) := by
  unfold Beat.sink
  extract_lets es R asm _ gathered n
  have hg : a.SameChain gathered := h.step
  exact .ite h (.ite (.ite hg.flush hg) (.ite h.putAll h.putAll))

theorem Beat.SameChain.treeDone {seed : Nat} {place : Idx} : a.SameChain (b.treeDone seed place) := by
  unfold Beat.treeDone
  extract_lets d i t tr e _ v value index written
  have hv : a.SameChain value := h.putAll
  have hi : a.SameChain index := hv.put
  have hw : a.SameChain written := .ite h (.ite h.step (.ite h.step (.ite hi.step hv)))
  exact hw.step

theorem Beat.SameChain.arith {seed : Nat} {ps : List Idx} {lost : List Nat} {pick : Nat} :
    a.SameChain (b.arith seed ps lost pick) := by
  unfold Beat.arith
  extract_lets d _ log t0 t3 n es _ direct rd col c0 c1 c2 cnt ls r out tr taken sunk
  have hd : a.SameChain direct := h.step (Cluster.clearRead_vx ..)
  have ht : a.SameChain taken := h.step (Cluster.clearRead_vx ..)
  have hs : a.SameChain sunk := ht.sink
  exact .ite hd.sink (.ite hs.treeDone hs)

end

/-- A beat of an arithmetic chain moves it on by one. -/
theorem Cluster.beat_chains (k : Cluster) {x : Chain} (hkind : (chainD x.desc).kind = false) (ps : List Idx) (lost : List Nat)
    (pick : Nat) : ∃ y : Chain, y.tk = x.tk ∧ y.beat = x.beat + 1 ∧ y.desc = x.desc
      ∧ (k.beat x ps lost pick).vx.chains = (k.vx.setChain y).chains := by
  have same := (Beat.SameChain.refl { k := k, x := x }).arith (seed := k.r CL_VX_SEED) (ps := ps) (lost := lost) (pick := pick)
  unfold Cluster.beat
  extract_lets seed b0 b dg n _ y v before _ k'
  have hb : b = b0.arith seed ps lost pick := if_neg (by simp [hkind])
  rw [← hb] at same
  have hv : v = k.vx.setChain y := congrArg (Vx.setChain · y) same.vx
  have hk' : k'.vx.chains = (k.vx.setChain y).chains := by
    rw [← hv]
    unfold k'
    dsimp only
    split_ifs <;> rfl
  refine ⟨y, same.tk, congrArg (· + 1) same.beat, same.desc, ?_⟩
  split_ifs
  · exact hk'
  · exact hk'

/-! #### Changes of the state that leave the vector engine of a cluster alone -/

/-- In cluster c the vector engine is as before. -/
def State.SameVx (c : Cl) (s t : State) : Prop := (t.cl c).vx = (s.cl c).vx

theorem State.SameVx.refl (c : Cl) (s : State) : s.SameVx c s := rfl

section
variable {s t : State} {c d : Cl} (h : State.SameVx c s t)
include h

theorem State.SameVx.mod {f : Cluster → Cluster} (hf : ∀ k : Cluster, (f k).vx = k.vx := by exact fun _ => rfl) :
    State.SameVx c s (t.mod d f) := by
  refine Eq.trans ?_ h
  by_cases hd : c = d
  · subst hd
    rw [State.cl_mod_same, hf]
  · rw [State.cl_mod_other _ _ _ _ hd]

theorem State.SameVx.of_cls {u : State} (e : u.cls = t.cls := by exact rfl) : State.SameVx c s u := by
  have : u.cl c = t.cl c := by rw [State.cl, e, State.cl]
  rwa [State.SameVx, this]

theorem State.SameVx.ite {p : Prop} [Decidable p] {u : State} (h' : State.SameVx c s u) :
    State.SameVx c s (if p then t else u) := by
  split
  · exact h
  · exact h'

theorem State.SameVx.foldl {α : Type} {l : List α} {f : State → α → State}
    (hf : ∀ u a, State.SameVx c s u → State.SameVx c s (f u a)) : State.SameVx c s (l.foldl f t) :=
  List.foldlRecOn l f h fun u hu a _ => hf u a hu

/-! #### Counters, captures and reports -/

theorem State.SameVx.cinc {off n : Nat} : State.SameVx c s (t.cinc d off n) := .ite h h.mod

theorem State.SameVx.ccap {off v val : Nat} : State.SameVx c s (t.ccap d off v val) := h.mod

theorem State.SameVx.dinc {a n : Nat} : State.SameVx c s (t.dinc a n) := .ite h h.of_cls

theorem State.SameVx.logErr {e : ErrRec} : State.SameVx c s (t.logErr e) :=
  h.of_cls ((State.Tells.refl (fun _ => True) t).logErr fun _ _ => trivial).cls

theorem State.SameVx.irq {n : Nat} : State.SameVx c s (t.irq d n) := h.mod

/-! #### Poisoned words that a beat meets (R163, R268) -/

theorem State.SameVx.spEncounters {port : Nat} {ws : List Nat} : State.SameVx c s (t.spEncounters d port ws) :=
  h.foldl fun _ _ hu => hu.cinc.ccap.logErr

theorem State.SameVx.tileUe {r n : Nat} : State.SameVx c s (t.tileUe d r n) := by
  unfold State.tileUe
  extract_lets poisoned counted logged
  have told : State.SameVx c s logged := (h.mod fun k => k.setTile_vx ..).cinc.logErr
  exact .ite h (.ite told.irq told)

/-! #### Pushes and signals (R239, R374, R380) -/

theorem State.SameVx.countCue {cue : Word} {wscope : Nat} {sc : Option Nat} : State.SameVx c s (t.countCue cue wscope sc) := by
  unfold State.countCue
  extract_lets n expired abandoned
  have h1 : State.SameVx c s expired := .ite h.dinc h
  have h2 : State.SameVx c s abandoned := .ite h1.dinc h1
  split
  · exact .ite h2.dinc h2
  · exact h2

theorem State.SameVx.sendCue {e : CueDest} {w : Word} : State.SameVx c s (t.sendCue e w) := h.of_cls

theorem State.SameVx.evalSlot {n : Nat} {ab : Bool} {sc : Option Nat} {i : Fin 16} :
    State.SameVx c s (t.evalSlot d n ab sc i) := by
  unfold State.evalSlot
  split
  · refine .ite ?_ h
    split
    · exact h.mod.sendCue.countCue
    · exact h
  · exact h

theorem State.SameVx.evalWait {n : Nat} {ab : Bool} {sc : Option Nat} : State.SameVx c s (t.evalWait d n ab sc) := by
  unfold State.evalWait
  split
  · refine .ite ?_ h
    split
    · exact h.mod.sendCue.countCue
    · exact h
  · exact h

theorem State.SameVx.engInc {n : Nat} : State.SameVx c s (t.engInc d n) := by
  unfold State.engInc State.incLocal
  extract_lets v cause captured logged
  have told : State.SameVx c s logged := h.ccap.cinc.logErr
  exact .ite (h.mod.foldl fun _ _ hu => hu.evalSlot).evalWait told

theorem State.SameVx.pushQ {n : Nat} {e : HEntry} : State.SameVx c s (t.pushQ d n e) :=
  have pushed : State.SameVx c s (t.mod d fun k => k.setQueue n (k.queue n ++ [e])) := h.mod fun k => k.setQueue_vx ..
  .ite pushed.engInc pushed

end

/-! #### Beats (R198, R208) -/

section
variable {s : State} {c : Cl} {x : Chain}

theorem Chain.loaded_eq (hloaded : x.loaded = true) : { x with loaded := true } = x := by rw [← hloaded]

/-- A beat of a chain with its tables loaded, in whose words no check bit shows an error: a refused one stops its chain, and does
nothing else; any other is taken, and holds the engine for the steps of its busiest port. -/
theorem execVxBeat_clean (hx : (s.cl c).vx.current = some x) (hhold : (s.cl c).vx.hold = 0) (hloaded : x.loaded = true) :
    if (chainD x.desc).kind && (s.cl c).beatRefused x x.beat ((chainD x.desc).lanes x.beat)
        (((s.cl c).rawValues x ((chainD x.desc).lanes x.beat) []).map (·.1)) then
      execVxBeat c .clean s = .next (s.vxm c (fun v => v.setChain { x with stopped := true, tree := {} }))
    else ∃ t k pick, execVxBeat c .clean s = .next t ∧ k.vx = (s.cl c).vx.setChain x
      ∧ (t.cl c).vx = { (Cluster.beat k x ((chainD x.desc).lanes x.beat) [] pick).vx with
          hold := beatSteps x.desc ((chainD x.desc).lanes x.beat).length - 1 } := by
  unfold execVxBeat
  extract_lets k lost
  rw [show k.vx.current = some x from hx]
  dsimp -zeta only
  extract_lets d k1 x1 ps acc s1 k2 bad tl f s2 k' ue _ s3 s4 s5
  have hx1 : x1 = x := Chain.loaded_eq hloaded
  have hs1 : s1 = s.vxm c (fun v => v.setChain x) := by
    unfold s1 k1
    rw [hx1, if_pos hloaded]
    rfl
  have hk2 : k2 = { s.cl c with vx := (s.cl c).vx.setChain x } := by
    unfold k2
    rw [hs1]
    exact State.cl_mod_same ..
  rw [if_neg (not_not.2 hhold)]
  -- The refusal looks at the array and the scratchpad, which replacing the chain leaves alone.
  have hcond : (d.kind && k2.beatRefused x1 x1.beat ps ((k2.rawValues x1 ps lost).map (·.1)))
      = (d.kind && (s.cl c).beatRefused x x.beat (d.lanes x.beat) (((s.cl c).rawValues x (d.lanes x.beat) []).map (·.1))) := by
    unfold ps
    rw [hk2, hx1]
    rfl
  rw [hcond]
  split_ifs
  · rw [hs1, hx1, State.vxm, State.vxm, State.mod_mod]
    simp only [Vx.setChain_setChain]
    rfl
  · have told : s3.SameVx c (tl.foldl (fun s p => s.tileUe c p.1 p.2) s5) :=
      (State.SameVx.refl c s3).cinc.cinc.spEncounters.foldl fun _ _ hu => hu.tileUe
    refine ⟨_, k2, f.1.toNat, rfl, congrArg Cluster.vx hk2, told.trans ?_⟩
    unfold s3
    rw [State.cl_mod_same, ← hx1]
    rfl

theorem execVxBeat_refused (hx : (s.cl c).vx.current = some x) (hhold : (s.cl c).vx.hold = 0) (hloaded : x.loaded = true)
    (hkind : (chainD x.desc).kind = true)
    (hrefused : (s.cl c).beatRefused x x.beat ((chainD x.desc).lanes x.beat)
      (((s.cl c).rawValues x ((chainD x.desc).lanes x.beat) []).map (·.1)) = true) :
    execVxBeat c .clean s = .next (s.vxm c (fun v => v.setChain { x with stopped := true, tree := {} })) := by
  have h := execVxBeat_clean hx hhold hloaded
  rwa [hrefused, hkind, Bool.and_self, if_pos rfl] at h

theorem execVxBeat_arith (hx : (s.cl c).vx.current = some x) (hhold : (s.cl c).vx.hold = 0) (hloaded : x.loaded = true)
    (hkind : (chainD x.desc).kind = false) :
    ∃ t, execVxBeat c .clean s = .next t ∧ (t.cl c).vx.hold = beatSteps x.desc ((chainD x.desc).lanes x.beat).length - 1
      ∧ ∃ y ∈ (t.cl c).vx.chains, y.tk = x.tk ∧ y.beat = x.beat + 1 ∧ y.desc = x.desc := by
  have h := execVxBeat_clean hx hhold hloaded
  rw [hkind, Bool.false_and, if_neg Bool.false_ne_true] at h
  obtain ⟨t, k, pick, ht, hk, hvx⟩ := h
  obtain ⟨y, htk, hbeat, hdesc, hchains⟩ := k.beat_chains hkind ((chainD x.desc).lanes x.beat) [] pick
  have hmem : x ∈ (s.cl c).vx.chains := List.mem_of_find?_eq_some hx
  have hy : y ∈ (((s.cl c).vx.setChain x).setChain y).chains := Vx.mem_setChain (Vx.mem_setChain hmem rfl) htk.symm
  refine ⟨t, ht, by rw [hvx], y, ?_, htk, hbeat, hdesc⟩
  rwa [hvx, hchains, hk]

end

/-! #### The end of a chain (R201, R210) -/

section
variable {s : State} {c : Cl} {x : Chain}

theorem Chain.summary_length (x : Chain) : x.summary.length = 64 := by
  simp [Chain.summary, VxCounts.list, leBytes_length, sliceB_length]

theorem State.endChain_vx (s : State) (c : Cl) (x : Chain) : ((s.endChain c x).cl c).vx = { (s.cl c).vx with
    chains := (s.cl c).vx.chains.filter (fun y => y.tk ≠ x.tk), lastChain := x.num
    summary := amSetMany 0 (s.cl c).vx.summary (64 * (x.num % 16)) x.summary } := by
  have same : State.SameVx c ((s.progressed c).vxm c (fun v => { v with
      chains := v.chains.filter (fun y => y.tk ≠ x.tk), lastChain := x.num
      summary := amSetMany 0 v.summary (64 * (x.num % 16)) x.summary })) (s.endChain c x) := by
    unfold State.endChain
    extract_lets ended flagged s1 s2 s3 ctrl s4
    have h3 : State.SameVx c ended s3 := (State.SameVx.refl c ended).cinc.cinc.cinc
    have h4 : State.SameVx c ended s4 := .ite h3.irq h3
    split
    · exact h4.engInc
    · exact h4
  rw [same, State.vxm, State.progressed_eq, State.mod_mod, State.cl_mod_same]

theorem execVxChainComplete_spec {xs : List Chain} (hx : (s.cl c).vx.chains = x :: xs) (hdone : x.busy = false)
    (hroom : (s.cl c).roomFor ((s.cl c).chainPushes x) = true) (hcmp : x.cmp = false) :
    ∃ t, execVxChainComplete c s = .next t ∧ (t.cl c).vx.chains = (s.cl c).vx.chains.filter (fun y => y.tk ≠ x.tk)
      ∧ (t.cl c).vx.lastChain = x.num ∧ amGetMany 0 (t.cl c).vx.summary (64 * (x.num % 16)) 64 = x.summary := by
  have pushed : s.SameVx c (((s.cl c).chainPushes x).foldl (fun s p => s.pushQ c p.1 p.2) s) :=
    (State.SameVx.refl c s).foldl fun _ _ hu => hu.pushQ
  simp only [execVxChainComplete, hx, hdone, hroom, hcmp, Bool.not_true, Bool.or_false, Bool.false_and, Bool.false_eq_true,
    if_false]
  refine ⟨_, rfl, ?_⟩
  rw [State.endChain_vx, pushed]
  refine ⟨congrArg _ hx, rfl, ?_⟩
  have := amGetMany_amSetMany 0 x.summary (s.cl c).vx.summary (64 * (x.num % 16))
  rwa [x.summary_length] at this

end

/-- Settles O17: acceptance by what it takes and what joins the engine; a refused beat by its one change; a beat by what it
leaves of its chain's place; the end of a chain by what its pushes and reports leave of the engine. -/
theorem vectorChainsRun : Obligations.VectorChainsRun := by
  refine ⟨fun s c q hq hus hqueues hpass => ?_, fun s c x hx hhold hloaded hkind hrefused => ?_,
    fun s c x => execVxBeat_arith, fun s c x xs => execVxChainComplete_spec⟩
  · exact ⟨_, execVxChainAccept_pass hq hus hqueues hpass, State.acceptChain_takes .., State.acceptChain_vx ..⟩
  · refine ⟨_, execVxBeat_refused hx hhold hloaded hkind hrefused, s.within_mod c _, ?_⟩
    rw [State.vxm, State.cl_mod_same]
    exact ⟨rfl, rfl, rfl⟩

end Sys2Proof.Machine
end
